-- ==== Sys2Proof/Word.lean ====
section
/-! DEFINITION. The word types of the Krythus K9: the widths the manual gives its registers, and nothing else. -/

namespace Sys2Proof

/-- A byte of memory, of the URS or of a record (00 R8). -/
abbrev Byte := BitVec 8

/-- A 32-bit slot word, vector lane or literal word (03 R68, R90; 07 R149). -/
abbrev W32 := BitVec 32

/-- A scalar, address or system register (01 R12). -/
abbrev W64 := BitVec 64

/-- A modifier descriptor (01 R17). -/
abbrev W128 := BitVec 128

/-- A vector mask (01 R16). -/
abbrev Mask := BitVec 256

/-- A linear virtual address (00 R7). -/
abbrev VA := BitVec 57

end Sys2Proof
end

