-- ==== Sys2Proof/Machine/Sparse.lean ====
section
/-! DEFINITION. Sparse maps: sorted lists of keys and values in one canonical form. An unlisted key reads as the default,
and no listed value equals it, so that equal maps are equal data. Memory, the URS, register files and the tables of
agents are all held so. -/

namespace Sys2Proof

/-- A map from naturals, as a list with keys strictly rising. -/
abbrev SMap (α : Type) := List (Nat × α)

/-- The value at a key, `d` where none is listed. -/
def SMap.get {α : Type} (d : α) : SMap α → Nat → α
  | [], _ => d
  | (j, v) :: m, k => if j = k then v else SMap.get d m k

/-- The map with a value at a key; writing the default removes the entry. -/
def SMap.set {α : Type} [DecidableEq α] (d : α) : SMap α → Nat → α → SMap α
  | [], k, v => if v = d then [] else [(k, v)]
  | (j, w) :: m, k, v =>
    if k < j then (if v = d then (j, w) :: m else (k, v) :: (j, w) :: m)
    else if k = j then (if v = d then m else (k, v) :: m)
    else (j, w) :: SMap.set d m k v

/-- The map with a value at a key, listed whatever it is: for tables whose entries are records. -/
def SMap.put {α : Type} : SMap α → Nat → α → SMap α
  | [], k, v => [(k, v)]
  | (j, w) :: m, k, v =>
    if k < j then (k, v) :: (j, w) :: m
    else if k = j then (k, v) :: m
    else (j, w) :: SMap.put m k v

/-- Every key of the map is above `k`. -/
def SMap.above {α : Type} (k : Nat) (m : SMap α) : Bool := m.all (fun e => k < e.1)

/-- The value listed for a key. -/
def SMap.look {α : Type} (m : SMap α) (k : Nat) : Option α := (List.find? (fun e => e.1 == k) m).map Prod.snd

/-- The canonical form: keys strictly rising, and no entry equal to the default. -/
def SMap.wf {α : Type} [DecidableEq α] (d : α) : SMap α → Bool
  | [] => true
  | (j, v) :: m => decide (v ≠ d) && SMap.above j m && SMap.wf d m

/-- The bytes at `a`, `a + 1`, … from a list of cells with rising keys none of which is below `a`; `d` gives the byte of
an unlisted address. -/
def fillBytes (d : Nat → Byte) : Nat → Nat → List (Nat × Byte) → List Byte
  | 0, _, _ => []
  | n + 1, a, [] => d a :: fillBytes d n (a + 1) []
  | n + 1, a, (j, v) :: m =>
    if j = a then v :: fillBytes d n (a + 1) m else d a :: fillBytes d n (a + 1) ((j, v) :: m)

/-- The `n` bytes at `a` of a byte map. -/
def readBytes (d : Nat → Byte) (m : List (Nat × Byte)) (a n : Nat) : List Byte :=
  fillBytes d n a (m.filter (fun e => a ≤ e.1 && e.1 < a + n))

/-- Cells of consecutive bytes from `a` on; `keep` says which of them a canonical map lists. -/
def cellsOf (keep : Nat → Byte → Bool) : Nat → List Byte → List (Nat × Byte)
  | _, [] => []
  | a, b :: bs => if keep a b then (a, b) :: cellsOf keep (a + 1) bs else cellsOf keep (a + 1) bs

/-- The map with `bs` written at `a`. -/
def writeBytes (keep : Nat → Byte → Bool) (m : List (Nat × Byte)) (a : Nat) (bs : List Byte) : List (Nat × Byte) :=
  m.filter (fun e => e.1 < a) ++ cellsOf keep a bs ++ m.filter (fun e => a + bs.length ≤ e.1)

/-- Little-endian value of bytes (00 R8). -/
def leNat : List Byte → Nat
  | [] => 0
  | b :: bs => b.toNat + 256 * leNat bs

/-- The `n` little-endian bytes of a value (00 R8). -/
def leBytes : Nat → Nat → List Byte
  | 0, _ => []
  | n + 1, v => BitVec.ofNat 8 v :: leBytes n (v / 256)

/-- Bytes `[o, o + n)` of a record as a number. -/
def fieldAt (bs : List Byte) (o n : Nat) : Nat := leNat ((bs.drop o).take n)

/-- Bits [hi:lo] of a natural, as the manual writes slices (00 R10). -/
def bits (v hi lo : Nat) : Nat := v / 2 ^ lo % 2 ^ (hi + 1 - lo)

/-- Bit `i` of a natural. -/
def bit (v i : Nat) : Bool := v.testBit i

/-- SignExtend of a `w`-bit value to 64 bits (03 R71). -/
def sext64 (w v : Nat) : W64 :=
  if v.testBit (w - 1) then BitVec.ofNat 64 (v + 2 ^ 64 - 2 ^ w) else BitVec.ofNat 64 v

/-- Ceil(a / b). -/
def ceilDiv (a b : Nat) : Nat := (a + b - 1) / b

end Sys2Proof
end

