-- ==== Sys2Proof/Machine/Num.lean ====
section
/-! DEFINITION. Numbers (02): exact values, the six floating formats, the five rounding modes and the helper functions
RoundMag, RoundFloat, RoundInt, Decay, FwAdd and FwMerge. A value is a dyadic number; a quotient, a root or a
transcendental is held as a dyadic approximation from below whose last bit is set when the approximation is not exact,
far below every rounding point. -/

namespace Sys2Proof.Machine

/-- A value over the reals, or a special value (02 R41, R42). `fin s m e` is (−1)^s × m × 2^e. -/
inductive Num where
  | nan
  | inf (s : Bool)
  | fin (s : Bool) (m : Nat) (e : Int)
  deriving DecidableEq, Repr

/-- The floating formats (02 R40). -/
inductive Fmt where
  | fp32 | bf16 | fp16 | e4m3 | e5m2 | fx36
  deriving DecidableEq, Repr

/-- Fraction width FB (02 R40). -/
def Fmt.fb : Fmt → Nat
  | .fp32 => 23 | .bf16 => 7 | .fp16 => 10 | .e4m3 => 3 | .e5m2 => 2 | .fx36 => 27

/-- Exponent width (02 R40). -/
def Fmt.eb : Fmt → Nat
  | .fp32 => 8 | .bf16 => 8 | .fp16 => 5 | .e4m3 => 4 | .e5m2 => 5 | .fx36 => 8

/-- Bias (02 R40). -/
def Fmt.bias : Fmt → Nat
  | .fp32 => 127 | .bf16 => 127 | .fp16 => 15 | .e4m3 => 7 | .e5m2 => 15 | .fx36 => 127

/-- EMIN (02 R40). -/
def Fmt.emin (f : Fmt) : Int := 1 - (f.bias : Int)

/-- EMAX (02 R40). -/
def Fmt.emax : Fmt → Int
  | .fp32 => 127 | .bf16 => 127 | .fp16 => 15 | .e4m3 => 8 | .e5m2 => 15 | .fx36 => 127

/-- Width in bits (02 R40). -/
def Fmt.width (f : Fmt) : Nat := 1 + f.eb + f.fb

/-- KBits (02 R60). -/
def Fmt.kbits : Fmt → Nat
  | .e4m3 => 8 | .e5m2 => 8 | _ => 16

/-- The significand of the largest finite value, in units of its last place (02 R41). -/
def Fmt.maxSig : Fmt → Nat
  | .e4m3 => 14
  | f => 2 ^ (f.fb + 1) - 1

/-- Code of a sign and a magnitude code. -/
def Fmt.code (f : Fmt) (s : Bool) (mag : Nat) : Nat := (if s then 2 ^ (f.eb + f.fb) else 0) + mag

/-- The canonical NaN (02 R41). -/
def Fmt.canonNan : Fmt → Nat
  | .fp32 => 0x7FC00000 | .bf16 => 0x7FC0 | .fp16 => 0x7E00 | .e4m3 => 0x7F | .e5m2 => 0x7E | .fx36 => 0x7FC000000

/-- Magnitude code of the largest finite value (02 R41). -/
def Fmt.maxCode : Fmt → Nat
  | .fp32 => 0x7F7FFFFF | .bf16 => 0x7F7F | .fp16 => 0x7BFF | .e4m3 => 0x7E | .e5m2 => 0x7B | .fx36 => 0x7F7FFFFFF

/-- The value of a code (02 R40, R41). -/
def Fmt.decode (f : Fmt) (c : Nat) : Num :=
  let s := (c / 2 ^ (f.eb + f.fb)) % 2 == 1
  let ex := c / 2 ^ f.fb % 2 ^ f.eb
  let fr := c % 2 ^ f.fb
  if f = .e4m3 then
    if ex = 15 ∧ fr = 7 then .nan
    else if ex = 0 then .fin s fr (f.emin - f.fb)
    else .fin s (2 ^ f.fb + fr) ((ex : Int) - f.bias - f.fb)
  else if ex = 2 ^ f.eb - 1 then (if fr = 0 then .inf s else .nan)
  else if ex = 0 then .fin s fr (f.emin - f.fb)
  else .fin s (2 ^ f.fb + fr) ((ex : Int) - f.bias - f.fb)

/-- The rounding modes of EFR.RM (01 R32). -/
inductive Rm where
  | rne | rtz | rup | rdn | rsto
  deriving DecidableEq, Repr

/-- EFR.RM as a mode; the reserved codes are never in effect (01 R32) and are read as RNE. -/
def Rm.ofCode : Nat → Rm
  | 1 => .rtz | 2 => .rup | 3 => .rdn | 4 => .rsto | _ => .rne

/-- The value is a NaN. -/
def Num.isNan : Num → Bool
  | .nan => true
  | _ => false

/-- The value is a zero of either sign. -/
def Num.isZero : Num → Bool
  | .fin _ m _ => m == 0
  | _ => false

/-- The value is finite. -/
def Num.isFin : Num → Bool
  | .fin .. => true
  | _ => false

/-- SignOf. -/
def Num.sign : Num → Bool
  | .nan => false
  | .inf s => s
  | .fin s _ _ => s

/-- The value with its sign inverted. -/
def Num.neg : Num → Num
  | .nan => .nan
  | .inf s => .inf !s
  | .fin s m e => .fin (!s) m e

/-- Abs. -/
def Num.abs : Num → Num
  | .nan => .nan
  | .inf _ => .inf false
  | .fin _ m e => .fin false m e

/-- An integer. -/
def Num.ofInt (i : Int) : Num := .fin (decide (i < 0)) i.natAbs 0

/-- The value times 2^k. -/
def Num.scale (k : Int) : Num → Num
  | .fin s m e => .fin s m (e + k)
  | x => x

/-- Product; 0 × ∞ is a NaN (02 R42). -/
def Num.mul : Num → Num → Num
  | .nan, _ => .nan
  | _, .nan => .nan
  | .inf s, .inf t => .inf (s != t)
  | .inf s, .fin t m _ => if m = 0 then .nan else .inf (s != t)
  | .fin t m _, .inf s => if m = 0 then .nan else .inf (s != t)
  | .fin s m e, .fin t n f => .fin (s != t) (m * n) (e + f)

/-- Sum; `rdn` chooses the sign of an exact zero sum of opposite signs (02 R42). -/
def Num.add (rdn : Bool) : Num → Num → Num
  | .nan, _ => .nan
  | _, .nan => .nan
  | .inf s, .inf t => if s = t then .inf s else .nan
  | .inf s, .fin .. => .inf s
  | .fin .., .inf s => .inf s
  | .fin s m e, .fin t n f =>
    if m = 0 ∧ n = 0 then .fin (if s = t then s else rdn) 0 0
    else if m = 0 then .fin t n f
    else if n = 0 then .fin s m e
    else
      let lo := if e ≤ f then e else f
      let a : Int := (if s then -1 else 1) * ((m * 2 ^ (e - lo).toNat : Nat) : Int)
      let b : Int := (if t then -1 else 1) * ((n * 2 ^ (f - lo).toNat : Nat) : Int)
      if a + b = 0 then .fin rdn 0 0 else .fin (decide (a + b < 0)) (a + b).natAbs lo

/-- Difference. -/
def Num.sub (rdn : Bool) (x y : Num) : Num := Num.add rdn x y.neg

/-- The values in order, NaN aside; the two zeros are equal. -/
def Num.lt : Num → Num → Bool
  | .nan, _ => false
  | _, .nan => false
  | .inf s, .inf t => s && !t
  | .inf s, .fin .. => s
  | .fin .., .inf t => !t
  | .fin s m e, .fin t n f =>
    let lo := if e ≤ f then e else f
    let a : Int := (if s then -1 else 1) * ((m * 2 ^ (e - lo).toNat : Nat) : Int)
    let b : Int := (if t then -1 else 1) * ((n * 2 ^ (f - lo).toNat : Nat) : Int)
    decide (a < b)

/-- Equal values; the two zeros are equal and a NaN equals nothing. -/
def Num.eqv (x y : Num) : Bool := !x.isNan && !y.isNan && !x.lt y && !y.lt x

/-- Quotient of finite magnitudes with a sticky last bit; the divisor is not zero. -/
def divMag (m n : Nat) : Nat × Int :=
  let sh := 240 + n.log2
  let q := m * 2 ^ sh / n
  (2 * q + (if q * n = m * 2 ^ sh then 0 else 1), -(sh : Int) - 1)

/-- Quotient (IEEE 754-2019, 02 R42). -/
def Num.div : Num → Num → Num
  | .nan, _ => .nan
  | _, .nan => .nan
  | .inf _, .inf _ => .nan
  | .inf s, .fin t _ _ => .inf (s != t)
  | .fin s _ _, .inf t => .fin (s != t) 0 0
  | .fin s m e, .fin t n f =>
    if n = 0 then (if m = 0 then .nan else .inf (s != t))
    else let q := divMag m n; .fin (s != t) q.1 (q.2 + e - f)

/-- Integer square root from above, one bit of the root for each unit of fuel. -/
def isqrtAux : Nat → Nat → Nat → Nat
  | 0, _, r => r
  | k + 1, n, r => isqrtAux k n (if (r + 2 ^ k) * (r + 2 ^ k) ≤ n then r + 2 ^ k else r)

/-- Floor of the square root. -/
def isqrt (n : Nat) : Nat := isqrtAux (n.log2 / 2 + 1) n 0

/-- Square root of a value that is not negative; a negative value gives a NaN, −0 gives −0. -/
def Num.sqrt : Num → Num
  | .nan => .nan
  | .inf s => if s then .nan else .inf false
  | .fin s m e =>
    if m = 0 then .fin s 0 0
    else if s then .nan
    else
      let odd := e % 2 != 0
      let n := (if odd then 2 * m else m) * 2 ^ 480
      let e' := (if odd then e - 1 else e) / 2 - 240
      let r := isqrt n
      .fin false (2 * r + (if r * r = n then 0 else 1)) (e' - 1)

/-- 1 / √a for a positive finite a (07 R155). -/
def rsqrtMag (m : Nat) (e : Int) : Num :=
  let odd := e % 2 != 0
  let n := if odd then 2 * m else m
  let e' := (if odd then e - 1 else e) / 2
  let t := 120 + n.log2
  let q := isqrt (2 ^ (2 * t) / n)
  .fin false (2 * q + (if q * q * n = 2 ^ (2 * t) then 0 else 1)) (-(t : Int) - e' - 1)

/-- Bits of the fixed-point arithmetic of `exp2Frac` and `log2Frac`. -/
def fixBits : Nat := 256

/-- Floor of ln 2 × 2^256. -/
def ln2Fix : Nat := 0xb17217f7d1cf79abc9e3b39803f2f6af40f343267298b62d8a0d175b8baafa2b

/-- Sum of the exponential series from term `k` on; `t` is the term before. -/
def expSeries : Nat → Nat → Nat → Nat → Nat
  | 0, _, _, _ => 0
  | fuel + 1, k, y, t =>
    let t' := t * y / 2 ^ fixBits / k
    t' + expSeries fuel (k + 1) y t'

/-- 2^(f / 2^256) × 2^256 for f < 2^256, from below. -/
def exp2Frac (f : Nat) : Nat :=
  2 ^ fixBits + expSeries 80 1 (f * ln2Fix / 2 ^ fixBits) (2 ^ fixBits)

/-- 2^x for a finite x (07 R155), exact when x is an integer; a result beyond every format is held at 2^±2000. -/
def exp2Fin (s : Bool) (m : Nat) (e : Int) : Num :=
  if m = 0 then .fin false 1 0
  else if (m.log2 : Int) + e > 12 then .fin false 1 (if s then -2000 else 2000)
  else
    -- x × 2^256, exact for every FP32 value
    let v : Int := (if s then -1 else 1) * ((if 0 ≤ e + 256 then m * 2 ^ (e + 256).toNat else m / 2 ^ (-(e + 256)).toNat : Nat) : Int)
    let i := v.fdiv ((2 ^ fixBits : Nat) : Int)
    let f := (v.fmod ((2 ^ fixBits : Nat) : Int)).toNat
    if f = 0 then .fin false 1 i
    else .fin false (exp2Frac f / 2 ^ 40 * 2 + 1) (i - 256 + 40 - 1)

/-- Sum of z^k / k over odd k, in fixed point. -/
def atanhSeries : Nat → Nat → Nat → Nat → Nat
  | 0, _, _, _ => 0
  | fuel + 1, k, z2, p => p / k + atanhSeries fuel (k + 2) z2 (p * z2 / 2 ^ fixBits)

/-- log₂ (t / 2^256) × 2^256 for 2^256 ≤ t < 2^257. -/
def log2Frac (t : Nat) : Nat :=
  let z := (t - 2 ^ fixBits) * 2 ^ fixBits / (t + 2 ^ fixBits)
  2 * atanhSeries 90 1 (z * z / 2 ^ fixBits) z * 2 ^ fixBits / ln2Fix

/-- log₂ of m × 2^e, m > 0 (07 R155), exact at powers of two. -/
def log2Fin (m : Nat) (e : Int) : Num :=
  let lg := m.log2
  let i : Int := (lg : Int) + e
  if m = 2 ^ lg then Num.ofInt i
  else
    let l : Int := i * ((2 ^ fixBits : Nat) : Int) + (log2Frac (m * 2 ^ (fixBits - lg)) : Nat)
    .fin (decide (l < 0)) (l.natAbs / 2 ^ 30 * 2 + 1) (-256 + 30 - 1)

/-- RoundMag (02 R55) of m × 2^k: `rb` holds the `kb` LFSR bits of RSTO. A shift far below the last place is cut short;
what remains is still above zero and below every rounding point. -/
def roundMag (rm : Rm) (s : Bool) (rb kb : Nat) (m : Nat) (k : Int) : Nat :=
  if 0 ≤ k then m * 2 ^ k.toNat
  else
    let n := min (-k).toNat (m.log2 + 64)
    let i := m / 2 ^ n
    let rem := m % 2 ^ n
    match rm with
    | .rtz => i
    | .rne => if rem > 2 ^ (n - 1) || (rem == 2 ^ (n - 1) && i % 2 == 1) then i + 1 else i
    | .rup => if !s && rem != 0 then i + 1 else i
    | .rdn => if s && rem != 0 then i + 1 else i
    | .rsto => (m * 2 ^ kb + rb * 2 ^ n) / 2 ^ (n + kb)

/-- InfOf (02 R55). -/
def infOf (f : Fmt) (e4s : Bool) (s : Bool) : Nat :=
  if f = .e4m3 then (if e4s then f.code s f.maxCode else f.canonNan)
  else f.code s ((2 ^ f.eb - 1) * 2 ^ f.fb)

/-- Overflow (02 R55). -/
def overflow (f : Fmt) (rm : Rm) (e4s : Bool) (s : Bool) : Nat :=
  match rm with
  | .rne => infOf f e4s s
  | .rsto => infOf f e4s s
  | .rtz => f.code s f.maxCode
  | .rup => if s then f.code true f.maxCode else infOf f e4s false
  | .rdn => if s then infOf f e4s true else f.code false f.maxCode

/-- RoundFloat (02 R55): the code of a value. `rb` holds the LFSR bits that RSTO takes. -/
def roundFloat (f : Fmt) (rm : Rm) (e4s : Bool) (rb : Nat) : Num → Nat
  | .nan => f.canonNan
  | .inf s => infOf f e4s s
  | .fin s m e =>
    if m = 0 then f.code s 0
    else
      let lg := (m.log2 : Int) + e
      if lg > f.emax then overflow f rm e4s s
      else
        let ee := if lg < f.emin then f.emin else lg
        let i := roundMag rm s rb f.kbits m (e - (ee - f.fb))
        if ee = f.emax ∧ i > f.maxSig then overflow f rm e4s s
        else f.code s ((ee + f.bias - 1).toNat * 2 ^ f.fb + i)

/-- RoundFloat to FP32 with RNE (02 R64, R66). -/
def rne32 (x : Num) : Nat := roundFloat .fp32 .rne false 0 x

/-- The FP32 value of a rounded FP32 result. -/
def rneVal (f : Fmt) (x : Num) : Num := f.decode (roundFloat f .rne false 0 x)

/-- RoundFX36 (02 R57), on a core with FX36 fallback rounding to FP32 (02 R58): a value of FX36. -/
def roundFx (fxd : Bool) (x : Num) : Num := if fxd then rneVal .fp32 x else rneVal .fx36 x

/-- IntRange (02 R56). -/
def intRange (w : Nat) (sg : Bool) : Int × Int :=
  if sg then
    if w ≤ 8 then (-((2 ^ (w - 1) : Nat) : Int) + 1, ((2 ^ (w - 1) : Nat) : Int) - 1)
    else (-((2 ^ (w - 1) : Nat) : Int), ((2 ^ (w - 1) : Nat) : Int) - 1)
  else (0, ((2 ^ w : Nat) : Int) - 1)

/-- KBits of an integer target (02 R60). -/
def intKbits (w : Nat) : Nat := if w ≤ 8 then 8 else 16

/-- RoundInt (02 R56). -/
def roundInt (w : Nat) (sg : Bool) (rm : Rm) (rb : Nat) (x : Num) : Int :=
  let r := intRange w sg
  match x with
  | .nan => 0
  | .inf s => if s then r.1 else r.2
  | .fin s m e =>
    if (m.log2 : Int) + e > 200 ∧ m ≠ 0 then (if s then r.1 else r.2)
    else
      let i : Int := roundMag rm s rb (intKbits w) m e
      let j := if s then -i else i
      min (max j r.1) r.2

/-- The integer as a code of w bits. -/
def intCode (w : Nat) (i : Int) : Nat := (i % ((2 ^ w : Nat) : Int)).toNat

/-- The multiplier 2^(−FR / 2^20) of Decay, rounded to FP32 (02 R66). -/
def decayMul (fr : Nat) : Num := rneVal .fp32 (exp2Fin true fr (-20))

/-- Decay (02 R66): the code of an element of format `f` after `n` steps under decay code `d`. -/
def decay (f : Fmt) (d n : Nat) (v : Nat) : Nat :=
  if n = 0 ∨ d = 0 then v
  else
    let e := n * d
    roundFloat f .rne false 0 ((Num.mul (f.decode v) (decayMul (e % 2 ^ 20))).scale (-((e / 2 ^ 20 : Nat) : Int)))

/-- FwAdd (02 R67): the new element of format `f`; the stamp becomes `now`. -/
def fwAdd (f : Fmt) (d : Nat) (v t : Nat) (delta : Num) (now : Nat) : Nat :=
  roundFloat f .rne false 0 (Num.add false (f.decode (decay f d ((now + 65536 - t % 65536) % 65536) v)) delta)

/-- FwMerge (02 R67): element and stamp. -/
def fwMerge (f : Fmt) (d : Nat) (v1 t1 v2 t2 : Nat) : Nat × Nat :=
  let n := (t2 + 65536 - t1 % 65536) % 65536
  if n < 32768 then (roundFloat f .rne false 0 (Num.add false (f.decode (decay f d n v1)) (f.decode v2)), t2)
  else (roundFloat f .rne false 0
    (Num.add false (f.decode v1) (f.decode (decay f d ((t1 + 65536 - t2 % 65536) % 65536) v2))), t1)

/-- One level of TreeSum (02 R64): adjacent values added, each node rounded. -/
def treeLevel : List Num → List Num
  | a :: b :: l => rneVal .fp32 (Num.add false a b) :: treeLevel l
  | l => l

/-- TreeSum over 256 leaves (02 R64). -/
def treeSum (l : List Num) : Num :=
  ((treeLevel (treeLevel (treeLevel (treeLevel (treeLevel (treeLevel (treeLevel (treeLevel l)))))))).head?).getD .nan

/-- Sat36 (02 R43). -/
def sat36 (i : Int) : Int := min (max i (-(2 ^ 35 : Int))) (2 ^ 35 - 1)

/-- The exact sum of products of one group of four (02 R65). -/
def groupSum : List (Num × Num) → Num
  | [] => .fin true 0 0
  | p :: l => Num.add false (Num.mul p.1 p.2) (groupSum l)

/-- DotFX36 (02 R65) on groups of four products. -/
def dotFx (fxd : Bool) : Num → List (List (Num × Num)) → Num
  | acc, [] => acc
  | acc, g :: l => dotFx fxd (roundFx fxd (Num.add false acc (roundFx fxd (groupSum g)))) l

/-- The exact integer sum of one group of products. -/
def groupInt : List (Int × Int) → Int
  | [] => 0
  | p :: l => p.1 * p.2 + groupInt l

/-- DotInt (02 R65) on groups of four products. -/
def dotInt : Int → List (List (Int × Int)) → Int
  | acc, [] => acc
  | acc, g :: l => dotInt (sat36 (acc + groupInt g)) l

/-- One step of a lane's LFSR (02 R59). -/
def lfsrStep (t : W32) : W32 :=
  let v := t.toNat
  let f := (v / 2 ^ 31 + v / 2 ^ 21 + v / 2 + v) % 2
  BitVec.ofNat 32 (v * 2 + f)

/-- The `k` bits an RSTO rounding takes from a seed (02 R59). -/
def lfsrBits (t : W32) (k : Nat) : Nat := t.toNat / 2 ^ (32 - k)

/-- `n` steps of a lane's LFSR. -/
def lfsrSteps : Nat → W32 → W32
  | 0, t => t
  | n + 1, t => lfsrSteps n (lfsrStep t)

end Sys2Proof.Machine
end

