-- ==== Sys2Proof/Machine/Flags.lean ====
section
/-! DEFINITION. Conditions (03 R72): every relation that a compare or a command of a stream may name. -/

namespace Sys2Proof.Machine

/-- The relations of 03 R72. -/
inductive Rel where
  | eq | ne | lts | les | gts | ges | ltz | lez | gtz | gez | un
  deriving DecidableEq, Repr

/-- Cond over bit vectors of one width (03 R72). -/
def cond {w : Nat} (r : Rel) (x y : BitVec w) : Bool :=
  match r with
  | .eq => x == y
  | .ne => x != y
  | .lts => x.slt y
  | .les => x.sle y
  | .gts => y.slt x
  | .ges => y.sle x
  | .ltz => x.ult y
  | .lez => x.ule y
  | .gtz => y.ult x
  | .gez => y.ule x
  | .un => false

/-- Cond over floating values (03 R72, 04 R106, 07 R157); the integer relations stand for the ordinary ones. -/
def condF (r : Rel) (x y : Num) : Bool :=
  match r with
  | .un => x.isNan || y.isNan
  | .ne => !x.eqv y
  | .eq => x.eqv y
  | .lts => x.lt y
  | .ltz => x.lt y
  | .gts => y.lt x
  | .gtz => y.lt x
  | .les => x.lt y || x.eqv y
  | .lez => x.lt y || x.eqv y
  | .ges => y.lt x || x.eqv y
  | .gez => y.lt x || x.eqv y

/-- The S-slot codes of `cmp` and `cmpi` (03 R77). -/
def relS : Nat → Rel
  | 0 => .eq | 1 => .ne | 2 => .lts | 3 => .les | 4 => .gts | 5 => .ges | 6 => .ltz | 7 => .lez | 8 => .gtz | _ => .gez

/-- The floating codes of `fcmp` and `vcmp.f` (03 R77, R81). -/
def relF : Nat → Rel
  | 0 => .eq | 1 => .ne | 2 => .lts | 3 => .les | 4 => .gts | 5 => .ges | _ => .un

/-- The signed codes of `vcmp.i` (03 R81). -/
def relI : Nat → Rel
  | 0 => .eq | 1 => .ne | 2 => .lts | 3 => .les | 4 => .gts | _ => .ges

/-- The unsigned codes of `acmp` and of the command stream (03 R78, 15 R320). -/
def relA : Nat → Rel
  | 0 => .eq | 1 => .ne | 2 => .ltz | 3 => .lez | 4 => .gtz | _ => .gez

end Sys2Proof.Machine
end

