-- ==== Sys2Proof/Config.lean ====
section
/-! DEFINITION. What one package fixes and the manual does not: the repair map of a reset, and the free values. A free
value is opaque: nothing in Lean can evaluate it, so a statement about it holds whatever it is. -/

namespace Sys2Proof.Config

/-- A byte outside the package (host memory, or a peer's memory behind a fabric window) that no write of this model has
reached: 21 R413, R414 give the access and not what stands there. -/
opaque outsideByte : Nat → Byte

/-- A 64-bit value the manual leaves open, one for each value of `State.fresh`. -/
opaque free64 : Nat → W64

/-- The hash of a tile-cache tag (14 R291): partition, handle, tile row, tile column, third and fourth index. -/
opaque tileHash : Nat → Nat → Nat → Nat → Nat → Nat → Nat

/-- The repair map read at a reset (12 R271, 20 R406): half-width arrays, FX36 fallback, clusters mapped out. -/
structure Repair where
  /-- Cores whose matrix array runs at half width. -/
  halfWidth : List Nat
  /-- Cores with FX36 fallback. -/
  fxd : List Nat
  /-- Clusters mapped out. -/
  out : List Nat
  deriving DecidableEq, Repr

/-- The package this model stands for has every cluster working and no degraded core (00 R3); log 5. -/
def repair : Repair := { halfWidth := [], fxd := [], out := [] }

/-- The fused power cap, in watts (20 R407). -/
def fusedCap : Nat := 3000

end Sys2Proof.Config
end

