-- ==== Sys2Proof/Syntax.lean ====
section
/-! DEFINITION. The steps of the part, one constructor for each row of spec/opcode_table.json: the 188 slot operations,
whose arguments are the fields of their words (named by the table's letters: `k` guard index, `g` negate bit, `s` in
the C slot the stall count, `l` the start delay), and the 94 events, whose arguments name the agent concerned
(`g` a global strand number, `c` a global core number, `u` a global cluster number, `d` a die, `n` a stream or entry,
`p` a partition or port) and the values it works on. -/

namespace Sys2Proof

/-- Every step of the table. -/
inductive Instr where
  -- The C slot (03 R75).
  /-- R69: C-slot no-operation whose only effect is its stall count SC. -/
  | nop (s : BitVec 4)
  /-- R121: Conditional branch on its guard with two delay bundles that always execute, optionally rotating views. -/
  | br (k : BitVec 3) (g : BitVec 1) (r : BitVec 1) (d : BitVec 16) (s : BitVec 4)
  /-- R121: Conditional branch whose two delay bundles are annulled if it is not taken. -/
  | brA (k : BitVec 3) (g : BitVec 1) (r : BitVec 1) (d : BitVec 16) (s : BitVec 4)
  /-- R121: Conditional branch whose two delay bundles are annulled if it is taken. -/
  | brZ (k : BitVec 3) (g : BitVec 1) (r : BitVec 1) (d : BitVec 16) (s : BitVec 4)
  /-- R122: Jump by an 18-bit bundle displacement with two delay bundles. -/
  | jmp (k : BitVec 3) (g : BitVec 1) (d : BitVec 18) (s : BitVec 4)
  /-- R122: Jump that writes the link A + 96 to a31. -/
  | call (k : BitVec 3) (g : BitVec 1) (d : BitVec 18) (s : BitVec 4)
  /-- R122: Jump to the address held in a31. -/
  | ret (k : BitVec 3) (g : BitVec 1) (s : BitVec 4)
  /-- R122: Jump to the address held in an address register. -/
  | jr (k : BitVec 3) (g : BitVec 1) (a : BitVec 5) (s : BitVec 4)
  /-- R123: Applies the view rotation of every rotating view at bundle completion. -/
  | rot (k : BitVec 3) (g : BitVec 1) (s : BitVec 4)
  /-- R124: Ends the task once its landings, engine commands, near-memory commands and permits are complete. -/
  | doneTask (k : BitVec 3) (g : BitVec 1) (s : BitVec 4)
  /-- R125: Completes the bundle, then enters the handler with cause 0x08 and the code as detail. -/
  | trap (k : BitVec 3) (g : BitVec 1) (c : BitVec 8) (s : BitVec 4)
  /-- R125: Completes the bundle, then enters the handler with cause 0x09 and the service number. -/
  | sys (k : BitVec 3) (g : BitVec 1) (v : BitVec 16) (s : BitVec 4)
  /-- R127: Waits for the handler's landings, then restores the frozen interrupted context and leaves handler mode. -/
  | rfe (k : BitVec 3) (g : BitVec 1) (s : BitVec 4)
  /-- R126: Raises trap cause 0x0A, or freezes the device after slot 0 when breakpoint-instruction stops are armed. -/
  | brk (k : BitVec 3) (g : BitVec 1) (c : BitVec 8) (s : BitVec 4)
  /-- R128: Marks a segment end and charges COST to the cadence budget, counting overruns. -/
  | segend (k : BitVec 3) (g : BitVec 1) (c : BitVec 18) (s : BitVec 4)
  /-- R129: Reads a strand system register into a scalar register. -/
  | mfsr (k : BitVec 3) (g : BitVec 1) (d : BitVec 6) (r : BitVec 8) (s : BitVec 4)
  /-- R129: Writes a scalar register to a writable strand system register. -/
  | mtsr (k : BitVec 3) (g : BitVec 1) (a : BitVec 6) (r : BitVec 8) (s : BitVec 4)
  /-- R131: Waits until the strand's stores and copies are performed, then discards prefetched bundles and literals. -/
  | isync (k : BitVec 3) (g : BitVec 1) (s : BitVec 4)
  /-- R132: Gives up issue position to another ready strand without changing state. -/
  | yield (k : BitVec 3) (g : BitVec 1) (s : BitVec 4)
  /-- R189: Holds its bundle until the acquire, release or sequentially consistent conditions of its scope are met. -/
  | fence (k : BitVec 3) (g : BitVec 1) (o : BitVec 2) (e : BitVec 3) (s : BitVec 4)
  /-- R195: Holds its bundle until the strand's lateral and linear stores and atomics are performed in the scope. -/
  | drain (k : BitVec 3) (g : BitVec 1) (e : BitVec 3) (s : BitVec 4)
  -- The S slot (03 R76, R77).
  /-- R97: Scalar 64-bit addition. -/
  | add (k : BitVec 3) (g : BitVec 1) (d : BitVec 6) (a : BitVec 6) (b : BitVec 6)
  /-- R97: Scalar 64-bit subtraction. -/
  | sub (k : BitVec 3) (g : BitVec 1) (d : BitVec 6) (a : BitVec 6) (b : BitVec 6)
  /-- R97: Scalar bitwise and. -/
  | and (k : BitVec 3) (g : BitVec 1) (d : BitVec 6) (a : BitVec 6) (b : BitVec 6)
  /-- R97: Scalar bitwise or. -/
  | or (k : BitVec 3) (g : BitVec 1) (d : BitVec 6) (a : BitVec 6) (b : BitVec 6)
  /-- R97: Scalar bitwise exclusive or. -/
  | xor (k : BitVec 3) (g : BitVec 1) (d : BitVec 6) (a : BitVec 6) (b : BitVec 6)
  /-- R97: Scalar and with the complement of B. -/
  | andn (k : BitVec 3) (g : BitVec 1) (d : BitVec 6) (a : BitVec 6) (b : BitVec 6)
  /-- R97: Scalar shift left by the low six bits of B. -/
  | shl (k : BitVec 3) (g : BitVec 1) (d : BitVec 6) (a : BitVec 6) (b : BitVec 6)
  /-- R97: Scalar arithmetic shift right. -/
  | shrS (k : BitVec 3) (g : BitVec 1) (d : BitVec 6) (a : BitVec 6) (b : BitVec 6)
  /-- R97: Scalar logical shift right. -/
  | shrZ (k : BitVec 3) (g : BitVec 1) (d : BitVec 6) (a : BitVec 6) (b : BitVec 6)
  /-- R97: Scalar rotate right. -/
  | rotr (k : BitVec 3) (g : BitVec 1) (d : BitVec 6) (a : BitVec 6) (b : BitVec 6)
  /-- R97: Signed scalar minimum. -/
  | minS (k : BitVec 3) (g : BitVec 1) (d : BitVec 6) (a : BitVec 6) (b : BitVec 6)
  /-- R97: Unsigned scalar minimum. -/
  | minZ (k : BitVec 3) (g : BitVec 1) (d : BitVec 6) (a : BitVec 6) (b : BitVec 6)
  /-- R97: Signed scalar maximum. -/
  | maxS (k : BitVec 3) (g : BitVec 1) (d : BitVec 6) (a : BitVec 6) (b : BitVec 6)
  /-- R97: Unsigned scalar maximum. -/
  | maxZ (k : BitVec 3) (g : BitVec 1) (d : BitVec 6) (a : BitVec 6) (b : BitVec 6)
  /-- R99: Low 64 bits of the scalar product, latency 3. -/
  | mul (k : BitVec 3) (g : BitVec 1) (d : BitVec 6) (a : BitVec 6) (b : BitVec 6)
  /-- R99: High half of the signed 128-bit product. -/
  | mulhS (k : BitVec 3) (g : BitVec 1) (d : BitVec 6) (a : BitVec 6) (b : BitVec 6)
  /-- R99: High half of the unsigned 128-bit product. -/
  | mulhZ (k : BitVec 3) (g : BitVec 1) (d : BitVec 6) (a : BitVec 6) (b : BitVec 6)
  /-- R99: Signed division toward zero with defined results for zero and overflow. -/
  | divS (k : BitVec 3) (g : BitVec 1) (d : BitVec 6) (a : BitVec 6) (b : BitVec 6)
  /-- R99: Unsigned division with all ones for a zero divisor. -/
  | divZ (k : BitVec 3) (g : BitVec 1) (d : BitVec 6) (a : BitVec 6) (b : BitVec 6)
  /-- R99: Signed remainder with the sign of the dividend. -/
  | remS (k : BitVec 3) (g : BitVec 1) (d : BitVec 6) (a : BitVec 6) (b : BitVec 6)
  /-- R99: Unsigned remainder. -/
  | remZ (k : BitVec 3) (g : BitVec 1) (d : BitVec 6) (a : BitVec 6) (b : BitVec 6)
  /-- R100: Counts leading zero bits. -/
  | clz (k : BitVec 3) (g : BitVec 1) (d : BitVec 6) (a : BitVec 6)
  /-- R100: Counts trailing zero bits. -/
  | ctz (k : BitVec 3) (g : BitVec 1) (d : BitVec 6) (a : BitVec 6)
  /-- R100: Counts one bits. -/
  | popc (k : BitVec 3) (g : BitVec 1) (d : BitVec 6) (a : BitVec 6)
  /-- R100: Sign-extends from 8 bits. -/
  | sextB (k : BitVec 3) (g : BitVec 1) (d : BitVec 6) (a : BitVec 6)
  /-- R100: Sign-extends from 16 bits. -/
  | sextH (k : BitVec 3) (g : BitVec 1) (d : BitVec 6) (a : BitVec 6)
  /-- R100: Sign-extends from 32 bits. -/
  | sextW (k : BitVec 3) (g : BitVec 1) (d : BitVec 6) (a : BitVec 6)
  /-- R100: Zero-extends from 8 bits. -/
  | zextB (k : BitVec 3) (g : BitVec 1) (d : BitVec 6) (a : BitVec 6)
  /-- R100: Zero-extends from 16 bits. -/
  | zextH (k : BitVec 3) (g : BitVec 1) (d : BitVec 6) (a : BitVec 6)
  /-- R100: Zero-extends from 32 bits. -/
  | zextW (k : BitVec 3) (g : BitVec 1) (d : BitVec 6) (a : BitVec 6)
  /-- R101: Compares two scalar registers under a condition code into a predicate. -/
  | cmp (k : BitVec 3) (g : BitVec 1) (p : BitVec 3) (a : BitVec 6) (b : BitVec 6) (c : BitVec 4)
  /-- R101: Compares a scalar register with a sign-extended 9-bit immediate into a predicate. -/
  | cmpi (k : BitVec 3) (g : BitVec 1) (c : BitVec 4) (p : BitVec 3) (a : BitVec 6) (i : BitVec 9)
  /-- R102: Selects A or B into D by a predicate. -/
  | sel (k : BitVec 3) (g : BitVec 1) (d : BitVec 6) (a : BitVec 6) (b : BitVec 6) (c : BitVec 3)
  /-- R103: Predicate and. -/
  | pand (k : BitVec 3) (g : BitVec 1) (d : BitVec 3) (a : BitVec 3) (b : BitVec 3)
  /-- R103: Predicate or. -/
  | por (k : BitVec 3) (g : BitVec 1) (d : BitVec 3) (a : BitVec 3) (b : BitVec 3)
  /-- R103: Predicate exclusive or. -/
  | pxor (k : BitVec 3) (g : BitVec 1) (d : BitVec 3) (a : BitVec 3) (b : BitVec 3)
  /-- R103: Predicate complement. -/
  | pnot (k : BitVec 3) (g : BitVec 1) (d : BitVec 3) (a : BitVec 3)
  /-- R103: Predicate copy. -/
  | pmov (k : BitVec 3) (g : BitVec 1) (d : BitVec 3) (a : BitVec 3)
  /-- R98: Adds a sign-extended 10-bit immediate. -/
  | addi (k : BitVec 3) (g : BitVec 1) (d : BitVec 6) (a : BitVec 6) (i : BitVec 10)
  /-- R98: Ands with a sign-extended immediate. -/
  | andi (k : BitVec 3) (g : BitVec 1) (d : BitVec 6) (a : BitVec 6) (i : BitVec 10)
  /-- R98: Ors with a sign-extended immediate. -/
  | ori (k : BitVec 3) (g : BitVec 1) (d : BitVec 6) (a : BitVec 6) (i : BitVec 10)
  /-- R98: Exclusive-ors with a sign-extended immediate. -/
  | xori (k : BitVec 3) (g : BitVec 1) (d : BitVec 6) (a : BitVec 6) (i : BitVec 10)
  /-- R98: Ands with the complement of a sign-extended immediate. -/
  | andni (k : BitVec 3) (g : BitVec 1) (d : BitVec 6) (a : BitVec 6) (i : BitVec 10)
  /-- R98: Shifts left by an immediate count 0-63. -/
  | shli (k : BitVec 3) (g : BitVec 1) (d : BitVec 6) (a : BitVec 6) (i : BitVec 6)
  /-- R98: Arithmetic shift right by an immediate. -/
  | shriS (k : BitVec 3) (g : BitVec 1) (d : BitVec 6) (a : BitVec 6) (i : BitVec 6)
  /-- R98: Logical shift right by an immediate. -/
  | shriZ (k : BitVec 3) (g : BitVec 1) (d : BitVec 6) (a : BitVec 6) (i : BitVec 6)
  /-- R98: Places a 16-bit immediate in bits 25:10 and sign-extends. -/
  | lui (k : BitVec 3) (g : BitVec 1) (d : BitVec 6) (i : BitVec 16)
  /-- R104: Scalar FP32 addition rounded under EFR.RM. -/
  | fadd (k : BitVec 3) (g : BitVec 1) (d : BitVec 6) (a : BitVec 6) (b : BitVec 6)
  /-- R104: Scalar FP32 subtraction. -/
  | fsub (k : BitVec 3) (g : BitVec 1) (d : BitVec 6) (a : BitVec 6) (b : BitVec 6)
  /-- R104: Scalar FP32 multiplication. -/
  | fmul (k : BitVec 3) (g : BitVec 1) (d : BitVec 6) (a : BitVec 6) (b : BitVec 6)
  /-- R104: Scalar FP32 fused multiply-add with the destination as addend. -/
  | fma (k : BitVec 3) (g : BitVec 1) (d : BitVec 6) (a : BitVec 6) (b : BitVec 6)
  /-- R106: Compares two FP32 values into a predicate. -/
  | fcmp (k : BitVec 3) (g : BitVec 1) (p : BitVec 3) (a : BitVec 6) (b : BitVec 6) (c : BitVec 4)
  /-- R107: Converts FP32 to a signed 64-bit integer. -/
  | fcvtF2iS (k : BitVec 3) (g : BitVec 1) (d : BitVec 6) (a : BitVec 6)
  /-- R107: Converts FP32 to an unsigned 64-bit integer. -/
  | fcvtF2iZ (k : BitVec 3) (g : BitVec 1) (d : BitVec 6) (a : BitVec 6)
  /-- R107: Converts a signed integer to FP32. -/
  | fcvtI2fS (k : BitVec 3) (g : BitVec 1) (d : BitVec 6) (a : BitVec 6)
  /-- R107: Converts an unsigned integer to FP32. -/
  | fcvtI2fZ (k : BitVec 3) (g : BitVec 1) (d : BitVec 6) (a : BitVec 6)
  /-- R107: Converts FP32 to FP16. -/
  | fcvtF2h (k : BitVec 3) (g : BitVec 1) (d : BitVec 6) (a : BitVec 6)
  /-- R107: Converts FP16 to FP32 exactly. -/
  | fcvtH2f (k : BitVec 3) (g : BitVec 1) (d : BitVec 6) (a : BitVec 6)
  /-- R107: Converts FP32 to BF16. -/
  | fcvtF2b (k : BitVec 3) (g : BitVec 1) (d : BitVec 6) (a : BitVec 6)
  /-- R107: Converts BF16 to FP32 exactly. -/
  | fcvtB2f (k : BitVec 3) (g : BitVec 1) (d : BitVec 6) (a : BitVec 6)
  /-- R108: Reads one URS element through a shared port into a scalar register. -/
  | sGet (k : BitVec 3) (g : BitVec 1) (d : BitVec 6) (n : BitVec 6) (b : BitVec 6) (p : BitVec 2) (w : BitVec 2)
  /-- R109: Writes one scalar element into a URS entry at bundle completion. -/
  | sPut (k : BitVec 3) (g : BitVec 1) (d : BitVec 6) (n : BitVec 6) (b : BitVec 6) (w : BitVec 2)
  -- The A slots (03 R78).
  /-- R110: Copies an address register. -/
  | amov (d : BitVec 5) (a : BitVec 5)
  /-- R110: Sets an address register from a scalar register. -/
  | aset (d : BitVec 5) (s : BitVec 6)
  /-- R110: Copies an address register into a scalar register. -/
  | aget (s : BitVec 6) (a : BitVec 5)
  /-- R110: Adds two address registers. -/
  | aadd (d : BitVec 5) (a : BitVec 5) (b : BitVec 5)
  /-- R110: Adds a signed 16-bit immediate to an address register. -/
  | aaddi (d : BitVec 5) (a : BitVec 5) (i : BitVec 16)
  /-- R111: Writes one field of a modifier descriptor from a scalar register. -/
  | mset (m : BitVec 4) (f : BitVec 2) (s : BitVec 6)
  /-- R113: Applies the modifier update of a descriptor to an address register. -/
  | astep (d : BitVec 5) (m : BitVec 4)
  /-- R114: Compares two address registers unsigned into a predicate. -/
  | acmp (c : BitVec 3) (p : BitVec 3) (a : BitVec 5) (b : BitVec 5)
  -- The L slot (03 R79).
  /-- R178: Loads a byte sign-extended into a scalar register. -/
  | ldBS (k : BitVec 3) (g : BitVec 1) (s : BitVec 6) (a : BitVec 5) (p : BitVec 1) (m : BitVec 4) (o : BitVec 6)
  /-- R178: Loads a byte zero-extended. -/
  | ldBZ (k : BitVec 3) (g : BitVec 1) (s : BitVec 6) (a : BitVec 5) (p : BitVec 1) (m : BitVec 4) (o : BitVec 6)
  /-- R178: Loads a halfword sign-extended. -/
  | ldHS (k : BitVec 3) (g : BitVec 1) (s : BitVec 6) (a : BitVec 5) (p : BitVec 1) (m : BitVec 4) (o : BitVec 6)
  /-- R178: Loads a halfword zero-extended. -/
  | ldHZ (k : BitVec 3) (g : BitVec 1) (s : BitVec 6) (a : BitVec 5) (p : BitVec 1) (m : BitVec 4) (o : BitVec 6)
  /-- R178: Loads a word sign-extended. -/
  | ldWS (k : BitVec 3) (g : BitVec 1) (s : BitVec 6) (a : BitVec 5) (p : BitVec 1) (m : BitVec 4) (o : BitVec 6)
  /-- R178: Loads a word zero-extended. -/
  | ldWZ (k : BitVec 3) (g : BitVec 1) (s : BitVec 6) (a : BitVec 5) (p : BitVec 1) (m : BitVec 4) (o : BitVec 6)
  /-- R178: Loads a doubleword. -/
  | ldD (k : BitVec 3) (g : BitVec 1) (s : BitVec 6) (a : BitVec 5) (p : BitVec 1) (m : BitVec 4) (o : BitVec 6)
  /-- R178: Stores the low byte of a scalar register. -/
  | stB (k : BitVec 3) (g : BitVec 1) (s : BitVec 6) (a : BitVec 5) (p : BitVec 1) (m : BitVec 4) (o : BitVec 6)
  /-- R178: Stores the low halfword. -/
  | stH (k : BitVec 3) (g : BitVec 1) (s : BitVec 6) (a : BitVec 5) (p : BitVec 1) (m : BitVec 4) (o : BitVec 6)
  /-- R178: Stores the low word. -/
  | stW (k : BitVec 3) (g : BitVec 1) (s : BitVec 6) (a : BitVec 5) (p : BitVec 1) (m : BitVec 4) (o : BitVec 6)
  /-- R178: Stores the doubleword. -/
  | stD (k : BitVec 3) (g : BitVec 1) (s : BitVec 6) (a : BitVec 5) (p : BitVec 1) (m : BitVec 4) (o : BitVec 6)
  /-- R179: Loads 1024 bytes of memory into a URS operand. -/
  | ldV (k : BitVec 3) (g : BitVec 1) (n : BitVec 6) (a : BitVec 5) (p : BitVec 1) (m : BitVec 4) (o : BitVec 4)
  /-- R179: Stores a 1024-byte URS operand read through a port. -/
  | stV (k : BitVec 3) (g : BitVec 1) (n : BitVec 6) (a : BitVec 5) (p : BitVec 1) (m : BitVec 4) (t : BitVec 2) (o : BitVec 4)
  /-- R179: Loads one 64-byte block into the URS as a single-copy atomic access. -/
  | ldBlk (k : BitVec 3) (g : BitVec 1) (n : BitVec 6) (a : BitVec 5) (p : BitVec 1) (m : BitVec 4) (o : BitVec 4)
  /-- R179: Stores 64 URS bytes as one block. -/
  | stBlk (k : BitVec 3) (g : BitVec 1) (n : BitVec 6) (a : BitVec 5) (p : BitVec 1) (m : BitVec 4) (t : BitVec 2) (o : BitVec 4)
  /-- R180: Asks the data cache to fill the line holding the address; faults are dropped. -/
  | pf (k : BitVec 3) (g : BitVec 1) (a : BitVec 5) (p : BitVec 1) (m : BitVec 4) (o : BitVec 6)
  /-- R181: Atomic read-modify-write of a word or doubleword returning the old value. -/
  | atom (k : BitVec 3) (g : BitVec 1) (d : BitVec 6) (a : BitVec 5) (b : BitVec 6) (z : BitVec 1) (o : BitVec 4)
  /-- R357: Reads a whole tensor row atomically, decaying stamped blocks and counting stale rows. -/
  | ldRow (k : BitVec 3) (g : BitVec 1) (n : BitVec 6) (a : BitVec 5) (p : BitVec 1) (m : BitVec 4) (h : BitVec 4)
  /-- R355: Reads a stamped block with the freewheel read at the strand's view. -/
  | ldFw (k : BitVec 3) (g : BitVec 1) (n : BitVec 6) (a : BitVec 5) (p : BitVec 1) (m : BitVec 4) (o : BitVec 4)
  /-- R356: Stores a stamped block, decayed to the view, replacing the stored block. -/
  | stFw (k : BitVec 3) (g : BitVec 1) (n : BitVec 6) (a : BitVec 5) (p : BitVec 1) (m : BitVec 4) (t : BitVec 2) (o : BitVec 4)
  -- The V slot (03 R80, R81).
  /-- R153: Lane-wise FP32 addition. -/
  | vaddF (k : BitVec 3) (g : BitVec 1) (d : BitVec 6) (a : BitVec 6) (x : BitVec 2) (b : BitVec 6) (y : BitVec 2)
  /-- R153: Lane-wise FP32 subtraction. -/
  | vsubF (k : BitVec 3) (g : BitVec 1) (d : BitVec 6) (a : BitVec 6) (x : BitVec 2) (b : BitVec 6) (y : BitVec 2)
  /-- R153: Lane-wise FP32 multiplication. -/
  | vmulF (k : BitVec 3) (g : BitVec 1) (d : BitVec 6) (a : BitVec 6) (x : BitVec 2) (b : BitVec 6) (y : BitVec 2)
  /-- R154: Lane-wise fused multiply-add reading the destination through the third port. -/
  | vfmaF (k : BitVec 3) (g : BitVec 1) (d : BitVec 6) (a : BitVec 6) (x : BitVec 2) (b : BitVec 6) (y : BitVec 2)
  /-- R153: Lane-wise FP32 minimum. -/
  | vminF (k : BitVec 3) (g : BitVec 1) (d : BitVec 6) (a : BitVec 6) (x : BitVec 2) (b : BitVec 6) (y : BitVec 2)
  /-- R153: Lane-wise FP32 maximum. -/
  | vmaxF (k : BitVec 3) (g : BitVec 1) (d : BitVec 6) (a : BitVec 6) (x : BitVec 2) (b : BitVec 6) (y : BitVec 2)
  /-- R153: Lane-wise absolute value. -/
  | vabsF (k : BitVec 3) (g : BitVec 1) (d : BitVec 6) (a : BitVec 6) (x : BitVec 2)
  /-- R153: Lane-wise negation. -/
  | vnegF (k : BitVec 3) (g : BitVec 1) (d : BitVec 6) (a : BitVec 6) (x : BitVec 2)
  /-- R155: Lane-wise reciprocal, rounded once. -/
  | vrcp (k : BitVec 3) (g : BitVec 1) (d : BitVec 6) (a : BitVec 6) (x : BitVec 2)
  /-- R155: Lane-wise reciprocal square root. -/
  | vrsq (k : BitVec 3) (g : BitVec 1) (d : BitVec 6) (a : BitVec 6) (x : BitVec 2)
  /-- R155: Lane-wise power of two. -/
  | vexp2 (k : BitVec 3) (g : BitVec 1) (d : BitVec 6) (a : BitVec 6) (x : BitVec 2)
  /-- R155: Lane-wise base-2 logarithm. -/
  | vlog2 (k : BitVec 3) (g : BitVec 1) (d : BitVec 6) (a : BitVec 6) (x : BitVec 2)
  /-- R156: Lane-wise 32-bit integer addition. -/
  | vaddI (k : BitVec 3) (g : BitVec 1) (d : BitVec 6) (a : BitVec 6) (x : BitVec 2) (b : BitVec 6) (y : BitVec 2)
  /-- R156: Lane-wise integer subtraction. -/
  | vsubI (k : BitVec 3) (g : BitVec 1) (d : BitVec 6) (a : BitVec 6) (x : BitVec 2) (b : BitVec 6) (y : BitVec 2)
  /-- R156: Lane-wise low 32 bits of the integer product. -/
  | vmulI (k : BitVec 3) (g : BitVec 1) (d : BitVec 6) (a : BitVec 6) (x : BitVec 2) (b : BitVec 6) (y : BitVec 2)
  /-- R156: Lane-wise signed minimum. -/
  | vminI (k : BitVec 3) (g : BitVec 1) (d : BitVec 6) (a : BitVec 6) (x : BitVec 2) (b : BitVec 6) (y : BitVec 2)
  /-- R156: Lane-wise signed maximum. -/
  | vmaxI (k : BitVec 3) (g : BitVec 1) (d : BitVec 6) (a : BitVec 6) (x : BitVec 2) (b : BitVec 6) (y : BitVec 2)
  /-- R156: Lane-wise bitwise and. -/
  | vand (k : BitVec 3) (g : BitVec 1) (d : BitVec 6) (a : BitVec 6) (x : BitVec 2) (b : BitVec 6) (y : BitVec 2)
  /-- R156: Lane-wise bitwise or. -/
  | vor (k : BitVec 3) (g : BitVec 1) (d : BitVec 6) (a : BitVec 6) (x : BitVec 2) (b : BitVec 6) (y : BitVec 2)
  /-- R156: Lane-wise bitwise exclusive or. -/
  | vxor (k : BitVec 3) (g : BitVec 1) (d : BitVec 6) (a : BitVec 6) (x : BitVec 2) (b : BitVec 6) (y : BitVec 2)
  /-- R156: Lane-wise shift left. -/
  | vshl (k : BitVec 3) (g : BitVec 1) (d : BitVec 6) (a : BitVec 6) (x : BitVec 2) (b : BitVec 6) (y : BitVec 2)
  /-- R156: Lane-wise arithmetic shift right. -/
  | vshrS (k : BitVec 3) (g : BitVec 1) (d : BitVec 6) (a : BitVec 6) (x : BitVec 2) (b : BitVec 6) (y : BitVec 2)
  /-- R156: Lane-wise logical shift right. -/
  | vshrZ (k : BitVec 3) (g : BitVec 1) (d : BitVec 6) (a : BitVec 6) (x : BitVec 2) (b : BitVec 6) (y : BitVec 2)
  /-- R157: Lane-wise floating comparison into a mask. -/
  | vcmpF (k : BitVec 3) (g : BitVec 1) (c : BitVec 3) (q : BitVec 3) (a : BitVec 6) (x : BitVec 2) (b : BitVec 6) (y : BitVec 2)
  /-- R157: Lane-wise signed integer comparison into a mask. -/
  | vcmpI (k : BitVec 3) (g : BitVec 1) (c : BitVec 3) (q : BitVec 3) (a : BitVec 6) (x : BitVec 2) (b : BitVec 6) (y : BitVec 2)
  /-- R158: Selects lanes of A or B by the guard's mask. -/
  | vsel (k : BitVec 3) (g : BitVec 1) (d : BitVec 6) (a : BitVec 6) (x : BitVec 2) (b : BitVec 6) (y : BitVec 2)
  /-- R159: Converts 256 elements between the dense formats of the two views. -/
  | vcvt (k : BitVec 3) (g : BitVec 1) (d : BitVec 6) (a : BitVec 6) (x : BitVec 2)
  /-- R160: Encodes 256 FP32 lanes into described blocks. -/
  | vpack (k : BitVec 3) (g : BitVec 1) (d : BitVec 6) (a : BitVec 6) (x : BitVec 2)
  /-- R162: Decodes a run of described blocks into FP32 lanes. -/
  | vunpack (k : BitVec 3) (g : BitVec 1) (d : BitVec 6) (a : BitVec 6) (x : BitVec 2)
  /-- R163: Reduces 256 lanes by a fixed pairwise tree into bytes 0-3 of D. -/
  | vsum (k : BitVec 3) (g : BitVec 1) (d : BitVec 6) (a : BitVec 6) (x : BitVec 2)
  /-- R163: Tree-sums the exact lane products of A and B. -/
  | vdot (k : BitVec 3) (g : BitVec 1) (d : BitVec 6) (a : BitVec 6) (x : BitVec 2) (b : BitVec 6) (y : BitVec 2)
  /-- R164: Permutes lanes of A by the indices in B. -/
  | vperm (k : BitVec 3) (g : BitVec 1) (d : BitVec 6) (a : BitVec 6) (x : BitVec 2) (b : BitVec 6) (y : BitVec 2)
  /-- R164: Broadcasts the low 32 bits of a scalar register to every active lane. -/
  | vbcast (k : BitVec 3) (g : BitVec 1) (d : BitVec 6) (s : BitVec 6)
  /-- R164: Copies lanes of A. -/
  | vmov (k : BitVec 3) (g : BitVec 1) (d : BitVec 6) (a : BitVec 6) (x : BitVec 2)
  /-- R165: Loads 1024 bytes of vault memory into D, scoreboarded. -/
  | vld (k : BitVec 3) (g : BitVec 1) (d : BitVec 6) (a : BitVec 5) (p : BitVec 1) (m : BitVec 4)
  /-- R168: Sets the lane LFSR seeds from A. -/
  | vseedSet (k : BitVec 3) (g : BitVec 1) (a : BitVec 6) (x : BitVec 2)
  /-- R168: Reads the lane LFSR seeds into D. -/
  | vseedGet (k : BitVec 3) (g : BitVec 1) (d : BitVec 6)
  /-- R359: Decays every stamped block of a freewheel image to the strand's view. -/
  | vdecay (k : BitVec 3) (g : BitVec 1) (d : BitVec 6) (a : BitVec 6) (x : BitVec 2)
  /-- R360: Merges the exact lane products of A and B into the stamped blocks of D. -/
  | vfwadd (k : BitVec 3) (g : BitVec 1) (d : BitVec 6) (a : BitVec 6) (x : BitVec 2) (b : BitVec 6) (y : BitVec 2)
  -- The X slot (03 R82).
  /-- R219: 64x64x64 matrix product of two tiles into an accumulator. -/
  | mmul (d : BitVec 6) (a : BitVec 6) (b : BitVec 6) (l : BitVec 3)
  /-- R219: Matrix product taking B from the preloaded weights. -/
  | mmulWt (d : BitVec 6) (a : BitVec 6) (l : BitVec 3)
  /-- R219: Matrix product accumulated onto the accumulator input, chained where possible. -/
  | mmula (d : BitVec 6) (a : BitVec 6) (b : BitVec 6) (l : BitVec 3)
  /-- R219: Accumulating matrix product with preloaded weights. -/
  | mmulaWt (d : BitVec 6) (a : BitVec 6) (l : BitVec 3)
  /-- R221: Matrix product of a 2:4 structured sparse A tile with metadata from the literal. -/
  | mmulSp (d : BitVec 6) (a : BitVec 6) (b : BitVec 6) (l : BitVec 3)
  /-- R221: Sparse matrix product with preloaded weights. -/
  | mmulSpWt (d : BitVec 6) (a : BitVec 6) (l : BitVec 3)
  /-- R223: Matrix product with A unfolded from a vault activation tensor by a descriptor. -/
  | mconv (d : BitVec 6) (a : BitVec 6) (b : BitVec 6) (l : BitVec 3)
  /-- R223: Convolution product with preloaded weights. -/
  | mconvWt (d : BitVec 6) (a : BitVec 6) (l : BitVec 3)
  /-- R223: Accumulating convolution product. -/
  | mconva (d : BitVec 6) (a : BitVec 6) (b : BitVec 6) (l : BitVec 3)
  /-- R223: Accumulating convolution product with preloaded weights. -/
  | mconvaWt (d : BitVec 6) (a : BitVec 6) (l : BitVec 3)
  /-- R226: Records a weight reference and starts preloading the tile. -/
  | mwld (b : BitVec 6) (l : BitVec 3)
  /-- R227: Converts an accumulator into a dense tile, optionally clearing it. -/
  | mdrain (d : BitVec 6) (a : BitVec 6) (l : BitVec 3) (z : BitVec 1)
  /-- R228: Writes +0 to every cell of an accumulator. -/
  | mzero (d : BitVec 6) (l : BitVec 3)
  /-- R244: Pivoted LU factorisation of an accumulator tile in place. -/
  | mlu (d : BitVec 6) (l : BitVec 3)
  /-- R246: Cholesky factorisation of the lower triangle in place. -/
  | mchol (d : BitVec 6) (l : BitVec 3)
  /-- R247: Triangular inverse in place. -/
  | mtri (d : BitVec 6) (l : BitVec 3)
  /-- R248: Triangular solve with side, triangle and transpose options. -/
  | mtrs (d : BitVec 6) (a : BitVec 6) (b : BitVec 6) (l : BitVec 3) (f : BitVec 3)
  /-- R249: QR reduction by plane rotations recording the rotations. -/
  | mqr (d : BitVec 6) (b : BitVec 6) (l : BitVec 3)
  /-- R250: Applies recorded rotations to a tile, optionally transposed. -/
  | mqapply (d : BitVec 6) (a : BitVec 6) (l : BitVec 3) (t : BitVec 1)
  /-- R251: Applies the pivot vector, or its inverse, to the rows of a tile. -/
  | mperm (d : BitVec 6) (l : BitVec 3) (i : BitVec 1)
  /-- R252: Resumes the factorisation recorded in FSR from step NEXT. -/
  | mres (d : BitVec 6) (l : BitVec 3)
  -- The E slot (03 R83).
  /-- R206: Copies bytes or a tensor rectangle between endpoints on the copy engine. -/
  | cp (l : BitVec 3) (t : BitVec 6) (d : BitVec 5) (s : BitVec 5) (n : BitVec 6)
  /-- R207: Copies a tensor rectangle transposed. -/
  | cpT (l : BitVec 3) (t : BitVec 6) (d : BitVec 5) (s : BitVec 5) (n : BitVec 6)
  /-- R208: Reads a source into caches as a prefetch, writing no destination. -/
  | cpf (l : BitVec 3) (t : BitVec 6) (s : BitVec 5) (n : BitVec 6)
  /-- R198: Sets EFR, effective three bundles later. -/
  | efrSet (s : BitVec 6)
  /-- R200: Writes a view descriptor at bundle completion and resets its ages. -/
  | vdSet (s : BitVec 6) (k : BitVec 3)
  /-- R201: Sets LDR and RRB of a view and resets its ages. -/
  | rotSet (k : BitVec 3) (l : BitVec 6) (r : BitVec 6)
  /-- R202: Sets the matrix literal pointer. -/
  | mlpSet (a : BitVec 5)
  /-- R312: Launches a sprocket tile walk described by a permit descriptor. -/
  | swPermit (l : BitVec 3) (t : BitVec 6) (a : BitVec 5) (p : BitVec 5)
  /-- R339: Combines a delta row with a tensor row atomically at the near-memory unit. -/
  | nmRadd (l : BitVec 3) (n : BitVec 6) (p : BitVec 2) (a : BitVec 5) (t : BitVec 6) (o : BitVec 2) (f : BitVec 1)
  /-- R361: Freewheel-merges deltas into a stamped row at the near-memory unit. -/
  | nmFwadd (l : BitVec 3) (n : BitVec 6) (p : BitVec 2) (a : BitVec 5) (t : BitVec 6) (f : BitVec 1)
  /-- R340: Reduces 256 lanes into 256 words of a memory-side page. -/
  | nmRed (l : BitVec 3) (n : BitVec 6) (p : BitVec 2) (a : BitVec 5) (t : BitVec 6) (o : BitVec 2)
  /-- R341: Applies one momentum step to a weight row and a momentum row. -/
  | nmOpt (l : BitVec 3) (n : BitVec 6) (p : BitVec 2) (a : BitVec 5) (t : BitVec 6)
  /-- R352: Adds a stamped tensor to the package sweep list. -/
  | nmSweepReg (l : BitVec 3) (a : BitVec 5) (t : BitVec 6)
  /-- R352: Removes a tensor from the sweep list. -/
  | nmSweepUnreg (l : BitVec 3) (a : BitVec 5) (t : BitVec 6)
  /-- R278: Launches registration of a task record. -/
  | tspawn (l : BitVec 3) (t : BitVec 6) (a : BitVec 5)
  /-- R280: Adds a record to the task's join list for decrement at task end. -/
  | tjoin (l : BitVec 3) (a : BitVec 5)
  /-- R350: Advances the global step after row operations perform, running a sweep pass when needed. -/
  | gstepAdv (i : BitVec 12)
  -- The events: steps of the table without a word.
  /-- R117: A bundle slot in issue order passes annulled, occupying one strand cycle. -/
  | annulledBundle (g : Nat)
  /-- R73: The SC idle cycles of a bundle run out and the next bundle may issue. -/
  | stallCountExpiry (g : Nat)
  /-- R118: Slot 7 commits, the buffer is applied and the branch FIFO, annul count and PC are updated. -/
  | bundleComplete (g : Nat)
  /-- R25: A landing-queue entry's count runs out and its write lands. -/
  | landing (g : Nat)
  /-- R74: A delayed X or E command's start delay runs out and it launches. -/
  | engineLaunch (g : Nat)
  /-- R177: Data of a load arrives and is written to its pending destination. -/
  | loadDataArrival (g : Nat) (n : Nat)
  /-- R166: Data of a vld arrives and its destination stops being pending. -/
  | vldDataArrival (g : Nat) (n : Nat)
  /-- R181: The old value of an atomic arrives in its destination register. -/
  | atomicReturn (g : Nat) (n : Nat)
  /-- R259: The condition of a position hold clears and the held bundle issues. -/
  | positionHoldEnd (g : Nat)
  /-- R258: The condition a blocked strand waits on clears and it becomes ready. -/
  | blockClear (g : Nat)
  /-- R261: The core gives issue position to the next ready strand after a switch clock. -/
  | strandSwitch (c : Nat)
  /-- R303: An aborted task is taken down once its launched commands complete, invalidating its write set. -/
  | taskAbort (g : Nat)
  /-- R203: The copy engine starts a queued copy in launch order when capacity allows. -/
  | copyStart (c : Nat)
  /-- R210: A copy finishes and writes its completion word to its token. -/
  | copyCompletion (c : Nat) (n : Nat)
  /-- R230: The array starts the next queued command in launch order. -/
  | matrixCommandStart (c : Nat)
  /-- R230: The array produces a result into a buffer, moving an old result if buffers are full. -/
  | matrixResultProduced (c : Nat)
  /-- R239: A trap-action factorisation command completes and its bundle may complete. -/
  | familyCommandDone (c : Nat)
  /-- R243: A factorisation command meets a breakdown and stops or records it. -/
  | factorisationBreakdown (c : Nat)
  /-- R278: A spawned or launched record is registered, placed and entered in the dependence table. -/
  | taskRegistration (n : Nat)
  /-- R285: A record waiting in the overflow list receives a freed dependence-table entry. -/
  | dependenceEntryGrant (d : Nat)
  /-- R282: The derailleur starts the best eligible task on an idle strand, stealing if none. -/
  | dispatch (u : Nat)
  /-- R296: The flush engine invalidates the task's read regions before its first bundle. -/
  | startOfTaskActions (g : Nat)
  /-- R297: After done, the task settles, writes back and forwards its write set, releases and joins. -/
  | endOfTaskActions (g : Nat)
  /-- R314: A sprocket starts its next permit in arrival order. -/
  | permitStart (d : Nat) (p : Nat)
  /-- R316: A permit finishes its tiles and writes its completion word. -/
  | permitCompletion (d : Nat) (p : Nat)
  /-- R335: A near-memory command arrives at its NMU and is performed in the unit's order. -/
  | nmCommandExecute (c : Nat) (n : Nat)
  /-- R342: A near-memory command writes its completion word after its writes perform. -/
  | nmCommandCompletion (c : Nat) (n : Nat)
  /-- R320: Command-stream NOP. -/
  | streamNop (d : Nat) (n : Nat)
  /-- R320: Registers one record in the stream's partition. -/
  | launch (d : Nat) (n : Nat) (r : BitVec 64)
  /-- R320: Reads a count and launches that many records in order, or halts if above MAX. -/
  | launchn (d : Nat) (n : Nat) (m : BitVec 16) (r : BitVec 64) (a : BitVec 64)
  /-- R320: Repeats the following words a counted number of times. -/
  | streamLoop (d : Nat) (n : Nat) (b : BitVec 16) (i : BitVec 1) (a : BitVec 64)
  /-- R320: Skips the following words when a memory word meets a condition. -/
  | streamSkip (d : Nat) (n : Nat) (c : BitVec 3) (b : BitVec 16) (a : BitVec 64) (v : BitVec 64)
  /-- R320: Re-reads a memory word until a condition holds. -/
  | waitv (d : Nat) (n : Nat) (c : BitVec 3) (a : BitVec 64) (v : BitVec 64)
  /-- R320: The word awaited by WAITV meets its condition and the stream proceeds. -/
  | waitvSatisfied (d : Nat) (n : Nat)
  /-- R320: Waits until no task of the graph is registered and incomplete on the die. -/
  | waitg (d : Nat) (n : Nat) (q : BitVec 32)
  /-- R320: The awaited graph completes or faults, ending the WAITG. -/
  | waitgDone (d : Nat) (n : Nat)
  /-- R320: Stores a value to an 8-aligned address with release semantics. -/
  | streamWrite (d : Nat) (n : Nat) (a : BitVec 64) (v : BitVec 64)
  /-- R320: Decrements a record's join counter from the stream. -/
  | streamJoin (d : Nat) (n : Nat) (r : BitVec 64)
  /-- R321: DISPOSE with M 0 takes down every task of a graph on the die. -/
  | disposeTakedown (d : Nat) (n : Nat) (q : BitVec 32)
  /-- R321: DISPOSE with M 1 releases the entries of the graph's aborted tasks. -/
  | disposeRelease (d : Nat) (n : Nat) (q : BitVec 32)
  /-- R322: A fault record is appended to the die's fault queue when room and a valid queue exist. -/
  | faultRecordAppend (d : Nat)
  /-- R325: The invalidation has dropped translations and flushed lines, and BUSY clears. -/
  | translationInvalidationDone
  /-- R370: A core moves to its next usable cadence row when its row is spent or unusable. -/
  | rowChange (c : Nat)
  /-- R372: After a budget-spending segend the core leaves for another partition's row. -/
  | cadenceSwitch (c : Nat)
  /-- R376: An eligible priority-partition task forces one core of a normal partition to stop. -/
  | priorityPreemption (u : Nat) (p : BitVec 8)
  /-- R373: Stopping strands reach a boundary, commands finish, queues quiesce and images are saved. -/
  | stopSequence (c : Nat)
  /-- R374: A quiesced core exchanges live state with shadow storage, spilling and filling as needed. -/
  | partitionSwap (c : Nat)
  /-- R382: Every agent of the package has halted and FRZ is set. -/
  | freezeComplete
  /-- R396: A replayed task meets the done conditions; counts and hash are stored and the next pass begins. -/
  | replayPassEnd (g : Nat)
  /-- R399: A stack finishes its lane deskew retrain and accepts accesses. -/
  | hbmRetrainDone (k : Nat)
  /-- R419: A port leaves the up state and in-flight requests on it end with path-lost outcomes. -/
  | pathLost (p : Nat)
  /-- R420: A received job card is registered in the window's peer partition. -/
  | jobCardRegister (p : BitVec 8) (a : Nat) (b : List (BitVec 8))
  /-- R421: Tiles of a queued task's remote regions are fetched into its tile cache before it is eligible. -/
  | stagingFetch (u : Nat) (n : Nat)
  /-- R318: A write to CSWR rings the stream's doorbell, or is refused and halts it. -/
  | cswrDoorbell (d : Nat) (n : Nat) (v : BitVec 64)
  /-- R410: A host doorbell write acts as a write to the named stream's CSWR. -/
  | dbell (v : BitVec 64)
  /-- R319: Clearing HALT clears ERR and resumes the stream at CSRD. -/
  | csstHaltClear (d : Nat) (n : Nat)
  /-- R411: Unmasking a vector with its pending bit set sends one message. -/
  | msixUnmask (v : Nat)
  /-- R325: Starts a package-wide translation invalidation for a partition's range. -/
  | tictlGo (p : BitVec 8)
  /-- R331: LRCMD OP 1 binds or rebinds a handle after flushing its tile-cache lines. -/
  | layoutBind (p : BitVec 8) (h : BitVec 24)
  /-- R331: LRCMD OP 2 removes a handle's binding after flushing its lines. -/
  | layoutUnbind (p : BitVec 8) (h : BitVec 24)
  /-- R421: FHCMD OP 1 binds a local handle as a remote handle. -/
  | fabricHandleBind (p : BitVec 8) (h : BitVec 24)
  /-- R421: FHCMD OP 2 unbinds a remote handle. -/
  | fabricHandleUnbind (p : BitVec 8) (h : BitVec 24)
  /-- R343: A register write sets the global step only while gstep.adv is disabled. -/
  | gstepWrite (v : BitVec 64)
  /-- R367: A partition control write that sets or clears EN with its checks. -/
  | pctlWrite (p : BitVec 8) (v : BitVec 64)
  /-- R376: Host request sets HSTOP and runs the stop sequence on the partition's cores. -/
  | ppreStop (p : BitVec 8)
  /-- R376: Host request clears HSTOP so the partition's rows become usable again. -/
  | ppreResume (p : BitVec 8)
  /-- R384: DBGCTL FREEZE freezes the device by host request. -/
  | debugFreeze
  /-- R385: DBGCTL RESUME lets every agent continue from where it halted. -/
  | debugResume
  /-- R386: RESUME with STEP resumes and freezes again after the named strand's next bundle. -/
  | debugStep
  /-- R387: Debug access reads 8 bytes of a frozen strand's state. -/
  | daReadState
  /-- R387: Debug access writes 8 bytes of a frozen strand's state. -/
  | daWriteState
  /-- R387: Debug access reads 8 bytes of a strand's URS. -/
  | daReadUrs
  /-- R387: Debug access writes 8 bytes of a strand's URS. -/
  | daWriteUrs
  /-- R387: Debug access reads 8 bytes of physical memory, optionally flushing first. -/
  | daReadMemory
  /-- R387: Debug access writes 8 bytes of physical memory with write-back and invalidation. -/
  | daWriteMemory
  /-- R388: A trace control write that enables the unit after checking the ring. -/
  | trctlWrite (u : Nat) (v : BitVec 64)
  /-- R390: The sample period expires and a sample record is generated per core. -/
  | traceSample (u : Nat)
  /-- R394: A write that arms a replay slot, with its checks. -/
  | replayArm (d : Nat) (n : Nat) (v : BitVec 64)
  /-- R398: Power-on or fundamental reset returns the package to reset values. -/
  | coldReset
  /-- R400: A keyed RSTCTL write starts a warm reset. -/
  | rstctlWarm (v : BitVec 64)
  /-- R407: Coolant passes its trip point; the governor stops cores and starts a warm reset. -/
  | thermalTrip
  /-- R407: A power cap write, clamped to the fused cap. -/
  | pwrcapWrite (v : BitVec 64)
  /-- R416: The first write after reset sets the package id. -/
  | pkgidWrite (v : BitVec 64)
  /-- R413: A DMA window register write, subject to LOCK and EN checks. -/
  | dmaWindowWrite (w : Nat) (r : BitVec 2) (v : BitVec 64)
  /-- R416: A Valber Link port moves between down, training, attesting, up and refused. -/
  | vlPortStateChange (p : Nat) (t : BitVec 4) (e : BitVec 12)
  /-- R418: A flit arrives, is CRC-checked, buffered or forwarded, and returns allowance. -/
  | flitReceive (p : Nat) (f : List (BitVec 8))
  /-- R408: The function enters D3hot, holding every agent as in a warm reset, or returns to D0. -/
  | pciePowerState (h : BitVec 1)
  /-- R9: A write to a register with no behaviour of its own stores its RW fields. -/
  | registerWrite (d : Nat) (o : Nat) (v : BitVec 64)
  /-- R92: A strand issues a bundle containing a word that decodes to no operation of its slot and raises decode fault 0x03 before any slot commits. -/
  | illegalEncoding (g : Nat) (k : BitVec 3)
  /-- R92: A strand's next bundle address fails translation or execute permission and fault 0x01 is raised with no word decoded. -/
  | bundleFetchFault (g : Nat)
  /-- R407: The power governor starts or stops withholding core clocks as measured package power crosses PWRCAP.CAP, setting or clearing PWRSTAT.THR and sending MSI-X vector 10. -/
  | governorThrottle (c : BitVec 1)
  /-- R398: The Uliquin controller starts a warm reset and RSTSTAT.LAST records 3. -/
  | uliquinWarmReset
  /-- R325: A micro-translation or cluster translation cache drops translations of its own accord and later refills them from the tables as they then stand. -/
  | translationCacheDrop (c : Nat) (n : Nat)
  /-- R270: A stored word in core storage, a vault, a cache or HBM takes a bit error that its check finds correctable or uncorrectable. -/
  | storageError (c : Nat) (e : BitVec 8) (u : BitVec 1) (a : Nat)
  deriving DecidableEq, Repr

/-- The seven kinds of slot (03 R68) and the events, which have no slot. -/
inductive SlotKind where
  | c | s | a | l | v | x | e | event
  deriving DecidableEq, Repr

/-- The slot kind of each step. -/
def Instr.kind : Instr → SlotKind
  | .nop _ => .c
  | .br _ _ _ _ _ => .c
  | .brA _ _ _ _ _ => .c
  | .brZ _ _ _ _ _ => .c
  | .jmp _ _ _ _ => .c
  | .call _ _ _ _ => .c
  | .ret _ _ _ => .c
  | .jr _ _ _ _ => .c
  | .rot _ _ _ => .c
  | .doneTask _ _ _ => .c
  | .trap _ _ _ _ => .c
  | .sys _ _ _ _ => .c
  | .rfe _ _ _ => .c
  | .brk _ _ _ _ => .c
  | .segend _ _ _ _ => .c
  | .mfsr _ _ _ _ _ => .c
  | .mtsr _ _ _ _ _ => .c
  | .isync _ _ _ => .c
  | .yield _ _ _ => .c
  | .fence _ _ _ _ _ => .c
  | .drain _ _ _ _ => .c
  | .add _ _ _ _ _ => .s
  | .sub _ _ _ _ _ => .s
  | .and _ _ _ _ _ => .s
  | .or _ _ _ _ _ => .s
  | .xor _ _ _ _ _ => .s
  | .andn _ _ _ _ _ => .s
  | .shl _ _ _ _ _ => .s
  | .shrS _ _ _ _ _ => .s
  | .shrZ _ _ _ _ _ => .s
  | .rotr _ _ _ _ _ => .s
  | .minS _ _ _ _ _ => .s
  | .minZ _ _ _ _ _ => .s
  | .maxS _ _ _ _ _ => .s
  | .maxZ _ _ _ _ _ => .s
  | .mul _ _ _ _ _ => .s
  | .mulhS _ _ _ _ _ => .s
  | .mulhZ _ _ _ _ _ => .s
  | .divS _ _ _ _ _ => .s
  | .divZ _ _ _ _ _ => .s
  | .remS _ _ _ _ _ => .s
  | .remZ _ _ _ _ _ => .s
  | .clz _ _ _ _ => .s
  | .ctz _ _ _ _ => .s
  | .popc _ _ _ _ => .s
  | .sextB _ _ _ _ => .s
  | .sextH _ _ _ _ => .s
  | .sextW _ _ _ _ => .s
  | .zextB _ _ _ _ => .s
  | .zextH _ _ _ _ => .s
  | .zextW _ _ _ _ => .s
  | .cmp _ _ _ _ _ _ => .s
  | .cmpi _ _ _ _ _ _ => .s
  | .sel _ _ _ _ _ _ => .s
  | .pand _ _ _ _ _ => .s
  | .por _ _ _ _ _ => .s
  | .pxor _ _ _ _ _ => .s
  | .pnot _ _ _ _ => .s
  | .pmov _ _ _ _ => .s
  | .addi _ _ _ _ _ => .s
  | .andi _ _ _ _ _ => .s
  | .ori _ _ _ _ _ => .s
  | .xori _ _ _ _ _ => .s
  | .andni _ _ _ _ _ => .s
  | .shli _ _ _ _ _ => .s
  | .shriS _ _ _ _ _ => .s
  | .shriZ _ _ _ _ _ => .s
  | .lui _ _ _ _ => .s
  | .fadd _ _ _ _ _ => .s
  | .fsub _ _ _ _ _ => .s
  | .fmul _ _ _ _ _ => .s
  | .fma _ _ _ _ _ => .s
  | .fcmp _ _ _ _ _ _ => .s
  | .fcvtF2iS _ _ _ _ => .s
  | .fcvtF2iZ _ _ _ _ => .s
  | .fcvtI2fS _ _ _ _ => .s
  | .fcvtI2fZ _ _ _ _ => .s
  | .fcvtF2h _ _ _ _ => .s
  | .fcvtH2f _ _ _ _ => .s
  | .fcvtF2b _ _ _ _ => .s
  | .fcvtB2f _ _ _ _ => .s
  | .sGet _ _ _ _ _ _ _ => .s
  | .sPut _ _ _ _ _ _ => .s
  | .amov _ _ => .a
  | .aset _ _ => .a
  | .aget _ _ => .a
  | .aadd _ _ _ => .a
  | .aaddi _ _ _ => .a
  | .mset _ _ _ => .a
  | .astep _ _ => .a
  | .acmp _ _ _ _ => .a
  | .ldBS _ _ _ _ _ _ _ => .l
  | .ldBZ _ _ _ _ _ _ _ => .l
  | .ldHS _ _ _ _ _ _ _ => .l
  | .ldHZ _ _ _ _ _ _ _ => .l
  | .ldWS _ _ _ _ _ _ _ => .l
  | .ldWZ _ _ _ _ _ _ _ => .l
  | .ldD _ _ _ _ _ _ _ => .l
  | .stB _ _ _ _ _ _ _ => .l
  | .stH _ _ _ _ _ _ _ => .l
  | .stW _ _ _ _ _ _ _ => .l
  | .stD _ _ _ _ _ _ _ => .l
  | .ldV _ _ _ _ _ _ _ => .l
  | .stV _ _ _ _ _ _ _ _ => .l
  | .ldBlk _ _ _ _ _ _ _ => .l
  | .stBlk _ _ _ _ _ _ _ _ => .l
  | .pf _ _ _ _ _ _ => .l
  | .atom _ _ _ _ _ _ _ => .l
  | .ldRow _ _ _ _ _ _ _ => .l
  | .ldFw _ _ _ _ _ _ _ => .l
  | .stFw _ _ _ _ _ _ _ _ => .l
  | .vaddF _ _ _ _ _ _ _ => .v
  | .vsubF _ _ _ _ _ _ _ => .v
  | .vmulF _ _ _ _ _ _ _ => .v
  | .vfmaF _ _ _ _ _ _ _ => .v
  | .vminF _ _ _ _ _ _ _ => .v
  | .vmaxF _ _ _ _ _ _ _ => .v
  | .vabsF _ _ _ _ _ => .v
  | .vnegF _ _ _ _ _ => .v
  | .vrcp _ _ _ _ _ => .v
  | .vrsq _ _ _ _ _ => .v
  | .vexp2 _ _ _ _ _ => .v
  | .vlog2 _ _ _ _ _ => .v
  | .vaddI _ _ _ _ _ _ _ => .v
  | .vsubI _ _ _ _ _ _ _ => .v
  | .vmulI _ _ _ _ _ _ _ => .v
  | .vminI _ _ _ _ _ _ _ => .v
  | .vmaxI _ _ _ _ _ _ _ => .v
  | .vand _ _ _ _ _ _ _ => .v
  | .vor _ _ _ _ _ _ _ => .v
  | .vxor _ _ _ _ _ _ _ => .v
  | .vshl _ _ _ _ _ _ _ => .v
  | .vshrS _ _ _ _ _ _ _ => .v
  | .vshrZ _ _ _ _ _ _ _ => .v
  | .vcmpF _ _ _ _ _ _ _ _ => .v
  | .vcmpI _ _ _ _ _ _ _ _ => .v
  | .vsel _ _ _ _ _ _ _ => .v
  | .vcvt _ _ _ _ _ => .v
  | .vpack _ _ _ _ _ => .v
  | .vunpack _ _ _ _ _ => .v
  | .vsum _ _ _ _ _ => .v
  | .vdot _ _ _ _ _ _ _ => .v
  | .vperm _ _ _ _ _ _ _ => .v
  | .vbcast _ _ _ _ => .v
  | .vmov _ _ _ _ _ => .v
  | .vld _ _ _ _ _ _ => .v
  | .vseedSet _ _ _ _ => .v
  | .vseedGet _ _ _ => .v
  | .vdecay _ _ _ _ _ => .v
  | .vfwadd _ _ _ _ _ _ _ => .v
  | .mmul _ _ _ _ => .x
  | .mmulWt _ _ _ => .x
  | .mmula _ _ _ _ => .x
  | .mmulaWt _ _ _ => .x
  | .mmulSp _ _ _ _ => .x
  | .mmulSpWt _ _ _ => .x
  | .mconv _ _ _ _ => .x
  | .mconvWt _ _ _ => .x
  | .mconva _ _ _ _ => .x
  | .mconvaWt _ _ _ => .x
  | .mwld _ _ => .x
  | .mdrain _ _ _ _ => .x
  | .mzero _ _ => .x
  | .mlu _ _ => .x
  | .mchol _ _ => .x
  | .mtri _ _ => .x
  | .mtrs _ _ _ _ _ => .x
  | .mqr _ _ _ => .x
  | .mqapply _ _ _ _ => .x
  | .mperm _ _ _ => .x
  | .mres _ _ => .x
  | .cp _ _ _ _ _ => .e
  | .cpT _ _ _ _ _ => .e
  | .cpf _ _ _ _ => .e
  | .efrSet _ => .e
  | .vdSet _ _ => .e
  | .rotSet _ _ _ => .e
  | .mlpSet _ => .e
  | .swPermit _ _ _ _ => .e
  | .nmRadd _ _ _ _ _ _ _ => .e
  | .nmFwadd _ _ _ _ _ _ => .e
  | .nmRed _ _ _ _ _ _ => .e
  | .nmOpt _ _ _ _ _ => .e
  | .nmSweepReg _ _ _ => .e
  | .nmSweepUnreg _ _ _ => .e
  | .tspawn _ _ _ => .e
  | .tjoin _ _ => .e
  | .gstepAdv _ => .e
  | .annulledBundle _ => .event
  | .stallCountExpiry _ => .event
  | .bundleComplete _ => .event
  | .landing _ => .event
  | .engineLaunch _ => .event
  | .loadDataArrival _ _ => .event
  | .vldDataArrival _ _ => .event
  | .atomicReturn _ _ => .event
  | .positionHoldEnd _ => .event
  | .blockClear _ => .event
  | .strandSwitch _ => .event
  | .taskAbort _ => .event
  | .copyStart _ => .event
  | .copyCompletion _ _ => .event
  | .matrixCommandStart _ => .event
  | .matrixResultProduced _ => .event
  | .familyCommandDone _ => .event
  | .factorisationBreakdown _ => .event
  | .taskRegistration _ => .event
  | .dependenceEntryGrant _ => .event
  | .dispatch _ => .event
  | .startOfTaskActions _ => .event
  | .endOfTaskActions _ => .event
  | .permitStart _ _ => .event
  | .permitCompletion _ _ => .event
  | .nmCommandExecute _ _ => .event
  | .nmCommandCompletion _ _ => .event
  | .streamNop _ _ => .event
  | .launch _ _ _ => .event
  | .launchn _ _ _ _ _ => .event
  | .streamLoop _ _ _ _ _ => .event
  | .streamSkip _ _ _ _ _ _ => .event
  | .waitv _ _ _ _ _ => .event
  | .waitvSatisfied _ _ => .event
  | .waitg _ _ _ => .event
  | .waitgDone _ _ => .event
  | .streamWrite _ _ _ _ => .event
  | .streamJoin _ _ _ => .event
  | .disposeTakedown _ _ _ => .event
  | .disposeRelease _ _ _ => .event
  | .cswrDoorbell _ _ _ => .event
  | .dbell _ => .event
  | .csstHaltClear _ _ => .event
  | .faultRecordAppend _ => .event
  | .msixUnmask _ => .event
  | .tictlGo _ => .event
  | .translationInvalidationDone => .event
  | .layoutBind _ _ => .event
  | .layoutUnbind _ _ => .event
  | .fabricHandleBind _ _ => .event
  | .fabricHandleUnbind _ _ => .event
  | .gstepWrite _ => .event
  | .pctlWrite _ _ => .event
  | .ppreStop _ => .event
  | .ppreResume _ => .event
  | .rowChange _ => .event
  | .cadenceSwitch _ => .event
  | .priorityPreemption _ _ => .event
  | .stopSequence _ => .event
  | .partitionSwap _ => .event
  | .debugFreeze => .event
  | .freezeComplete => .event
  | .debugResume => .event
  | .debugStep => .event
  | .daReadState => .event
  | .daWriteState => .event
  | .daReadUrs => .event
  | .daWriteUrs => .event
  | .daReadMemory => .event
  | .daWriteMemory => .event
  | .trctlWrite _ _ => .event
  | .traceSample _ => .event
  | .replayArm _ _ _ => .event
  | .replayPassEnd _ => .event
  | .coldReset => .event
  | .rstctlWarm _ => .event
  | .hbmRetrainDone _ => .event
  | .thermalTrip => .event
  | .pwrcapWrite _ => .event
  | .pkgidWrite _ => .event
  | .dmaWindowWrite _ _ _ => .event
  | .vlPortStateChange _ _ _ => .event
  | .flitReceive _ _ => .event
  | .pathLost _ => .event
  | .jobCardRegister _ _ _ => .event
  | .stagingFetch _ _ => .event
  | .pciePowerState _ => .event
  | .registerWrite _ _ _ => .event
  | .illegalEncoding _ _ => .event
  | .bundleFetchFault _ => .event
  | .governorThrottle _ => .event
  | .uliquinWarmReset => .event
  | .translationCacheDrop _ _ => .event
  | .storageError _ _ _ _ => .event

end Sys2Proof
end

