-- ==== Sys2Proof/Machine/State.lean ====
section
/-! DEFINITION. The state of one Krythus K9 package: everything the manual gives it, as plain data. Tables of strands,
cores, clusters, dies and registers are sparse: an absent entry reads as its reset value. -/

namespace Sys2Proof.Machine

/-- Why the machine stops with a fault. -/
inductive Fault where
  /-- No step of this model ends so: every cause the manual names is taken as a trap, an abort or a report (06 R140);
  the constructor keeps the type inhabited. Safe. -/
  | none
  deriving DecidableEq, Repr

/-- Why the model refuses a step. -/
inductive Refusal where
  /-- The dispatch raises it for an instruction that has no meaning in the model. Safe. -/
  | notModelled (mnemonic : String)
  deriving DecidableEq, Repr

/-- A thing a slot operation reads or writes (03 R86): registers, a field of a modifier descriptor, bytes of the URS
resolved at issue, EFR, a view descriptor, a system register, the lane seeds. -/
inductive Dst where
  | s (n : Nat) | a (n : Nat) | m (n f : Nat) | p (n : Nat) | q (n : Nat)
  | urs (addr len : Nat)
  | efr
  | vd (n : Nat)
  | sr (n : Nat)
  | seeds
  deriving DecidableEq, Repr

/-- How the bytes of a piece of memory are reached (08 R170, R172, 16 R324, R326): own vault, lateral vault, a linear
page through the data cache, a memory-side page, a window of the host or of a peer. -/
inductive PCls where
  | own | lateral | cached | ms | window
  deriving DecidableEq, Repr

/-- A run of bytes with one translation: the address as given, the memory key and the length. -/
structure Piece where
  va : Nat
  key : Nat
  len : Nat
  cls : PCls
  deriving DecidableEq, Repr

/-- The read-modify-write of an atomic (08 R181): operation code, size in bytes, operands, and the pending return. -/
structure AtomOp where
  op : Nat
  size : Nat
  y : Nat
  c : Nat
  pend : Option Nat
  deriving DecidableEq, Repr

/-- A store or atomic of a bundle (08 R178, R179, R181). -/
structure MemOp where
  pcs : List Piece
  bytes : List Byte
  atom : Option AtomOp
  deriving DecidableEq, Repr

/-- An effect of a slot, held until its bundle completes or its landing count runs out (06 R133, 01 R27). In `urs` an
element is the bits written and the value; `none` is a byte whose write was cancelled (03 R87). -/
inductive Eff where
  | sreg (n : Nat) (v : W64)
  | areg (n : Nat) (v : W64)
  | mfld (n f : Nat) (v : W64)
  | preg (n : Nat) (v : Bool)
  | qreg (n : Nat) (act v : Mask)
  | urs (a : Nat) (bs : List (Option (Byte × Byte)))
  | sys (r : Nat) (v : W64)
  | efr (v : W64)
  | vd (i : Nat) (v : W64)
  | rotSet (i ldr rrb : Nat)
  | rotate
  | mlp (v : W64)
  | svr (v : W64)
  | seeds (l : List (Nat × W32))
  | mem (o : MemOp)
  /-- A weight reference (10 R226): URS byte and format. -/
  | wref (a fmt : Nat)
  /-- An uncorrectable error recorded against a destination (10 R225). -/
  | err (d : Dst) (va : Nat)
  deriving DecidableEq, Repr

/-- An endpoint of a copy (09 R204). -/
inductive Endp where
  | mem (va : Nat) (pcs : List Piece)
  | urs (off : Nat)
  | tens (handle row0 col0 : Nat)
  | none
  deriving DecidableEq, Repr

/-- A copy command (09 R203-R210): `op` 0 `cp`, 1 `cp.t`, 2 `cpf`; `started` once the engine moves its data. -/
structure CopyCmd where
  id : Nat
  strand : Nat
  op : Nat
  tok : Nat
  dst : Endp
  src : Endp
  len : Nat
  fc : Nat
  rows : Nat
  cols : Nat
  i2 : Nat
  i3 : Nat
  started : Bool
  data : List Byte
  word : W64
  deriving DecidableEq, Repr

/-- A matrix command (10 R230, 11 R238): the operation, its parameters and the operand bytes captured at issue. `lat`
is the latency of its pending result; `none` for a family command under the trap action and for `mwld`. -/
structure XCmd where
  id : Nat
  strand : Nat
  addr : Nat
  op : Nat
  par : List Nat
  data : List (List Byte)
  efr : Nat
  fxd : Bool
  lat : Option Nat
  dst : List Dst
  started : Bool
  /-- Writes of copies into the operands of a family command in flight (11 R255): address, length, first free value. -/
  taint : List (Nat × Nat × Nat) := []
  /-- The class of the array's clocks while it holds the command (10 R233). -/
  cls : Nat := 0
  /-- A WB = 1 command whose weight reference stood at its issue: the array loads no weights for it (10 R226, R233). -/
  reuse : Bool := false
  /-- An uncorrectable error in its accumulator path, to be recorded against its destinations (12 R270). -/
  lost : Bool := false
  /-- Its result stands in the array and waits for a result buffer (10 R233, 12 R265). -/
  stalled : Bool := false
  deriving DecidableEq, Repr

/-- A near-memory, task or sprocket command (13 R278, 15 R312, 16 R336): its kind, token, parameters, pieces and
captured operand bytes. -/
structure NmCmd where
  id : Nat
  strand : Nat
  part : Nat
  op : Nat
  tok : Nat
  par : List Nat
  pcs : List Piece
  data : List Byte
  phase : Nat
  word : W64
  deriving DecidableEq, Repr

/-- An engine command: launched at once, or waiting as a landing-queue entry for its start delay (03 R74). -/
inductive Cmd where
  | copy (c : CopyCmd)
  | matrix (x : XCmd)
  | nm (n : NmCmd)
  deriving DecidableEq, Repr

/-- What a landing-queue entry brings (01 R27). -/
inductive LWhat where
  | eff (e : Eff)
  | result (id : Nat) (dst : List Dst)
  | launch (c : Cmd)
  deriving DecidableEq, Repr

/-- A landing-queue entry (01 R27). -/
structure Landing where
  rem : Nat
  addr : Nat
  slot : Nat
  what : LWhat
  deriving DecidableEq, Repr

/-- An entry of the branch-pending FIFO (01 R29). -/
structure Bpf where
  target : Nat
  count : Nat
  rot : Bool
  deriving DecidableEq, Repr

/-- What follows the completion of a bundle because of its C slot. -/
inductive After where
  | none
  | trap (cause detail : Nat)
  | done
  | rfe
  | yield
  | segend (cost : Nat)
  deriving DecidableEq, Repr

/-- The outcome of a bundle's C operation, kept until CompleteBundle (05 R118). -/
structure COut where
  redirect : Option (Nat × Bool) := Option.none
  seen : Nat := 0
  annul : Bool := false
  after : After := .none
  sc : Nat := 0
  deriving DecidableEq, Repr

/-- An effect held by the bundle completion buffer, with its slot (06 R133, R136). -/
structure Held where
  slot : Nat
  eff : Eff
  deriving DecidableEq, Repr

/-- How data that arrives is written to its pending destination (07 R166, 08 R177, R181, 09 R210). -/
inductive PendKind where
  | scalar (d size : Nat) (signed : Bool)
  | urs (a : Nat) (ms : List (Option Byte))
  /-- `idx` counts the atomic returns of a replayed pass (19 R397). -/
  | atom (d size idx : Nat)
  | token (d : Nat)
  /-- A freewheel block or row (17 R355, R357): URS address, bytes a higher slot left writable, block or whole row,
  stamped code (0 for a row as stored), decay code, step view captured at issue, staleness threshold. -/
  | fw (a : Nat) (ms : List (Option Byte)) (row : Bool) (fc decay now thr : Nat)
  deriving DecidableEq, Repr

/-- A scoreboarded destination whose data has not arrived. -/
structure Pend where
  id : Nat
  kind : PendKind
  dsts : List Dst
  pcs : List Piece
  val : Option (List Byte)
  vld : Bool
  err : Option Nat
  /-- A fence of scope `.strand` (1) or `.core` (2) has been passed (08 R189, R192): no store of that scope's observers made
  since may be seen by the load. -/
  fence : Nat := 0
  /-- Bytes of the load that a fence has fixed before the others: those behind no window (21 R415). -/
  known : List (Option Byte) := []
  deriving DecidableEq, Repr

/-- The part of a strand's state that a trap freezes (06 R137): PC, FIFO, annul count, remaining SC, landing queue, the
completion buffer with its done mask (the stop record while a bundle is partly committed), pending EFR changes and
CSBPASS. -/
structure Ctx where
  pc : Nat := 0
  bpf : List Bpf := []
  anc : Nat := 0
  sc : Nat := 0
  lq : List Landing := []
  done : Nat := 0
  buf : List Held := []
  cout : COut := {}
  efrP : List (Nat × W64) := []
  csbpass : Bool := false
  /-- Events of the bundle, added to SEV after its writes (03 R88): dead reads and dual writes. -/
  evDead : Nat := 0
  evDual : Nat := 0
  /-- While slots of the bundle have committed: the first number of its commands and pending destinations, and the
  landing-queue entries that stood before it. Its own are no concern of its later slots (06 R134). -/
  first : Option (Nat × Nat) := Option.none
  /-- Loads of a partly committed bundle that a trap has frozen with it: held results (06 R136). -/
  held : List Pend := []
  /-- Comparators that have stopped the bundle before a slot, as 16 × slot + number (19 R385). -/
  supp : List Nat := []
  deriving DecidableEq, Repr

/-- A store or atomic issued and not yet performed (08 R187). -/
structure Out where
  id : Nat
  op : MemOp
  deriving DecidableEq, Repr

/-- Why a blocked strand waits (12 R258). -/
inductive Wait where
  | none
  | copyQueue | matrixQueue | nmQueue
  | permitQueue (port : Nat)
  /-- The pending tokens waited for. -/
  | token (ids : List Nat)
  | factor | family | yielded | actions
  deriving DecidableEq, Repr

/-- The run states of 12 R257. -/
inductive RunState where
  | idle | inPos | ready | blocked | stopped
  deriving DecidableEq, Repr

/-- A trap entry that waits for its vector record from a peer (18 R368, 21 R417): cause, detail and address, what TSL is to report, and
CSBPASS. -/
structure TrapCall where
  cause : Nat
  detail : Nat
  addr : Nat
  slot : Nat
  done : Nat
  held : Nat
  dly : Bool
  csbpass : Bool
  deriving DecidableEq, Repr

/-- What a strand does first when it is in position: a hold that follows a completed bundle (05 R124, R127; `rfe` carries
its bundle's address), the switch of a `yield` whose stall count still runs (03 R73), the trap entry of a matrix
breakdown (12 R262), or a trap entry whose vector record lies behind a fabric window. -/
inductive Hold where
  | none | done | rfe (addr : Nat) | yield | breakdown (kind : Nat) | trap (t : TrapCall)
  deriving DecidableEq, Repr

/-- A region (13 R274, R275): `kind` 0 tensor, 1 linear, 2 vault. -/
structure Region where
  kind : Nat
  acc : Nat
  fwd : Bool := false
  handle : Nat := 0
  row0 : Nat := 0
  col0 : Nat := 0
  i2 : Nat := 0
  i3 : Nat := 0
  rows : Nat := 0
  cols : Nat := 0
  n2 : Nat := 0
  n3 : Nat := 0
  vault : Nat := 0
  base : Nat := 0
  len : Nat := 0
  deriving DecidableEq, Repr

/-- The task a strand runs: record location, address, partition, graph, sequence number, priority, and TAIL of its
segment cost table (18 R371). -/
structure Task where
  loc : Nat
  va : Nat
  part : Nat
  graph : Nat
  seq : Nat
  prio : Nat
  tail : Nat
  deriving DecidableEq, Repr

/-- What aborts a task (06 R141, R146): the cause, detail, address, slot and done mask, and whether it is the second
cause of a handler. Cause 0 is a DISPOSE, which makes no fault record (15 R321). -/
structure Abort where
  cause : Nat
  detail : Nat
  addr : Nat
  tsl : W64
  second : Bool
  deriving DecidableEq, Repr

/-- A fault record (14 R305). -/
structure FaultRec where
  kind : Nat
  sv : Bool
  strand : Nat
  graph : Nat
  tcr : W64
  tar : W64
  tcr2 : W64
  tar2 : W64
  pc : Nat
  tsl : Nat
  va : Nat
  deriving DecidableEq, Repr

/-- A produced matrix result that has not landed (10 R230): command, strand, what lands; once it has left
its result buffer for the save area, the address of its copy and the first number of the bytes written there (12 R440); `fam` the family command it is the result of (11 R255). -/
structure MRes where
  id : Nat
  strand : Nat
  effs : List Eff
  moved : Option (Nat × Nat)
  fam : Option XCmd := none
  deriving DecidableEq, Repr

/-- A strand (01 R12). Absent entries of the register maps read zero; `seeds` lists the lane seeds that differ from
those of task entry (01 R37). -/
structure Strand where
  run : RunState := .idle
  wait : Wait := .none
  hold : Hold := .none
  sreg : SMap W64 := []
  areg : SMap W64 := []
  mreg : SMap W128 := []
  preg : BitVec 8 := 0#8
  qreg : SMap Mask := []
  urs : SMap Byte := []
  vd : SMap W64 := []
  age : SMap Nat := []
  ctx : Ctx := {}
  frozen : Option (Ctx × W64 × W64) := Option.none
  hmode : Bool := false
  seen : Nat := 0
  /-- The base of the handler stack windows, as the trap entry read it (06 R137). -/
  hstack : Nat := 0
  seeds : List (Nat × W32) := []
  scr : W64 := 0#64
  efr : W64 := 0x18#64
  mlp : W64 := 0#64
  svr : W64 := 0#64
  cyc : W64 := 0#64
  sev : W64 := 0#64
  fsr : W64 := 0#64
  gfr : W64 := 0#64
  pvr : SMap W64 := []
  tcr : W64 := 0#64
  tar : W64 := 0#64
  tsl : W64 := 0#64
  tcr2 : W64 := 0#64
  tar2 : W64 := 0#64
  wref : Option (Nat × Nat) := Option.none
  /-- Bytes of the weight reference have been written since the array preloaded it (10 R226). -/
  wstale : Bool := false
  regions : List Region := []
  /-- The join list: location and address of each record (13 R280). -/
  joins : List (Nat × Nat) := []
  pends : List Pend := []
  outs : List Out := []
  /-- Recorded errors (06 R135, 17 R348): destination, cause, address. -/
  errs : List (Dst × Nat × Nat) := []
  /-- The most recent X command whose guard was true (10 R220): its command number, its mode (0 floating, 1 integer, 2 no
  multiplying command) and the URS range it writes. -/
  pred : Option (Nat × Nat × Nat) := Option.none
  /-- The flush cursor (14 R308). -/
  cursor : W128 := 0#128
  due : Option (Nat × Nat) := Option.none
  /-- Its bundle holds in the phases of a `gstep.adv` (17 R350). -/
  adv : Bool := false
  segc : Nat := 0
  ahead : List (Nat × List Byte) := []
  /-- Requests to peers by address (21 R417): for the bytes of a bundle, a literal word or a permit descriptor that its issue waits
  for, for a trap vector record or a segment cost table; at 2^57, for the capture or the restore of a replay (19 R395, R396). -/
  asks : List (Nat × Nat) := []
  /-- The bundle that holds for an instruction-cache or translation miss (12 R259). -/
  miss : Option Nat := Option.none
  task : Option Task := Option.none
  /-- Pending matrix results saved with the strand (18 R374); those of a live strand stand in its core. -/
  results : List MRes := []
  abort : Option Abort := Option.none
  deriving DecidableEq, Repr

/-- A line of a data cache (08 R172): partition and line address, physical key, bytes, dirty mask, the strand that last wrote
it and the sequence number of its task; the strands of the core whose stores it holds since it was last clean, as a mask; the
bytes whose check is wrong (20 R405). -/
structure DLine where
  part : Nat
  va : Nat
  key : Nat
  bytes : List Byte
  dirty : Nat
  writer : Nat
  wseq : Nat := 0
  wrote : Nat := 0
  bad : Nat := 0
  deriving DecidableEq, Repr

/-- A cached translation (08 R173, 16 R325). -/
structure Tlb where
  part : Nat
  va : Nat
  size : Nat
  key : Nat
  /-- 1 read, 2 write, 4 execute. -/
  perm : Nat
  ms : Bool
  /-- 0 HBM, 1 a host window, 2 a fabric window (21 R414). -/
  win : Nat
  /-- PPART of the fabric window that was found: the peer partition in which spawns and joins act (21 R413, R420). -/
  ppart : Nat := 0
  deriving DecidableEq, Repr

/-- What a stop sequence on a core is for (18 R372, R376). -/
inductive StopFor where
  | none
  | cadence
  | host
  /-- A priority partition. -/
  | priority (p : Nat)
  deriving DecidableEq, Repr

/-- A core. -/
structure Core where
  pos : Option Nat := Option.none
  last : Nat := 3
  /-- The cadence state (18 R369): partition, row and budget left; the row's budget as it was entered; `entered` once a row
  has been entered; `spent` once a `segend` has found the budget spent (18 R371). -/
  part : Nat := 0
  row : Nat := 0
  left : Nat := 0
  budget : Nat := 0
  entered : Bool := false
  spent : Bool := false
  copies : List CopyCmd := []
  mq : List XCmd := []
  results : List MRes := []
  nmq : List NmCmd := []
  /-- The stop sequence in progress (18 R373); `saved` once its images are written. -/
  stop : StopFor := .none
  saved : Bool := false
  /-- The stop is one that a host request asked for or has joined (18 R376, R377). -/
  asked : Bool := false
  /-- The partition whose images the shadow storage holds, with the four strands' images (18 R374). -/
  shadow : Option (Nat × List Strand) := Option.none
  /-- Commands handed to the die's command processor, in order (18 R373), with the partition they belong to. -/
  parked : List (Nat × Cmd) := []
  dc : List DLine := []
  utlb : List Tlb := []
  deriving DecidableEq, Repr

/-- A line of a cluster's tile cache (14 R292, R293): its tag, bytes, dirty mask and forward tag; the bytes whose check is
wrong (20 R405). -/
structure TLine where
  part : Nat
  handle : Nat
  tr : Nat
  tc : Nat
  i2 : Nat
  i3 : Nat
  bytes : List Byte
  dirty : Nat
  fwd : Option Nat
  bad : Nat := 0
  deriving DecidableEq, Repr

/-- A layout record read (16 R328); `peer` is the package of a remote handle (21 R421). -/
structure Lay where
  fc : Nat
  ms : Bool
  decay : Nat
  pad : Nat
  base : Nat
  rows : Nat
  cols : Nat
  n2 : Nat
  n3 : Nat
  smask : Nat
  sgran : Nat
  rslot : Nat
  peer : Option Nat
  deriving DecidableEq, Repr

/-- An entry of a ready queue (13 R282): record location, partition, level and push order. -/
structure QEnt where
  loc : Nat
  part : Nat
  level : Nat
  order : Nat
  deriving DecidableEq, Repr

/-- A registered task as its die's dependence table or overflow list holds it (13 R283, R285): `held` once it has an
entry, `staged` once its remote regions are staged (21 R421), `st` its STATE. -/
structure DEnt where
  loc : Nat
  va : Nat
  part : Nat
  seq : Nat
  graph : Nat
  prio : Nat
  clu : Nat
  pinned : Bool
  regions : List Region
  st : Nat
  held : Bool
  staged : Bool
  /-- A core has been taken for the task by a priority pre-emption (18 R376). -/
  taken : Bool := false
  /-- The number of the request that fetches its remote tiles (21 R421). -/
  fetch : Option Nat := Option.none
  deriving DecidableEq, Repr

/-- A binding of the layout table (16 R327). -/
structure Bind where
  part : Nat
  handle : Nat
  bytes : List Byte
  deriving DecidableEq, Repr

/-- A binding of the fabric handle table (21 R421). -/
structure FBind where
  part : Nat
  handle : Nat
  phandle : Nat
  ppart : Nat
  peer : Nat
  deriving DecidableEq, Repr

/-- An open loop of a command stream (15 R320): start and length of the body in bytes, executions left. -/
structure LoopF where
  start : Nat
  len : Nat
  left : Nat
  deriving DecidableEq, Repr

/-- A replay in progress (19 R396): the strand, the pass, its branch-trace hash and count of atomic returns, the first
mismatch as (pass, index), whether it runs once without replay (19 R395), and whether its last pass is over. -/
structure Replay where
  strand : Nat
  pass : Nat
  hash : W64
  nret : Nat
  differ : Option (Nat × Nat)
  once : Bool
  ended : Bool := false
  /-- Its capture waits for requests to peers (21 R417). -/
  waits : Bool := false
  deriving DecidableEq, Repr

/-- A Valber Link port beside its registers (21 R418): the allowances of the four channels, flits received and held,
flits sent and not yet taken by the peer, the next sequence numbers to send and to receive, this package's own flits that wait
for an allowance with the number of their request, and the last 128 flits sent, for retransmission. -/
structure Port where
  allow : List Nat := [64, 64, 64, 64]
  rx : List (List Byte) := []
  tx : List (List Byte) := []
  txSeq : Nat := 0
  rxSeq : Nat := 0
  wait : List (Nat × List Byte) := []
  replay : List (List Byte) := []
  deriving DecidableEq, Repr

/-- A request to a peer under way (21 R417, R419): its number, the peer, and the port it leaves by; port 32 stands for none. -/
structure Flight where
  id : Nat
  peer : Nat
  port : Nat
  deriving DecidableEq, Repr

/-- A request that leaves for a peer beside plain reads and writes (21 R420), with the number of its flits: a job card with
the peer's partition and its record's location there; a join decrement with the peer's partition, the record's location there
and the joining task's graph, and for a decrement that is lost the producer's die and the record's address; the result of a
card received, with the package that it goes to. -/
inductive FabMsg where
  | card (peer ppart loc id : Nat) (bytes : List Byte)
  | join (peer ppart loc id graph die va : Nat)
  | result (peer id : Nat) (word : W64)
  deriving DecidableEq, Repr

/-- A command of a stream that waits for a peer (15 R320, 21 R420): a launch until the peer has registered a record, or a JOIN
until its decrement is over. The stream's die and number, the request, the record's graph and address, the records that follow as
location and address, and the words of the command. -/
structure StreamLaunch where
  die : Nat
  stream : Nat
  id : Nat
  graph : Nat
  va : Nat
  todo : List (Nat × Nat)
  words : Nat
  join : Bool := false
  deriving DecidableEq, Repr

/-- A sweep pass (17 R351): the strand whose advance it belongs to, its reference step, the tensors still to be visited as
partition and handle, and the next flat row of the first. -/
structure Sweep where
  strand : Nat
  ref : Nat
  todo : List (Nat × Nat)
  row : Nat
  deriving DecidableEq, Repr

/-- The strand and slot whose operation runs, and what higher slots of its bundle write over (03 R87). -/
structure Cur where
  g : Nat := 0
  slot : Nat := 0
  cancel : List Dst := []
  deriving DecidableEq, Repr

/-- A move of an agent that the manual leaves unordered, or a happening from outside: what `State.agenda` lists. -/
inductive Move where
  /-- A step of the table. -/
  | ev (i : Instr)
  /-- One core clock of a core. -/
  | tick (c : Nat)
  /-- One strand cycle of a position hold for an instruction-cache or translation miss (05 R116, 08 R173). -/
  | miss (g : Nat)
  /-- A store or atomic of a strand is performed (08 R187). -/
  | perform (g n : Nat)
  /-- A line of a core's data cache is evicted (08 R172). -/
  | evict (c part va : Nat)
  /-- A strand fetches a bundle ahead (05 R131). -/
  | ahead (g va : Nat)
  /-- The `n`th line of a cluster's tile cache is evicted (14 R293). -/
  | evictTile (u n : Nat)
  /-- Core clocks pass on a cluster (19 R388). -/
  | clock (u n : Nat)
  /-- Another party writes bytes: the host outside the package, or a peer also in its HBM (21 R413, R415). -/
  | outside (a : Nat) (bs : List Byte)
  /-- The command processor of a die takes a step of a stream (15 R320). -/
  | stream (d n : Nat)
  /-- A count that depends on timing alone rises: hits, misses and cascades of a memory-side cache (16 R334), flits sent
  again or held back (21 R416). -/
  | count (d o n : Nat)
  /-- The array of a core spends clocks in one of its cycle classes (19 R392, codes 0x14 to 0x18). -/
  | array (c code n : Nat)
  /-- The host masks an MSI-X vector (21 R411). -/
  | mask (v : Nat)
  /-- A peer answers a job card (21 R420). -/
  | reply (c n : Nat) (word : W64)
  /-- A peer answers the first job card of a stream's launch (15 R320, 21 R420). -/
  | launchReply (d n : Nat) (word : W64)
  /-- A join decrement of a peer's task of a graph arrives for a record of this package (21 R420, R422). -/
  | peerJoin (part loc graph : Nat)
  /-- A port sends again the flits from a sequence number on, after a CRC failure at its peer (21 R418). -/
  | retry (p seq : Nat)
  /-- A peer's layout record becomes known, or is withdrawn (21 R421). -/
  | peerLayout (peer ppart phandle : Nat) (bytes : Option (List Byte))
  /-- The Uliquin controller has verified the firmware images (20 R401, R403). -/
  | boot (fail svn : Nat) (att : Bool)
  /-- The package draws a measured power (20 R407). -/
  | power (w : Nat)
  /-- The package's idle power, in watts (20 R407). -/
  | idlePower (w : Nat)
  /-- The sideband writes a register of the die 0 window (21 R412). -/
  | sideband (o v : Nat)
  /-- The host writes half `i` of an entry of its MSI-X table: address, or data (21 R409, R411). -/
  | msixEntry (i v : Nat)
  /-- The package answers a peer's read of its memory with so many bytes (21 R418). -/
  | answer (peer n : Nat)
  /-- The host and the peers take what was sent to them. -/
  | taken
  deriving DecidableEq, Repr

/-- A package. -/
structure State where
  /-- 0 running, 1 freezing, 2 frozen (19 R382). -/
  frz : Nat
  /-- The strand after whose next bundle the device freezes again (19 R386). -/
  stepArm : Option Nat
  agenda : List Move
  work : List Instr
  turn : Nat
  cur : Cur
  strands : SMap Strand
  cores : SMap Core
  ctlb : SMap (List Tlb)
  mem : List (Nat × Byte)
  /-- Registers of the windows that do not hold their reset value, keyed die × 2^20 + offset. -/
  regs : SMap W64
  /-- Lines of the tile caches, by cluster. -/
  tiles : SMap (List TLine)
  /-- Ready queues, next push orders and aging counts, by cluster (13 R282, R288). -/
  queues : SMap (List QEnt)
  pushNo : SMap Nat
  aging : SMap Nat
  /-- Dependence tables with their overflow lists, by die. -/
  deps : SMap (List DEnt)
  /-- Spawn sequence counters, by partition (13 R284). -/
  spawnNo : SMap Nat
  /-- Fault records received and not yet appended, by die (15 R318). -/
  faults : SMap (List FaultRec)
  /-- Sprocket queues, by die × 32 + port (15 R314). -/
  permits : SMap (List NmCmd)
  /-- Open loops of the streams, by die × 8 + stream. -/
  loops : SMap (List LoopF)
  /-- Replays in progress, by die × 8 + slot. -/
  replays : SMap Replay
  layout : List Bind
  fabric : List FBind
  /-- The sweep list (17 R352): partition and handle. -/
  sweeps : List (Nat × Nat)
  /-- The pass that an advance of the global step makes (17 R350, R351). -/
  sweep : Option Sweep
  /-- Images of strands in the save areas (18 R374): partition, strand, image. -/
  images : List (Nat × Nat × Strand)
  /-- The first number of the bytes that the last save wrote to a slot, by 256 × strand + partition. -/
  saves : SMap Nat
  /-- Sequence numbers of trace records, by cluster (19 R389). -/
  trSeq : SMap Nat
  /-- MSI-X vectors masked, pending, and messages sent (21 R411). -/
  msixMask : Nat
  msixPend : Nat
  msixSent : List Nat
  ports : SMap Port
  /-- Requests to peers that have launched and are not over (21 R417, R419). -/
  flights : List Flight
  /-- Launches and joins of streams that wait for a peer. -/
  launches : List StreamLaunch
  /-- Requests to peers that the command processors wait for: by 8 × die + stream that of the command a stream has found, by
  32 + die that of a die's next fault record, by 64 + 256 × strand + partition that of the restore of a saved task that is taken down (21 R417). -/
  asks : SMap Nat
  /-- Tiles on their way back to peers (21 R421): the request, the line, whose dirty bytes are written there once it has been
  sent, and the layout that they leave through (16 R331). -/
  tileOut : List (Nat × TLine × Lay)
  /-- Strands whose edge actions have been asked of the flush engines and are not over, oldest first (14 R295). -/
  edgeQ : List Nat
  /-- Requests sent to peers, and the peers' layout records. -/
  fabOut : List FabMsg
  peerLay : List (Nat × Nat × Nat × List Byte)
  /-- Ranges of memory whose checks are wrong (20 R405): first key and length. -/
  bad : List (Nat × Nat)
  /-- The function is in D3hot (21 R408). -/
  d3 : Bool
  /-- The host's MSI-X table, two halves an entry: message address, message data (21 R409). -/
  msixTab : SMap W64
  /-- Ports for whose peers the Uliquin controller holds session keys, and the images whose measurements stand in its log
  (20 R398, R401, R402). -/
  keys : List Nat
  measured : List Nat
  /-- Core-error reports that the die command processors have received (12 R270): core, kind, address. -/
  coreReports : List (Nat × Nat × Nat)
  /-- The package's idle power, in watts (20 R407). -/
  idlePw : Nat
  /-- Cores with FX36 fallback and with a half-width array, as the last reset read the repair map (12 R271). -/
  fxdCores : List Nat
  hwCores : List Nat
  /-- The next number for a command, a pending destination or an outstanding store (the model's own). -/
  nid : Nat
  /-- The next value of `Config.free64` to be taken (the model's own). -/
  fresh : Nat
  deriving DecidableEq, Repr

/-- The package right after a reset (20 R398): nothing listed anywhere, before the firmware is verified and before the
HBM stacks have retrained. -/
def State.reset : State where
  frz := 0
  stepArm := none
  agenda := []
  work := []
  turn := 0
  cur := {}
  strands := []
  cores := []
  ctlb := []
  mem := []
  regs := []
  tiles := []
  queues := []
  pushNo := []
  aging := []
  deps := []
  spawnNo := []
  faults := []
  permits := []
  loops := []
  replays := []
  layout := []
  fabric := []
  sweeps := []
  sweep := none
  images := []
  saves := []
  trSeq := []
  msixMask := 0xFFFF
  msixPend := 0
  msixSent := []
  ports := []
  flights := []
  launches := []
  asks := []
  tileOut := []
  edgeQ := []
  fabOut := []
  peerLay := []
  bad := []
  d3 := false
  msixTab := []
  keys := []
  measured := []
  coreReports := []
  idlePw := 0
  fxdCores := Config.repair.fxd
  hwCores := Config.repair.halfWidth
  nid := 0
  fresh := 0

/-- What an unlisted byte of memory reads as: zero inside the package (20 R398), whatever stands there outside it. -/
def memDefault (a : Nat) : Byte := if a < 2 ^ 41 then 0#8 else Config.outsideByte a

/-- Whether the canonical memory lists a byte. -/
def memKeep (a : Nat) (b : Byte) : Bool := decide (b ≠ memDefault a)

/-- The canonical form of a memory: addresses strictly rising, no entry that holds what an
unlisted byte reads as. -/
def Memory.wf : List (Nat × Byte) → Bool
  | [] => true
  | (a, b) :: m => memKeep a b && SMap.above a m && Memory.wf m

end Sys2Proof.Machine
end

