-- ==== Sys2Proof/Machine/View.lean ====
section
/-! DEFINITION. The registers of a strand, the view table and the URS (01 R13-R23): the one place where a register is
read or written. -/

namespace Sys2Proof.Machine

/-- A scalar register; `s0` reads zero (01 R13). -/
def Strand.rs (t : Strand) (n : Nat) : W64 := if n = 0 then 0#64 else SMap.get 0#64 t.sreg n

/-- A write of a scalar register; one of `s0` is discarded (01 R13). -/
def Strand.ws (t : Strand) (n : Nat) (v : W64) : Strand :=
  if n = 0 then t else { t with sreg := SMap.set 0#64 t.sreg n v }

/-- An address register (01 R14). -/
def Strand.ra (t : Strand) (n : Nat) : W64 := SMap.get 0#64 t.areg n

/-- A write of an address register. -/
def Strand.wa (t : Strand) (n : Nat) (v : W64) : Strand := { t with areg := SMap.set 0#64 t.areg n v }

/-- A modifier descriptor (01 R17). -/
def Strand.rm (t : Strand) (n : Nat) : W128 := SMap.get 0#128 t.mreg n

/-- Position and width of the fields of a modifier descriptor: STEP, LEN, MODE, BASE (01 R17, 04 R111). -/
def modField : Nat → Nat × Nat
  | 0 => (96, 32)
  | 1 => (72, 24)
  | 2 => (64, 2)
  | _ => (0, 57)

/-- A write of one field of a modifier descriptor (04 R111). -/
def Strand.wm (t : Strand) (n f : Nat) (v : W64) : Strand :=
  let p := modField f
  let old := (t.rm n).toNat
  let new := old - old / 2 ^ p.1 % 2 ^ p.2 * 2 ^ p.1 + v.toNat % 2 ^ p.2 * 2 ^ p.1
  { t with mreg := SMap.set 0#128 t.mreg n (BitVec.ofNat 128 new) }

/-- A predicate; `p0` reads true (01 R15). -/
def Strand.rp (t : Strand) (n : Nat) : Bool := n == 0 || t.preg.getLsbD n

/-- A write of a predicate; one of `p0` is discarded (01 R15). -/
def Strand.wp (t : Strand) (n : Nat) (v : Bool) : Strand :=
  if n = 0 then t
  else { t with preg := (t.preg &&& ~~~(1#8 <<< n)) ||| (if v then 1#8 <<< n else 0#8) }

/-- A mask; `q0` reads all ones (01 R16). -/
def Strand.rq (t : Strand) (n : Nat) : Mask := if n = 0 then BitVec.allOnes 256 else SMap.get 0#256 t.qreg n

/-- A write of the lanes `act` of a mask; one of `q0` is discarded (01 R16). -/
def Strand.wq (t : Strand) (n : Nat) (act v : Mask) : Strand :=
  if n = 0 then t
  else { t with qreg := SMap.set 0#256 t.qreg n ((t.rq n &&& ~~~act) ||| (v &&& act)) }

/-- The lane seed at task entry (01 R37). -/
def seedInit (i : Nat) : W32 := 0x9E3779B9#32 ^^^ BitVec.ofNat 32 (i * 0x01010101)

/-- The listed seed of a lane, or that of task entry. -/
def seedGet : List (Nat × W32) → Nat → W32
  | [], i => seedInit i
  | (j, v) :: l, i => if j = i then v else seedGet l i

/-- The list with a seed set, in the canonical form of lanes rising and no seed as at task entry. -/
def seedSet : List (Nat × W32) → Nat → W32 → List (Nat × W32)
  | [], i, v => if v = seedInit i then [] else [(i, v)]
  | (j, w) :: l, i, v =>
    if i < j then (if v = seedInit i then (j, w) :: l else (i, v) :: (j, w) :: l)
    else if i = j then (if v = seedInit i then l else (i, v) :: l)
    else (j, w) :: seedSet l i v

/-- A lane seed. -/
def Strand.seed (t : Strand) (i : Nat) : W32 := seedGet t.seeds i

/-- A write of a lane seed; zero is stored as 1 (02 R59). -/
def Strand.setSeed (t : Strand) (i : Nat) (v : W32) : Strand :=
  { t with seeds := seedSet t.seeds i (if v = 0#32 then 1#32 else v) }

/-- The lanes and the number of LFSR states of each that an operation reserves (02 R61). -/
def Strand.reserve (t : Strand) : List (Nat × Nat) → Strand
  | [] => t
  | (i, n) :: l => Strand.reserve (t.setSeed i (lfsrN n (t.seed i))) l
where
  /-- `n` steps of an LFSR (02 R59). -/
  lfsrN : Nat → W32 → W32
    | 0, v => v
    | n + 1, v =>
      lfsrN n (BitVec.ofNat 32 (v.toNat * 2 + (v.toNat / 2 ^ 31 + v.toNat / 2 ^ 21 + v.toNat / 2 + v.toNat) % 2))

-- Format codes (02 R47).

/-- Element type of a format code. -/
def fcType (c : Nat) : Nat := c / 16

/-- Parameter of a format code. -/
def fcParam (c : Nat) : Nat := c % 16

/-- A dense code of types 0x0–0x6. -/
def fcDense (c : Nat) : Bool := decide (fcType c ≤ 6) && fcParam c == 0

/-- A block code (02 R47). -/
def fcBlock (c : Nat) : Bool :=
  (decide (fcType c ≤ 6) && fcParam c == 1) || ((fcType c == 7 || fcType c == 8) && fcParam c != 0) ||
  ((fcType c == 10 || fcType c == 11 || fcType c == 12) && fcParam c == 0)

/-- A stamped code (02 R54). -/
def fcStamped (c : Nat) : Bool := (fcType c == 10 || fcType c == 11 || fcType c == 12) && fcParam c == 0

/-- Elements per block of a type (02 R47). -/
def fcPer (c : Nat) : Nat :=
  match fcType c with
  | 0 => 15 | 1 => 30 | 2 => 30 | 3 => 60 | 4 => 60 | 5 => 60 | 6 => 120 | 7 => 60 | 8 => 32 | 10 => 15 | 11 => 30
  | 12 => 30 | _ => 1

/-- Element width in bits of a type (02 R46, R48). -/
def fcWidth (c : Nat) : Nat :=
  match fcType c with
  | 0 => 32 | 1 => 16 | 2 => 16 | 3 => 8 | 4 => 8 | 5 => 8 | 6 => 4 | 7 => 8 | 8 => 15 | 10 => 32 | 11 => 16 | 12 => 16
  | _ => 36

-- The view table (01 R18-R20).

/-- A view descriptor. -/
def Strand.rvd (t : Strand) (i : Nat) : Nat := (SMap.get 0#64 t.vd i).toNat

/-- EN. -/
def vdEn (d : Nat) : Bool := bit d 63
/-- LDR. -/
def vdLdr (d : Nat) : Nat := bits d 45 40
/-- RRB. -/
def vdRrb (d : Nat) : Nat := bits d 39 34
/-- ROT. -/
def vdRot (d : Nat) : Bool := bit d 33
/-- FMT. -/
def vdFmt (d : Nat) : Nat := bits d 31 24
/-- KIND. -/
def vdKind (d : Nat) : Nat := bits d 23 22
/-- HI. -/
def vdHi (d : Nat) : Nat := bits d 21 16
/-- LO. -/
def vdLo (d : Nat) : Nat := bits d 15 10
/-- BASE. -/
def vdBase (d : Nat) : Nat := bits d 9 0
/-- Entries of the view; none when LO exceeds HI. -/
def vdCount (d : Nat) : Nat := if vdLo d ≤ vdHi d then vdHi d - vdLo d + 1 else 0

/-- Pitch (01 R19); `none` for a tile view that takes no part in resolution. -/
def vdPitch (d : Nat) : Option Nat :=
  match vdKind d with
  | 0 => some 1024
  | 2 => some 18432
  | 3 => some 64
  | _ =>
    let f := vdFmt d
    if fcDense f then some (512 * fcWidth f)
    else if fcBlock f then some (ceilDiv 4096 (fcPer f) * 64)
    else none

/-- A view whose entries take part in resolution. -/
def vdOn (d : Nat) : Bool := vdEn d && (vdPitch d).isSome

/-- A resolved name: view, physical entry, first byte, pitch, descriptor. -/
structure Res where
  v : Nat
  phys : Nat
  addr : Nat
  pitch : Nat
  d : Nat
  deriving DecidableEq, Repr

/-- One view's answer to a name (01 R20): `none` when it does not cover the name. -/
def resolveIn (t : Strand) (n v : Nat) : Option (Option Res) :=
  let d := t.rvd v
  if vdEn d && decide (vdLo d ≤ n) && decide (n ≤ vdHi d) then
    match vdPitch d with
    | none => none
    | some p =>
      let c := vdCount d
      let phys := if vdRot d then (n - vdLo d + vdRrb d) % c else n - vdLo d
      let a := vdBase d * 64 + phys * p
      if a + p > 65536 then some none else some (some ⟨v, phys, a, p, d⟩)
  else none

/-- The lowest-numbered of the views that covers the name resolves it. -/
def resolveFrom (t : Strand) (n : Nat) : List Nat → Option Res
  | [] => none
  | v :: l =>
    match resolveIn t n v with
    | none => resolveFrom t n l
    | some r => r

/-- Resolve (01 R20); `none` is the unmapped-operand fault. -/
def resolve (t : Strand) (n : Nat) : Option Res := resolveFrom t n [0, 1, 2, 3, 4, 5, 6, 7]

-- Ages and dead entries (01 R23). A physical entry has the key 64 × view + entry.

/-- The bytes of a physical entry of a view that takes part: first byte and length. -/
def entryRange (t : Strand) (k : Nat) : Option (Nat × Nat) :=
  let d := t.rvd (k / 64)
  if vdEn d && decide (k % 64 < vdCount d) then
    match vdPitch d with
    | none => none
    | some p => some (vdBase d * 64 + k % 64 * p, p)
  else none

/-- The entry is dead. -/
def entryDead (t : Strand) (k : Nat) : Bool :=
  let d := t.rvd (k / 64)
  vdRot d && vdLdr d != 0 && decide (vdLdr d ≤ SMap.get 0 t.age k)

/-- The ranges of the dead entries. -/
def deadRanges (t : Strand) : List (Nat × Nat) :=
  (t.age.filter (fun e => entryDead t e.1)).filterMap (fun e => entryRange t e.1)

/-- A byte lies in a range. -/
def inRange (b : Nat) (r : Nat × Nat) : Bool := decide (r.1 ≤ b) && decide (b < r.1 + r.2)

/-- Two ranges meet. -/
def rangesMeet (a n b m : Nat) : Bool := decide (a < b + m) && decide (b < a + n)

/-- Dead entries whose bytes an operand reads (01 R23). -/
def deadReads (t : Strand) (a n : Nat) : Nat :=
  ((deadRanges t).filter (fun r => rangesMeet a n r.1 r.2)).length

/-- Bytes of the URS as stored. -/
def Strand.ursRaw (t : Strand) (a n : Nat) : List Byte := readBytes (fun _ => 0#8) t.urs a n

/-- Bytes with those of dead ranges read as zero, from address `a` on. -/
def zeroDead (dr : List (Nat × Nat)) : Nat → List Byte → List Byte
  | _, [] => []
  | a, b :: l => (if dr.any (inRange a) then 0#8 else b) :: zeroDead dr (a + 1) l

/-- Bytes of the URS as an operand reads them (01 R23). -/
def Strand.ursRead (t : Strand) (a n : Nat) : List Byte :=
  match deadRanges t with
  | [] => t.ursRaw a n
  | dr => zeroDead dr a (t.ursRaw a n)

/-- The new bytes of a write: `none` and untouched bits keep what is stored, bits of a partly written dead byte are
taken as zero. -/
def mergeBytes (dr : List (Nat × Nat)) : Nat → List Byte → List (Option (Byte × Byte)) → List Byte
  | a, o :: os, w :: ws =>
    (match w with
      | none => o
      | some (m, v) =>
        if m = 0#8 then o
        else ((if dr.any (inRange a) then 0#8 else o) &&& ~~~m) ||| (v &&& m)) :: mergeBytes dr (a + 1) os ws
  | _, _, _ => []

/-- The bytes a write reaches. -/
def writtenAt (a : Nat) (ws : List (Option (Byte × Byte))) (b : Nat) : Bool :=
  decide (a ≤ b) && (match ws[b - a]? with | some (some (m, _)) => decide (m ≠ 0#8) | _ => false)

/-- Some byte of the write lies in the range. -/
def writeMeets (a : Nat) (ws : List (Option (Byte × Byte))) (r : Nat × Nat) : Bool :=
  (List.range ws.length).any (fun i => inRange (a + i) r && writtenAt a ws (a + i))

/-- A byte is covered by a live entry of a view other than `v` (01 R23). A write is judged by the entries that are live before it:
where it revives dead entries of two views that overlap, bytes that only those two cover are zeroed (DESIGN CHOICE, log 79). -/
def liveCover (t : Strand) (v b : Nat) : Bool :=
  [0, 1, 2, 3, 4, 5, 6, 7].any (fun w =>
    w != v && vdOn (t.rvd w) &&
    (let d := t.rvd w
     let p := (vdPitch d).getD 1
     decide (vdBase d * 64 ≤ b) && decide ((b - vdBase d * 64) / p < vdCount d) &&
     !entryDead t (64 * w + (b - vdBase d * 64) / p)))

/-- Bytes of dead entries that no live entry of another view covers: view and range of each (01 R23). -/
def deadOwn (t : Strand) (keys : List Nat) : List (Nat × Nat × Nat) :=
  keys.filterMap (fun k => (entryRange t k).map (fun r => (k / 64, r.1, r.2)))

/-- The listed bytes without those that only the given dead entries cover. -/
def dropOwn (t : Strand) (own : List (Nat × Nat × Nat)) (keep : Nat → Bool) (l : List (Nat × Byte)) : List (Nat × Byte) :=
  l.filter (fun e => keep e.1 || !own.any (fun c => inRange e.1 c.2 && !liveCover t c.1 e.1))

/-- The image of a strand without the bytes of its dead entries, which are restored as zero; ages are kept (01 R39). -/
def Strand.dropDead (t : Strand) : Strand :=
  let keys := (t.age.filter (fun e => entryDead t e.1)).map Prod.fst
  if keys.isEmpty then t else { t with urs := dropOwn t (deadOwn t keys) (fun _ => false) t.urs }

/-- A mark in place of the address of an error that has none: it is reported with that of the bundle (06 R140). -/
def noAddr : Nat := 2 ^ 57

/-- The record of an error in an 8-byte word of the URS (12 R270): its first byte. -/
def ursErr : Dst × Nat × Nat → Option Nat
  | (.urs o _, c, _) => if c = 0x121 then some o else none
  | _ => none

/-- The offset of the first byte of a range whose URS word has an error. -/
def Strand.ursBad (t : Strand) (a n : Nat) : Option Nat :=
  match (t.errs.filterMap ursErr).filter (fun o => rangesMeet o 8 a n) with
  | [] => none
  | o :: os => some (os.foldl (fun m x => min m (x - a)) (o - a))

/-- Whether a write covers all of the 8-byte word at `o`. -/
def wholeWord (a : Nat) (ws : List (Option (Byte × Byte))) (o : Nat) : Bool :=
  (List.range 8).all (fun i =>
    decide (a ≤ o + i) && (match ws[o + i - a]? with | some (some (m, _)) => m == 0xFF#8 | _ => false))

/-- A write meets words of the URS that have an error (12 R270, 20 R405): one that it covers whole is right again, the error
of another is found in the merge and raised at the strand's next bundle. -/
def Strand.mendUrs (t : Strand) (a : Nat) (ws : List (Option (Byte × Byte))) : Strand :=
  if t.errs.isEmpty then t
  else
    let errs := t.errs.filter (fun e => match ursErr e with | some o => !wholeWord a ws o | none => true)
    let met := (errs.filterMap ursErr).any (fun o => writeMeets a ws (o, 8))
    { t with errs := errs, due := if met ∧ t.due = none then some (0x21, noAddr) else t.due }

/-- Bytes of a tile of a format (01 R19). -/
def tileBytes (fc : Nat) : Nat := if fcDense fc then 512 * fcWidth fc else ceilDiv 4096 (fcPer fc) * 64

/-- The write meets the strand's weight reference (10 R226). -/
def Strand.meetsRef (t : Strand) (a : Nat) (ws : List (Option (Byte × Byte))) : Bool :=
  match t.wref with | some (r, f) => writeMeets a ws (r, tileBytes f) | none => false

/-- A write of bytes of the URS (01 R23): it sets the ages of the entries it reaches to 0, and a dead entry that it
reaches lives again with its unwritten bytes zero, unless a live entry of another view covers them. -/
def Strand.ursWrite (t0 : Strand) (a : Nat) (ws : List (Option (Byte × Byte))) : Strand :=
  let t1 := t0.mendUrs a ws
  let t := if t1.meetsRef a ws then { t1 with wstale := true } else t1
  let n := ws.length
  let new := writeBytes (fun _ b => decide (b ≠ 0#8)) t.urs a
    (mergeBytes (deadRanges t) a (t.ursRaw a n) ws)
  let hit := t.age.filter (fun e =>
    match entryRange t e.1 with | some r => rangesMeet a n r.1 r.2 && writeMeets a ws r | none => false)
  if hit.isEmpty then { t with urs := new }
  else
    let own := deadOwn t ((hit.filter (fun e => entryDead t e.1)).map Prod.fst)
    { t with
      urs := dropOwn t own (writtenAt a ws) new
      age := t.age.filter (fun e => !hit.any (fun h => h.1 == e.1)) }

/-- A write of whole bytes. -/
def Strand.ursPut (t : Strand) (a : Nat) (bs : List Byte) : Strand :=
  t.ursWrite a (bs.map (fun b => some (0xFF#8, b)))

/-- The bits of a view descriptor that a write sets (01 R18). -/
def vdMask : Nat := 0x80003FFEFFFFFFFF

/-- A write of a descriptor, which sets the ages of its view to 0 (01 R23, 09 R200). -/
def Strand.wvd (t : Strand) (i : Nat) (v : W64) : Strand :=
  { t with vd := SMap.set 0#64 t.vd i (BitVec.ofNat 64 (v.toNat &&& vdMask)),
           age := t.age.filter (fun e => e.1 / 64 != i) }

/-- A write of LDR and RRB (09 R201). -/
def Strand.wrot (t : Strand) (i ldr rrb : Nat) : Strand :=
  let d := t.rvd i
  t.wvd i (BitVec.ofNat 64 (d - bits d 45 34 * 2 ^ 34 + (ldr * 64 + rrb) * 2 ^ 34))

/-- The rotation of one view (01 R22). -/
def rotateView (t : Strand) (i : Nat) : Strand :=
  let d := t.rvd i
  let c := vdCount d
  if vdEn d && vdRot d && c != 0 then
    let rrb := (vdRrb d + c - 1) % c
    { t with vd := SMap.set 0#64 t.vd i (BitVec.ofNat 64 (d - vdRrb d * 2 ^ 34 + rrb * 2 ^ 34)),
             age := (List.range c).foldl (fun m e => SMap.set 0 m (64 * i + e) (min 63 (SMap.get 0 m (64 * i + e) + 1)))
               t.age }
  else t

/-- Rotate (01 R22). -/
def Strand.rotate (t : Strand) : Strand := [0, 1, 2, 3, 4, 5, 6, 7].foldl rotateView t

/-- Saturating addition to the counts of SEV (01 R35). -/
def sevAdd (v : W64) (lqf dual dead : Nat) : W64 :=
  let n := v.toNat
  BitVec.ofNat 64 (min 0xFFFF (bits n 47 32 + lqf) * 2 ^ 32 + min 0xFFFF (bits n 31 16 + dual) * 2 ^ 16 +
    min 0xFFFF (bits n 15 0 + dead))

end Sys2Proof.Machine
end

