-- ==== Sys2Proof/Machine/Mem.lean ====
section
/-! DEFINITION. Memory: physical bytes, register windows, translation (16 R324-R326), regions (08 R174) and the data
caches (08 R172). -/

namespace Sys2Proof.Machine

-- Access to the tables of State.

/-- A strand. -/
def State.strand (s : State) (g : Nat) : Strand := SMap.get {} s.strands g
/-- The state with a strand replaced. -/
def State.setStrand (s : State) (g : Nat) (t : Strand) : State := { s with strands := SMap.put s.strands g t }
/-- The state with a strand changed. -/
def State.modStrand (s : State) (g : Nat) (f : Strand → Strand) : State := s.setStrand g (f (s.strand g))
/-- A core. -/
def State.core (s : State) (c : Nat) : Core := SMap.get {} s.cores c
/-- The state with a core replaced. -/
def State.setCore (s : State) (c : Nat) (k : Core) : State := { s with cores := SMap.put s.cores c k }
/-- The state with a core changed. -/
def State.modCore (s : State) (c : Nat) (f : Core → Core) : State := s.setCore c (f (s.core c))
/-- The strand in issue. -/
def State.me (s : State) : Strand := s.strand s.cur.g
/-- The state with the strand in issue changed. -/
def State.modMe (s : State) (f : Strand → Strand) : State := s.modStrand s.cur.g f

/-- Core of a strand. -/
def coreOf (g : Nat) : Nat := g / 4
/-- Cluster of a strand, numbered over the package. -/
def cluOf (g : Nat) : Nat := g / 64
/-- Die of a strand. -/
def dieOf (g : Nat) : Nat := g / 1152
/-- Partition of a strand's task; 0 with none. -/
def Strand.part (t : Strand) : Nat := match t.task with | some k => k.part | none => 0

/-- The clusters mapped out, as a mask (20 R406). -/
def mappedOut : Nat := Config.repair.out.foldl (fun m c => m ||| 2 ^ c) 0

/-- The reset value of the register at an offset: MCCTL, HCIDLE and HCST of both stacks (16 R334), TRSIZE (19 R388),
RSTSTAT, PWRCAP, PWRSTAT and CLMAP (20 R400, R406, R407); every other register resets to zero. -/
def regInit (o : Nat) : Nat :=
  if o = 0x31000 ∨ o = 0x31100 then 1
  else if o = 0x31020 ∨ o = 0x31120 then 64
  else if o = 0x31028 ∨ o = 0x31128 then 1
  else if 0x64000 ≤ o ∧ o < 0x64480 ∧ o % 64 = 8 then 4096
  else if o = 0x80008 then 0x10000
  else if o = 0x80100 then Config.fusedCap
  else if o = 0x80108 then Config.fusedCap * 65536
  else if o = 0x80300 then mappedOut % 2 ^ 64
  else if o = 0x80308 then mappedOut / 2 ^ 64
  else 0

/-- A register of a window: die `d`, offset `o`; registers that act on the package are held at die 0. -/
def State.reg (s : State) (d o : Nat) : Nat :=
  (SMap.get (BitVec.ofNat 64 (regInit o)) s.regs (d * 2 ^ 20 + o)).toNat
/-- A register set. -/
def State.setReg (s : State) (d o v : Nat) : State :=
  { s with regs := SMap.set (BitVec.ofNat 64 (regInit o)) s.regs (d * 2 ^ 20 + o) (BitVec.ofNat 64 v) }
/-- A register of partition `p` (18 R367). -/
def State.preg (s : State) (p o : Nat) : Nat := s.reg 0 (0x40000 + 64 * p + o)

/-- The images are verified and that of the I/O die has not failed: its register windows and ports act (20 R399, R401). -/
def State.ioUp (s : State) : Bool :=
  let u := s.reg 0 0x80400
  bit u 0 || (bits u 39 32 != 0 && !bit u 37)

/-- Every image is verified and every stack has retrained (20 R399, R401): agents of the package may act. -/
def State.awake (s : State) : Bool :=
  let u := s.reg 0 0x80400
  (bit u 0 || (bits u 39 32 != 0 && bits u 37 36 == 0)) &&
  [0, 1, 2, 3].all (fun d => !bit (s.reg d 0x31028) 0 && !bit (s.reg d 0x31128) 0) && !s.d3

/-- HCST of a stack: its die and offset (16 R334). -/
def hcst (k : Nat) : Nat × Nat := (k / 2 % 4, 0x31028 + 0x100 * (k % 2))

/-- Some stack retrains: no HBM access is accepted until every one is done (20 R399). -/
def State.hbmBusy (s : State) : Bool := (List.range 8).any (fun k => bit (s.reg (hcst k).1 (hcst k).2) 0)

/-- Every core is held at zero clocks: the power cap lies below the package's idle power (20 R407). -/
def State.starved (s : State) : Bool := decide (s.reg 0 0x80100 < s.idlePw)

/-- The die's own firmware runs (20 R401). -/
def State.dieAwake (s : State) (d : Nat) : Bool := s.awake && !bit (s.reg 0 0x80400) (32 + d)

-- Physical bytes. HBM stands at its PA, vault v at 2^40 + v × 2^24, the host at 2^70, peer k at 2^80 × (k + 1).

/-- Bytes at a key. -/
def State.memRead (s : State) (k n : Nat) : List Byte := readBytes memDefault s.mem k n
/-- Bytes written at a key: the memory keeps its canonical form, and checks that the write covers whole are right
again (20 R405). -/
def State.memWrite (s : State) (k : Nat) (bs : List Byte) : State :=
  { s with
    mem := writeBytes memKeep s.mem k bs
    bad := s.bad.filter (fun b => !(decide (k ≤ b.1) && decide (b.1 + b.2 ≤ k + bs.length))) }
/-- Key of a vault byte. -/
def vaultKey (v off : Nat) : Nat := 2 ^ 40 + v * 2 ^ 24 + off
/-- A little-endian value of `n` bytes at a key. -/
def State.memNat (s : State) (k n : Nat) : Nat := leNat (s.memRead k n)

-- Ranges.

/-- The furthest end of the ranges that hold an address. -/
def reach (rs : List (Nat × Nat)) (p : Nat) : Nat :=
  rs.foldl (fun e r => if inRange p r then max e (r.1 + r.2) else e) p

/-- The first address from `p` on, below `hi`, that no range holds. -/
def uncovered (rs : List (Nat × Nat)) : Nat → Nat → Nat → Option Nat
  | 0, p, hi => if p < hi then some p else none
  | f + 1, p, hi => if hi ≤ p then none else if reach rs p = p then some p else uncovered rs f (reach rs p) hi

-- Errors in storage (20 R405).

/-- An uncorrectable error with no consumer is counted in IERR.UNC, which saturates. -/
def State.ierrUnc (s : State) : State :=
  let v := s.reg 0 0x80200
  s.setReg 0 0x80200 (v % 2 ^ 32 + min (2 ^ 32 - 1) (v / 2 ^ 32 + 1) * 2 ^ 32)

/-- A corrected error at a boundary of 20 R404 is counted in IERR.COR, which saturates. -/
def State.ierrCor (s : State) : State :=
  let v := s.reg 0 0x80200
  s.setReg 0 0x80200 (v - v % 2 ^ 32 + min (2 ^ 32 - 1) (v % 2 ^ 32 + 1))

/-- RSTSTAT.TRN (20 R400): some stack or link retrains. -/
def State.trnNow (s : State) : State :=
  s.setReg 0 0x80008 (s.reg 0 0x80008 % 2 ^ 16 +
    if s.hbmBusy || (List.range 24).any (fun p => s.reg 0 (0x91008 + 64 * p) % 16 == 1) then 2 ^ 16 else 0)

/-- Checks that writes of several pieces, each a first bit and a length in bits, cover whole are right again (20 R405). -/
def State.mend (s : State) (rs : List (Nat × Nat)) : State :=
  if s.bad.isEmpty then s
  else { s with bad := s.bad.filter (fun b => (uncovered rs (rs.length + 1) (8 * b.1) (8 * (b.1 + b.2))).isSome) }

/-- The first byte of pieces whose checks are wrong: its offset in the access and its address. -/
def State.badAt (s : State) : Nat → List Piece → Option (Nat × Nat)
  | _, [] => none
  | n, p :: l =>
    match (s.bad.filter (fun b => rangesMeet p.key p.len b.1 b.2)).map (fun b => max b.1 p.key - p.key) with
    | [] => State.badAt s (n + p.len) l
    | o :: os => some (n + os.foldl min o, p.va + os.foldl min o)

/-- A stored check over some of `n` bytes at a key is wrong. -/
def State.keyBad (s : State) (k n : Nat) : Bool := s.bad.any (fun b => rangesMeet k n b.1 b.2)

-- Windows (21 R413, R414) and translation (16 R324).

/-- A register of DMA window `w`. -/
def State.win (s : State) (w o : Nat) : Nat := s.reg 0 (0xA0000 + 32 * w + o)

/-- The window that covers a PA: the lowest-numbered enabled one. -/
def State.winFor (s : State) (pa : Nat) : Option Nat :=
  (List.range 32).find? (fun w =>
    bit (s.win w 24) 0 && decide (s.win w 0 ≤ pa) && decide (pa < s.win w 0 + s.win w 8))

/-- Offset of the registers of Valber Link port `p` (21 R416). -/
def vlPort (p : Nat) : Nat := 0x91000 + 64 * p

/-- A route leads to the package (21 R417): a valid entry whose port is up. -/
def State.routed (s : State) (peer : Nat) : Bool :=
  let e := s.reg 0 (0x98000 + 8 * peer)
  bit e 8 && bits (s.reg 0 (vlPort (bits e 4 0) + 8)) 3 0 == 3

/-- A page of the tables with its permissions; HBM pages keep their size, a page behind windows is taken in units of
64 KiB, which is what windows are made of. -/
def State.pageTo (s : State) (part va size pa perm : Nat) (ms : Bool) (want : Nat) : Option Tlb :=
  if pa < 2 ^ 39 then some { part, va, size, key := pa, perm, ms, win := 0 }
  else
    let off := (want - va) / 65536 * 65536
    let p := pa + off
    match s.winFor p with
    | none => none
    | some w =>
      let c := s.win w 24
      let wp := (if bit c 1 then 1 else 0) + (if bit c 2 then 2 else 0)
      let a := s.win w 16 + (p - s.win w 0)
      if bit c 4 then
        if s.routed (bits c 35 24) then
          some { part, va := va + off, size := 65536, key := 2 ^ 80 * (bits c 35 24 + 1) + a % 2 ^ 40,
                 perm := perm &&& wp, ms, win := 2, ppart := bits c 23 16 }
        else none
      else some { part, va := va + off, size := 65536, key := 2 ^ 70 + a % 2 ^ 64, perm := perm &&& wp, ms, win := 1 }

/-- The levels of the walk: shift of the index, its width, whether a leaf may stand there, log of the next table's
size in bytes. -/
def walkLevels : List (Nat × Nat × Bool × Nat) :=
  [(42, 15, false, 16), (29, 13, true, 11), (21, 8, true, 8), (16, 5, true, 0)]

/-- The walk from a table on (16 R324); an entry whose check is wrong ends it (20 R405). -/
def State.walkFrom (s : State) (part va : Nat) : Nat → List (Nat × Nat × Bool × Nat) → Option Tlb
  | _, [] => none
  | tab, (sh, w, leafOk, next) :: l =>
    let e := s.memNat (tab + 8 * (va / 2 ^ sh % 2 ^ w)) 8
    let pa := bits e 39 8 * 256
    if s.keyBad (tab + 8 * (va / 2 ^ sh % 2 ^ w)) 8 then none
    else if !bit e 0 || bit e 1 || bit e 6 || decide (2 ^ 40 ≤ e) then none
    else if bit e 2 then
      if !leafOk || pa % 2 ^ sh != 0 then none
      else s.pageTo part (va / 2 ^ sh * 2 ^ sh) (2 ^ sh) pa (bits e 5 3) (bit e 7) va
    else if next = 0 ∨ pa % 2 ^ next ≠ 0 ∨ bits e 7 3 ≠ 0 ∨ 2 ^ 39 ≤ pa then none
    else State.walkFrom s part va pa l

/-- The walk meets an entry whose check is wrong. -/
def State.walkBad (s : State) (part va : Nat) : Nat → List (Nat × Nat × Bool × Nat) → Bool
  | _, [] => false
  | tab, (sh, w, _, _) :: l =>
    let a := tab + 8 * (va / 2 ^ sh % 2 ^ w)
    let e := s.memNat a 8
    if s.keyBad a 8 then true
    else if !bit e 0 || bit e 2 then false
    else State.walkBad s part va (bits e 39 8 * 256) l

/-- A translation covers an address. -/
def Tlb.covers (t : Tlb) (part va : Nat) : Bool := t.part == part && decide (t.va ≤ va) && decide (va < t.va + t.size)

/-- The translation of a linear address for a core: its micro-translation cache, the cluster's cache, then the tables
(08 R173). -/
def State.xlate (s : State) (c part va : Nat) : Option Tlb :=
  match (s.core c).utlb.find? (·.covers part va) with
  | some t => some t
  | none =>
    match (SMap.get [] s.ctlb (c / 16)).find? (·.covers part va) with
    | some t => some t
    | none => s.walkFrom part va (s.preg part 8) walkLevels

/-- First address of the vault aperture. -/
def apBase : Nat := 0x1FFFFFF00000000

/-- A linear address has no translation because an entry of its tables carries an error. -/
def State.xlateBad (s : State) (c part va : Nat) : Bool :=
  decide (va < apBase) && (s.xlate c part va).isNone && s.walkBad part va (s.preg part 8) walkLevels

/-- A translation kept in the core's and the cluster's caches, which hold 64 and 4096 of them. -/
def State.keepTlb (s : State) (c : Nat) (t : Tlb) : State :=
  let s1 := s.modCore c (fun k => if t ∈ k.utlb then k else { k with utlb := (t :: k.utlb).take 64 })
  let l := SMap.get [] s1.ctlb (c / 16)
  if t ∈ l then s1 else { s1 with ctlb := SMap.put s1.ctlb (c / 16) ((t :: l).take 4096) }

-- The vault aperture (08 R170).

/-- Bits [56:32] are all ones. -/
def inAperture (va : Nat) : Bool := decide (apBase ≤ va) && decide (va < 2 ^ 57)

/-- The vault and offset of `n` bytes at an aperture address; `none` is cause 0x06. -/
def vaultAt (clu va n : Nat) : Option (Nat × Nat) :=
  let v := bits va 30 24
  let o := bits va 23 0
  let v' := if v = 127 then clu else v
  if bit va 31 || decide (72 ≤ v') || decide (o + n > 2 ^ 24) then none else some (v', o)

/-- A page does not grant an access: its permissions, an atomic on the host's memory, or no route to its peer (08 R173, 21 R415). -/
def State.denies (s : State) (perm : Nat) (atomic : Bool) (t : Tlb) : Bool :=
  t.perm &&& perm != perm || (atomic && t.win == 1) || (t.win == 2 && !s.routed (t.key / 2 ^ 80 - 1))

/-- The first address of a linear range that fails for another reason than an error in the tables: a page without a translation or a
permission, or one that `ok` refuses. Where a table entry carries an error (20 R405) the search goes on with the next 64 KiB, the
smallest page (16 R324). -/
def State.plainFail (s : State) (c part perm : Nat) (atomic : Bool) (ok : Tlb → Bool) : Nat → Nat → Nat → Option Nat
  | 0, _, _ => none
  | f + 1, va, n =>
    let next (y : Nat) : Option Nat := if va + n ≤ y then none else State.plainFail s c part perm atomic ok f y (va + n - y)
    if n = 0 then none
    else if apBase ≤ va then some va
    else match s.xlate c part va with
      | none => if s.xlateBad c part va then next (va / 65536 * 65536 + 65536) else some va
      | some t => if s.denies perm atomic t || !ok t then some va else next (t.va + t.size)

/-- The pieces of a linear range, page by page; `perm` is what the access needs, `atomic` an atomic. An error is the
first address that fails; of a range that begins below the vault aperture and runs on into it, the first byte of the aperture
(DESIGN CHOICE, log 94). -/
def State.linPieces (s : State) (c part perm : Nat) (atomic : Bool) : Nat → Nat → Nat → Except Nat (List Piece × List Tlb)
  | 0, _, _ => .ok ([], [])
  | f + 1, va, n =>
    if n = 0 then .ok ([], [])
    else if apBase ≤ va then .error va
    else match s.xlate c part va with
      | none => .error va
      | some t =>
        if s.denies perm atomic t then .error va
        else
          let m := min n (t.va + t.size - va)
          match State.linPieces s c part perm atomic f (va + m) (n - m) with
          | .error e => .error e
          | .ok (ps, ts) =>
            .ok ({ va, key := t.key + (va - t.va), len := m,
                   cls := if t.win ≠ 0 then .window else if t.ms then .ms else .cached } :: ps, t :: ts)

/-- The pieces of a memory range as a strand reaches it: a vault piece, or linear pieces with the translations used.
An error is cause 0x06 with its address; that of a
vault range that runs past its end is the range's own address (DESIGN CHOICE, log 75). -/
def State.pieces (s : State) (g va n perm : Nat) (atomic : Bool) : Except Nat (List Piece × List Tlb) :=
  if 2 ^ 57 ≤ va then .error (va % 2 ^ 57)
  else if inAperture va then
    match vaultAt (cluOf g) va n with
    | none => .error va
    | some (v, o) => .ok ([{ va, key := vaultKey v o, len := n, cls := if v = cluOf g then .own else .lateral }], [])
  else s.linPieces (coreOf g) (s.strand g).part perm atomic (n / 65536 + 2) va n

-- Regions (08 R174).

/-- A region grants the kinds of access in `acc` (1 read, 2 write). -/
def Region.grants (r : Region) (acc : Nat) : Bool := r.acc &&& acc == acc

/-- The ranges of linear memory in which a strand may make an access: those of records that grant all of it: declared regions, the frame, and in
handler mode its stack window (06 R137, 08 R174). -/
def linRanges (t : Strand) (g acc : Nat) : List (Nat × Nat) :=
  (t.regions.filter (fun r => r.kind == 1 && r.grants acc)).map (fun r => (r.base, r.len)) ++
  (if t.hmode then [(t.hstack + 4096 * g, 4096)] else [])

/-- The ranges of a vault in which a strand may make an access. -/
def vaultRanges (t : Strand) (v acc : Nat) : List (Nat × Nat) :=
  (t.regions.filter (fun r => r.kind == 2 && r.vault == v && r.grants acc)).map (fun r => (r.base, r.len))

/-- The first address of a memory range that no record grants the access (1 read, 2 write, 3 both): cause 0x20. -/
def undeclared (t : Strand) (g va n acc : Nat) : Option Nat :=
  if inAperture va then
    match vaultAt (cluOf g) va n with
    | none => some va
    | some (v, o) =>
      let rs := vaultRanges t v acc
      (uncovered rs (rs.length + 1) o (o + n)).map (fun x => va + (x - o))
  else
    let rs := linRanges t g acc
    uncovered rs (rs.length + 1) va (va + n)

/-- A mask of `n` bits from bit `i`. -/
def runMask (i n : Nat) : Nat := (2 ^ n - 1) * 2 ^ i

/-- The bytes of a line of `n` at a key whose stored check is wrong, as a mask. -/
def State.badMask (s : State) (k n : Nat) : Nat :=
  s.bad.foldl (fun m b =>
    if rangesMeet k n b.1 b.2 then m ||| runMask (max k b.1 - k) (min (k + n) (b.1 + b.2) - max k b.1) else m) 0

/-- The aligned 8-byte words that a mask holds whole. -/
def wholeWords (n m : Nat) : Nat :=
  (List.range (n / 8)).foldl (fun b w => if m / 2 ^ (8 * w) % 256 = 255 then b ||| runMask (8 * w) 8 else b) 0

/-- The runs of bytes that a mask selects, each with its offset. -/
def runsOf (mask : Nat) : Nat → List Byte → List (Nat × List Byte)
  | _, [] => []
  | i, b :: l =>
    let r := runsOf mask (i + 1) l
    if mask.testBit i then
      match r with
      | (j, bs) :: t => if j = i + 1 then (i, b :: bs) :: t else (i, [b]) :: r
      | [] => [(i, [b])]
    else r

/-- The words of a line at a key that hold bytes of a mask get wrong checks. -/
def State.markBad (s : State) (key n m : Nat) : State :=
  let ws := (List.range (n / 8)).filter (fun w => m / 2 ^ (8 * w) % 256 != 0)
  { s with bad := s.bad ++ ws.map (fun w => (key + 8 * w, 8)) }

/-- Bytes of a line written back at a key: the words of `bad` among them keep a wrong check, and an error that the write-back
finds, there or in what stands in memory, is counted. -/
def State.wbMasked (s : State) (key dirty bad : Nat) (bytes : List Byte) : State :=
  let s1 := (runsOf dirty 0 bytes).foldl (fun (s : State) r => s.memWrite (key + r.1) r.2) s
  let s2 := s1.markBad key bytes.length (dirty &&& bad)
  if s2.badMask key bytes.length &&& dirty = 0 then s2 else s2.ierrUnc

-- The data cache (08 R172).

/-- Bytes of a line changed where the list gives them. -/
def lineSet (bs : List Byte) (off : Nat) (new : List Byte) : List Byte :=
  bs.take off ++ new ++ bs.drop (off + new.length)

/-- A line's dirty bytes written back (14 R294). -/
def State.wbLine (s : State) (l : DLine) : State :=
  if l.dirty = 0 then s else s.wbMasked l.key l.dirty l.bad l.bytes

/-- The lines of a core that satisfy a test, written back; kept clean, or dropped when `inval`. -/
def State.wbLines (s : State) (c : Nat) (p : DLine → Bool) (inval : Bool) : State :=
  let ls := (s.core c).dc
  let rest := if inval then ls.filter (fun l => !p l) else ls.map (fun l => if p l then { l with dirty := 0, wrote := 0 } else l)
  ((ls.filter p).foldl State.wbLine s).modCore c (fun k => { k with dc := rest })

/-- The lines of a core that satisfy a test, dropped without a write-back. -/
def State.dropLines (s : State) (c : Nat) (p : DLine → Bool) : State :=
  s.modCore c (fun k => { k with dc := k.dc.filter (fun l => !p l) })

/-- A line of a core by partition and address. -/
def dcFind (c : Core) (part va : Nat) : Option DLine := c.dc.find? (fun l => l.part == part && l.va == va)

/-- A piece cut at the boundaries of 64-byte lines. -/
def cutLines : Nat → Piece → List Piece
  | 0, _ => []
  | f + 1, p =>
    if p.len = 0 then []
    else
      let m := min p.len (64 - p.va % 64)
      { p with len := m } :: cutLines f { p with va := p.va + m, key := p.key + m, len := p.len - m }

/-- The pieces an access is made in: cached pieces line by line, others whole. -/
def cutPiece (p : Piece) : List Piece := if p.cls = .cached then cutLines (p.len / 64 + 2) p else [p]

/-- The set of a line: 64 KiB in 4 ways of 64-byte lines (08 R172); the choice by the low bits of the line's number is log
73's. -/
def dcSet (va : Nat) : Nat := va / 64 % 256

/-- Room made for a line: where its set holds four, one of them leaves, written back; which one is open (log 73). -/
def State.dcRoom (s : State) (c va : Nat) : State :=
  let ls := (s.core c).dc.filter (fun l => dcSet l.va == dcSet va)
  if ls.length < 4 then s
  else match ls[(Config.free64 s.fresh).toNat % ls.length]? with
    | some l => ({ s with fresh := s.fresh + 1 } : State).wbLines c (fun x => x.part == l.part && x.va == l.va) true
    | none => s

/-- The line of a piece in the core's cache, filled if it is not there. -/
def State.fill (s : State) (c part : Nat) (p : Piece) : State × DLine :=
  let lva := p.va / 64 * 64
  match dcFind (s.core c) part lva with
  | some l => (s, l)
  | none =>
    let lk := p.key - p.va % 64
    let s1 := s.dcRoom c lva
    let l : DLine := { part, va := lva, key := lk, bytes := s1.memRead lk 64, dirty := 0, writer := 0, bad := s1.badMask lk 64 }
    (s1.modCore c (fun k => { k with dc := l :: k.dc }), l)

/-- The first byte of a piece whose data carries an error: in its line where the cache holds it, else in storage. -/
def State.pieceBad (s : State) (c part : Nat) (p : Piece) : Option Nat :=
  match (if p.cls = .cached then dcFind (s.core c) part (p.va / 64 * 64) else none) with
  | some l => (List.range p.len).find? (fun j => l.bad.testBit (p.va % 64 + j))
  | none => (s.badAt 0 [p]).map Prod.fst

/-- The first byte of an access whose data carries an error: its offset and its address. -/
def State.loadBad (s : State) (c part : Nat) : Nat → List Piece → Option (Nat × Nat)
  | _, [] => none
  | n, p :: l =>
    match s.pieceBad c part p with
    | some o => some (n + o, p.va + o)
    | none => State.loadBad s c part (n + p.len) l

/-- One piece read. -/
def State.readPiece (s : State) (c part : Nat) (p : Piece) : State × List Byte :=
  if p.cls = .cached then
    let r := s.fill c part p
    (r.1, (r.2.bytes.drop (p.va % 64)).take p.len)
  else (s, s.memRead p.key p.len)

/-- One piece written by strand `g`. -/
def State.writePiece (s : State) (g part : Nat) (p : Piece) (bs : List Byte) : State :=
  if p.cls = .cached then
    let r := s.fill (coreOf g) part p
    let i := p.va % 64
    let seq := match (s.strand g).task with | some k => k.seq | none => 0
    let m := runMask i p.len
    let l := { r.2 with bytes := lineSet r.2.bytes i (bs.take p.len), dirty := r.2.dirty ||| m, writer := g, wseq := seq,
                        wrote := r.2.wrote ||| 2 ^ (g % 4), bad := r.2.bad - (r.2.bad &&& wholeWords 64 m) }
    r.1.modCore (coreOf g) (fun k =>
      let rest := k.dc.map (fun x => if x.part == part && x.va == l.va then l else x)
      { k with dc := rest })
  else s.memWrite p.key (bs.take p.len)

/-- Pieces read in order. -/
def State.readPieces (s : State) (c part : Nat) : List Piece → State × List Byte
  | [] => (s, [])
  | p :: l =>
    let r := s.readPiece c part p
    let q := State.readPieces r.1 c part l
    (q.1, r.2 ++ q.2)

/-- Pieces written in order. -/
def State.writePieces (s : State) (g part : Nat) : List Piece → List Byte → State
  | [], _ => s
  | p :: l, bs => State.writePieces (s.writePiece g part p bs) g part l (bs.drop p.len)

/-- A range read through the data cache of core `c`. -/
def State.load (s : State) (c part : Nat) (ps : List Piece) : State × List Byte :=
  s.readPieces c part (ps.flatMap cutPiece)

/-- A range written by strand `g`. -/
def State.store (s : State) (g part : Nat) (ps : List Piece) (bs : List Byte) : State :=
  s.writePieces g part (ps.flatMap cutPiece) bs

/-- A range read below the data caches (09 R212). -/
def State.loadBelow (s : State) : List Piece → List Byte
  | [] => []
  | p :: l => s.memRead p.key p.len ++ State.loadBelow s l

/-- A range written below the data caches. -/
def State.storeBelow (s : State) (ps : List Piece) (bs : List Byte) : State :=
  (go s ps bs).mend (ps.map (fun p => (8 * p.key, 8 * p.len)))
where
  /-- Piece by piece. -/
  go (s : State) : List Piece → List Byte → State
    | [], _ => s
    | p :: l, bs => go (s.memWrite p.key (bs.take p.len)) l (bs.drop p.len)

/-- Pieces behind fabric windows, which are reached by requests to peers (21 R417). -/
def farPieces (ps : List Piece) : List Piece := ps.filter (fun p => decide (2 ^ 80 ≤ p.key))

/-- The location of a record behind a fabric window carries the peer partition in which its spawns and joins act, above the
peer's address (21 R413, R420). -/
def recLoc (ppart key : Nat) : Nat := if 2 ^ 80 ≤ key then key + 2 ^ 64 * ppart else key
/-- The key of a record's bytes. -/
def recKey (loc : Nat) : Nat := if 2 ^ 80 ≤ loc then loc / 2 ^ 80 * 2 ^ 80 + loc % 2 ^ 64 else loc
/-- The peer partition that a record's location carries. -/
def recPpart (loc : Nat) : Nat := loc / 2 ^ 64 % 256

/-- Two lists of pieces share a byte. -/
def piecesMeet (a b : List Piece) : Bool := a.any (fun p => b.any (fun q => rangesMeet p.key p.len q.key q.len))

end Sys2Proof.Machine
end

