-- ==== Sys2Proof/Machine/Link.lean ====
section
/-! DEFINITION. The ports of the Valber Link as the requests of the package use them (21 R417, R418): flits and their check,
allowances, the replay buffer, requests under way, and requests whose port has left state 3 (21 R419). -/

namespace Sys2Proof.Machine

/-- The state with a step added to the due work of the agents. -/
def State.due (s : State) (i : Instr) : State := { s with work := s.work ++ [i] }

/-- `n` bytes that the manual leaves open, from the free values from `k` on, eight of each. -/
def freeBytes (k n : Nat) : List Byte :=
  (List.range n).map (fun i => BitVec.ofNat 8 ((Config.free64 (k + i / 8)).toNat / 2 ^ (8 * (i % 8))))

/-- CRC-64 of ECMA-182, most significant bit first (19 R397, 21 R418): one bit. -/
def crcBit (c : Nat) (b : Bool) : Nat :=
  let top := c.testBit 63 != b
  (c * 2 % 2 ^ 64) ^^^ (if top then 0x42F0E1EBA9EA3693 else 0)

/-- CRC-64 over bytes. -/
def crc64 (c : Nat) (bs : List Byte) : Nat :=
  bs.foldl (fun c b => [7, 6, 5, 4, 3, 2, 1, 0].foldl (fun c i => crcBit c (b.getLsbD i)) c) c

/-- The state of a port (21 R416). -/
def State.vlState (s : State) (p : Nat) : Nat := bits (s.reg 0 (vlPort p + 8)) 3 0
/-- A port beside its registers. -/
def State.port (s : State) (p : Nat) : Port := SMap.get {} s.ports p
/-- A port changed. -/
def State.modPort (s : State) (p : Nat) (f : Port → Port) : State :=
  { s with ports := SMap.put s.ports p (f (s.port p)) }
/-- The package's own id. -/
def State.pkgId (s : State) : Nat := s.reg 0 0x90000 % 4096

/-- VC of a flit. -/
def flitVc (f : List Byte) : Nat := fieldAt f 1 1 % 4
/-- DEST of a flit. -/
def flitDest (f : List Byte) : Nat := fieldAt f 4 2 % 4096

/-- A flit as a port sends it: its sequence number, the allowance it returns and its check replaced. -/
def flitOut (seq allow : Nat) (f : List Byte) : List Byte :=
  let b := f.take 2 ++ leBytes 2 seq ++ (f.drop 4).take 2 ++ leBytes 1 allow ++ (f.drop 7).take 241
  b ++ leBytes 8 (crc64 0 b)

/-- An idle flit that returns one buffer of a channel. -/
def flitIdle (vc : Nat) : List Byte :=
  let b := leBytes 6 0 ++ leBytes 1 (vc + 4) ++ List.replicate 241 0#8
  b ++ leBytes 8 (crc64 0 b)

/-- A flit sent: it takes the channel's allowance and the next sequence number, and stays in the replay buffer. -/
def State.sendFlit (s : State) (q : Nat) (f : List Byte) : State :=
  s.modPort q (fun t =>
    let x := flitOut t.txSeq 0 f
    { t with
      allow := t.allow.set (flitVc f) (t.allow.getD (flitVc f) 0 - 1)
      tx := t.tx ++ [x]
      txSeq := (t.txSeq + 1) % 65536
      replay := (t.replay ++ [x]).drop (t.replay.length - 127) })

-- Requests of the package.

/-- A flit of a request as it waits: type, channel and destination. How a request is laid out in its payload is open: the bytes
are the free values from `k` on (DESIGN CHOICE, log 82). -/
def reqFlit (k type vc dest : Nat) : List Byte :=
  leBytes 1 type ++ leBytes 1 vc ++ leBytes 2 0 ++ leBytes 2 dest ++ leBytes 2 0 ++ freeBytes k 240 ++ leBytes 8 0

/-- The flits of a request that carries `n` bytes: as many as hold them, and one at least (DESIGN CHOICE, log 82). -/
def flitsFor (n : Nat) : Nat := max 1 (ceilDiv n 240)

/-- The waiting flits of a port looked at in order: each leaves while its channel has an allowance; `kept` are those that stay. -/
def State.pushFlits (s : State) (p : Nat) (kept : List (Nat × List Byte)) : List (Nat × List Byte) → State
  | [] => s.modPort p (fun q => { q with wait := kept })
  | e :: l =>
    if (s.port p).allow.getD (flitVc e.2) 0 = 0 ∨ kept.any (fun k => flitVc k.2 == flitVc e.2) then
      State.pushFlits s p (kept ++ [e]) l
    else State.pushFlits (s.sendFlit p e.2) p kept l

/-- No flit of a request waits for an allowance. -/
def State.sent (s : State) (id : Nat) : Bool := s.ports.all (fun p => p.2.wait.all (fun e => e.1 != id))

/-- The number of the request that writes a tile of cluster `u` back to its peer, its first byte at key `a` (21 R421). -/
def tileReq (u a : Nat) : Nat := 2 ^ 64 * (a + 1) + u

/-- The number of a request that nothing waits for: what the package answers a peer. -/
def postedReq (n : Nat) : Nat := 2 ^ 64 + 2 ^ 32 + n

/-- Every tile that cluster `u` has written back to a peer is performed there. -/
def State.tilesSent (s : State) (u : Nat) : Bool := s.tileOut.all (fun e => e.1 % 2 ^ 64 != u)

/-- Requests that nothing waits for are over once they are sent. -/
def State.postedOver (s : State) : State :=
  { s with flights := s.flights.filter (fun f =>
      decide (f.id < 2 ^ 64) || decide (f.id % 2 ^ 64 < 2 ^ 32) || !s.sent f.id || s.vlState f.port != 3) }

/-- A port sends what its allowances let it; only idle flits and retransmissions during a freeze (21 R423). -/
def State.pushPort (s : State) (p : Nat) : State :=
  if s.frz ≠ 0 ∨ s.vlState p ≠ 3 ∨ (s.port p).wait.isEmpty then s else (s.pushFlits p [] (s.port p).wait).postedOver

/-- A request of the package leaves for a peer by the port that the route table names (21 R417): its flits join those that wait
there. Without a route it is lost at once (21 R419). -/
def State.request (s : State) (id peer type vc n : Nat) : State :=
  if s.routed peer then
    let p := bits (s.reg 0 (0x98000 + 8 * peer)) 4 0
    let m := flitsFor n
    let fs := (List.range m).map (fun i => (id, reqFlit (s.fresh + 30 * i) type vc peer))
    (({ s with fresh := s.fresh + 30 * m, flights := s.flights ++ [⟨id, peer, p⟩] } : State).modPort p
      (fun q => { q with wait := q.wait ++ fs })).pushPort p
  else ({ s with flights := s.flights ++ [⟨id, peer, 32⟩] } : State).due (.pathLost 32)

/-- The peer whose memory a key names. -/
def peerOf (key : Nat) : Nat := key / 2 ^ 80 - 1

/-- The request of an access to pieces behind fabric windows: a read, or a write of their bytes. -/
def State.requestPieces (s : State) (id : Nat) (write : Bool) (ps : List Piece) : State :=
  (farPieces ps).foldl (fun (s : State) p => s.request id (peerOf p.key) 1 0 (if write then p.len else 0)) s

/-- A request has left by a port that is not up any more (21 R419). -/
def State.lostReq (s : State) (id : Nat) : Bool := s.flights.any (fun f => f.id == id && s.vlState f.port != 3)

/-- What a request asks for may be done at its peer: it has been sent and its path stands. An operation that needs no peer has
no request. -/
def State.ready (s : State) (id : Nat) : Bool := s.sent id && !s.lostReq id

/-- The bytes of an access at `va` that a strand's issue waits for are there: none lies behind a fabric window, or the request for
them has been sent (21 R417). -/
def State.asked (s : State) (g va : Nat) (ps : List Piece) : Bool :=
  (farPieces ps).isEmpty || (s.strand g).asks.any (fun a => a.1 == va && s.ready a.2)

/-- The bytes of an access are asked of their peers, unless they have been. -/
def State.ask (s : State) (g va : Nat) (ps : List Piece) : State :=
  if (s.strand g).asks.any (fun a => a.1 == va) then s
  else (({ s with nid := s.nid + 1 } : State).requestPieces s.nid false ps).modStrand g (fun t =>
    { t with asks := (va, s.nid) :: t.asks })

/-- A request is over. -/
def State.landed (s : State) (id : Nat) : State :=
  if s.flights.any (fun f => f.id == id) then { s with flights := s.flights.filter (fun f => f.id != id) } else s

/-- The bytes asked for at an address are used. -/
def State.askOver (s : State) (g va : Nat) : State :=
  match (s.strand g).asks.find? (fun a => a.1 == va) with
  | none => s
  | some a => (s.landed a.2).modStrand g (fun t => { t with asks := t.asks.filter (fun x => x.1 != va) })

/-- A strand waits for no bytes any more: what it has asked for is not used. -/
def State.asksOver (s : State) (g : Nat) : State :=
  if (s.strand g).asks.isEmpty then s
  else ((s.strand g).asks.foldl (fun (s : State) a => s.landed a.2) s).modStrand g (fun t => { t with asks := [] })

end Sys2Proof.Machine
end

