-- ==== Sys2Proof/Machine/Tensor.lean ====
section
/-! DEFINITION. Tensors: layout records (16 R327-R330), the tile cache (14 R291-R293), rectangles of elements, rows of
memory-side tensors, and the region check of tensor endpoints (14 R302). An item of a tensor is an element of a dense
code or a whole block of a block code, held as a natural of its bits. -/

namespace Sys2Proof.Machine

/-- The fields of a layout record. -/
def layOf (peer : Option Nat) (b : List Byte) : Lay where
  fc := fieldAt b 0 1
  ms := bit (fieldAt b 1 1) 0
  decay := fieldAt b 2 2
  pad := fieldAt b 4 4
  base := fieldAt b 8 8
  rows := fieldAt b 16 2
  cols := fieldAt b 18 2
  n2 := fieldAt b 20 2
  n3 := fieldAt b 22 2
  smask := fieldAt b 24 1
  sgran := fieldAt b 25 1
  rslot := fieldAt b 26 1
  peer := peer

/-- Items of a row: columns, or blocks. -/
def Lay.width (l : Lay) : Nat := if fcBlock l.fc then ceilDiv l.cols (fcPer l.fc) else l.cols
/-- Bits of an item. -/
def itemBits (fc : Nat) : Nat := if fcBlock fc then 512 else fcWidth fc
/-- Columns that an item holds. -/
def itemCols (fc : Nat) : Nat := if fcBlock fc then fcPer fc else 1
/-- Row bytes (16 R328). -/
def Lay.rowBytes (l : Lay) : Nat := ceilDiv (l.width * itemBits l.fc) 8
/-- Rows and columns of a tile, the columns counted in items (14 R292). -/
def tileShape (fc : Nat) : Nat × Nat :=
  if fcBlock fc then (1, 8)
  else match fcWidth fc with
    | 32 => (8, 16) | 16 => (16, 16) | 8 => (16, 32) | _ => (32, 32)
/-- Kept through the tile cache: not memory-side, or remote (14 R291, 21 R421). -/
def Lay.cached (l : Lay) : Bool := !l.ms || l.peer.isSome
/-- Tile rows and tile columns of a plane. -/
def Lay.tileGrid (l : Lay) : Nat × Nat :=
  (ceilDiv l.rows (tileShape l.fc).1, ceilDiv l.width (tileShape l.fc).2)
/-- Bytes of a unit (16 R329). -/
def Lay.unitSize (l : Lay) : Nat := if l.ms then 2 ^ l.rslot else 512
/-- Units of the tensor. -/
def Lay.units (l : Lay) : Nat :=
  if l.ms then l.rows * l.n2 * l.n3 else l.tileGrid.1 * l.tileGrid.2 * l.n2 * l.n3

/-- The stacks of a mask, in rising order. -/
def setBits (m : Nat) : List Nat := (List.range 8).filter (fun i => bit m i)

/-- SOFF of a unit within its stack (16 R329). -/
def Lay.unitOff (l : Lay) (u : Nat) : Nat :=
  let k := (setBits l.smask).length
  l.base + l.unitSize * (u / 2 ^ l.sgran / k * 2 ^ l.sgran + u % 2 ^ l.sgran)

/-- The stack of a unit (16 R329). -/
def Lay.unitStack (l : Lay) (u : Nat) : Nat :=
  let st := setBits l.smask
  st.getD (u / 2 ^ l.sgran % st.length) 0

/-- Memory key of a unit. -/
def Lay.unitKey (l : Lay) (u : Nat) : Nat :=
  (match l.peer with | some p => 2 ^ 80 * (p + 1) | none => 0) + l.unitStack u * 2 ^ 36 + l.unitOff u

/-- A malformed layout record (16 R328, R329). -/
def layBad (b : List Byte) : Bool :=
  let l := layOf none b
  let st := fcStamped l.fc
  !(fcDense l.fc || fcBlock l.fc) || fieldAt b 1 1 / 2 != 0 || (!st && l.decay != 0) ||
  decide (2 ^ (if fcWidth l.fc ≤ 32 then fcWidth l.fc else 32) ≤ l.pad) ||
  l.base % 4096 != 0 || decide (2 ^ 36 ≤ l.base) ||
  l.rows == 0 || l.cols == 0 || (fcBlock l.fc && l.cols % fcPer l.fc != 0) ||
  l.n2 == 0 || decide (4096 < l.n2) || l.n3 == 0 || decide (4096 < l.n3) ||
  l.smask == 0 || decide (15 < l.sgran) ||
  (if l.ms then decide (l.rslot < 6) || decide (12 < l.rslot) || decide (2 ^ l.rslot < l.rowBytes) else l.rslot != 0) ||
  (b.drop 27).any (fun x => x != 0#8) ||
  (List.range (min l.units ((setBits l.smask).length * 2 ^ l.sgran))).any
    (fun i => decide (2 ^ 36 < l.unitOff (l.units - 1 - i) + l.unitSize))

/-- The layout record of a handle in a partition: the layout table, then the fabric handle table with the peer's own
record (16 R327, 21 R421). -/
def State.lay (s : State) (part h : Nat) : Option Lay :=
  match s.layout.find? (fun b => b.part == part && b.handle == h) with
  | some b => some (layOf none b.bytes)
  | none =>
    match s.fabric.find? (fun f => f.part == part && f.handle == h) with
    | none => none
    | some f =>
      (s.peerLay.find? (fun r => r.1 == f.peer && r.2.1 == f.ppart && r.2.2.1 == f.phandle)).map
        (fun r => layOf (some f.peer) r.2.2.2)

/-- The handle is bound, in either table (21 R421). -/
def State.bound (s : State) (part h : Nat) : Bool :=
  s.layout.any (fun b => b.part == part && b.handle == h) || s.fabric.any (fun f => f.part == part && f.handle == h)

/-- A place in a tensor: row, item of the row, third and fourth index. -/
structure Pos where
  r : Nat
  c : Nat
  i2 : Nat
  i3 : Nat
  deriving DecidableEq, Repr

/-- The place lies within the extents. -/
def Lay.inside (l : Lay) (p : Pos) : Bool :=
  decide (p.r < l.rows) && decide (p.c < l.width) && decide (p.i2 < l.n2) && decide (p.i3 < l.n3)

/-- Elements packed from bit 0. -/
def packBits (w : Nat) : List Nat → Nat
  | [] => 0
  | e :: l => e % 2 ^ w + 2 ^ w * packBits w l

/-- What an item outside the extents reads as (16 R330). -/
def Lay.padItem (l : Lay) : Nat :=
  if fcBlock l.fc then
    let ty := fcType l.fc
    let aux := if ty = 7 ∨ ty = 8 then 127 - fcParam l.fc else 0
    let w := fcWidth l.fc
    l.fc + 127 * 2 ^ 8 + aux * 2 ^ 16 + packBits w (List.replicate (fcPer l.fc) l.pad) * 2 ^ 32
  else l.pad % 2 ^ fcWidth l.fc

/-- Flat row of a place (16 R329). -/
def Lay.flat (l : Lay) (p : Pos) : Nat := (p.i3 * l.n2 + p.i2) * l.rows + p.r

/-- The tile that holds a place: its coordinates. -/
def Lay.tileOf (l : Lay) (p : Pos) : Pos :=
  { p with r := p.r / (tileShape l.fc).1, c := p.c / (tileShape l.fc).2 }

/-- The index of a tile. -/
def Lay.tileIx (l : Lay) (t : Pos) : Nat :=
  ((t.i3 * l.n2 + t.i2) * l.tileGrid.1 + t.r) * l.tileGrid.2 + t.c

/-- Number of a place's item within its tile. -/
def Lay.inTile (l : Lay) (p : Pos) : Nat :=
  p.r % (tileShape l.fc).1 * (tileShape l.fc).2 + p.c % (tileShape l.fc).2

/-- Key of the unit that holds a place within the extents, and the bit of its item in the unit. -/
def Lay.place (l : Lay) (p : Pos) : Nat × Nat :=
  if l.ms then (l.unitKey (l.flat p), p.c * itemBits l.fc)
  else (l.unitKey (l.tileIx (l.tileOf p)), l.inTile p * itemBits l.fc)

/-- Bytes that an item touches. -/
def itemBytes (fc : Nat) : Nat := max 1 (itemBits fc / 8)

/-- An item from its bytes, for a bit offset in the first. -/
def itemFrom (fc b : Nat) (bs : List Byte) : Nat := leNat bs / 2 ^ (b % 8) % 2 ^ itemBits fc

/-- The bytes of an item with a new value; a nibble keeps its neighbour. -/
def itemInto (fc b v : Nat) (old : List Byte) : List Byte :=
  if itemBits fc < 8 then
    let o := leNat old
    [BitVec.ofNat 8 (o - o / 2 ^ (b % 8) % 16 * 2 ^ (b % 8) + v % 16 * 2 ^ (b % 8))]
  else leBytes (itemBytes fc) v

/-- An item read below the caches (16 R330). -/
def State.itemRead (s : State) (l : Lay) (p : Pos) : Nat :=
  if l.inside p then
    let a := l.place p
    itemFrom l.fc a.2 (s.memRead (a.1 + a.2 / 8) (itemBytes l.fc))
  else l.padItem

/-- An item written below the caches; one outside the extents is discarded. -/
def State.itemWrite (s : State) (l : Lay) (p : Pos) (v : Nat) : State :=
  if l.inside p then
    let a := l.place p
    let k := a.1 + a.2 / 8
    s.memWrite k (itemInto l.fc a.2 v (s.memRead k (itemBytes l.fc)))
  else s

-- The tile cache.

/-- The line holds the tile. -/
def TLine.isTile (x : TLine) (part h : Nat) (t : Pos) : Bool :=
  x.part == part && x.handle == h && x.tr == t.r && x.tc == t.c && x.i2 == t.i2 && x.i3 == t.i3

/-- The place of item `j` of a tile. -/
def Lay.tilePos (l : Lay) (t : Pos) (j : Nat) : Pos :=
  let sh := tileShape l.fc
  { t with r := t.r * sh.1 + j / sh.2, c := t.c * sh.2 + j % sh.2 }

/-- Items of a tile. -/
def tileItems (fc : Nat) : Nat := 4096 / itemBits fc

/-- The bits of a tile that items at some places within the extents occupy. -/
def Lay.bitsOf (l : Lay) (t : Pos) (ps : List Pos) : Nat :=
  ps.foldl (fun m p => if l.inside p && l.tileOf p == t then m ||| runMask (l.inTile p * itemBits l.fc) (itemBits l.fc) else m) 0

/-- The bytes of the 8-byte words of a tile that a mask of its bits holds whole. -/
def wordsOfBits (m : Nat) : Nat :=
  (List.range 64).foldl (fun b w => if m / 2 ^ (64 * w) % 2 ^ 64 = 2 ^ 64 - 1 then b ||| runMask (8 * w) 8 else b) 0

/-- Items as bytes (02 R46). -/
def packItems (fc : Nat) : List Nat → List Byte
  | [] => []
  | [x] => if itemBits fc < 8 then [BitVec.ofNat 8 (x % 16)] else leBytes (itemBits fc / 8) x
  | x :: y :: l =>
    if itemBits fc < 8 then BitVec.ofNat 8 (x % 16 + y % 16 * 16) :: packItems fc l
    else leBytes (itemBits fc / 8) x ++ packItems fc (y :: l)

/-- The first `n` items of `w` bytes each. -/
def itemsOf (w : Nat) : Nat → List Byte → List Nat
  | 0, _ => []
  | n + 1, bs => leNat (bs.take w) :: itemsOf w n (bs.drop w)

/-- The first `n` items of packed bytes; of items of four bits, the one in the low bits of a byte comes first. -/
def unpackItems (fc n : Nat) (bs : List Byte) : List Nat :=
  if itemBits fc < 8 then (bs.flatMap (fun b => [b.toNat % 16, b.toNat / 16])).take n
  else itemsOf (itemBits fc / 8) n bs

/-- The bits of byte `b` of a tile that belong to elements within the extents. -/
def Lay.byteMask (l : Lay) (t : Pos) (b : Nat) : Nat :=
  if itemBits l.fc < 8 then
    (if l.inside (l.tilePos t (2 * b)) then 15 else 0) + (if l.inside (l.tilePos t (2 * b + 1)) then 240 else 0)
  else if l.inside (l.tilePos t (8 * b / itemBits l.fc)) then 255 else 0

/-- A line's tile coordinates. -/
def TLine.pos (x : TLine) : Pos := { r := x.tr, c := x.tc, i2 := x.i2, i3 := x.i3 }

/-- Dirty bytes of a line put over the bytes of its tile, where they lie within the extents. -/
def overlay (l : Lay) (x : TLine) (bs : List Byte) : List Byte :=
  ((bs.zip x.bytes).zip (List.range bs.length)).map (fun e =>
    let m := if x.dirty.testBit e.2 then BitVec.ofNat 8 (l.byteMask x.pos e.2) else 0#8
    (e.1.1 &&& ~~~m) ||| (e.1.2 &&& m))

/-- A tile as the layout unit reads it, elements outside the extents padded (14 R293, 16 R330). A tile of a peer is read after the
write-backs of it that are on their way. -/
def State.tileRead (s : State) (part h : Nat) (l : Lay) (t : Pos) : List Byte :=
  (s.tileOut.filter (fun e => e.2.1.isTile part h t && e.2.2 == l)).foldl (fun bs e => overlay l e.2.1 bs)
    (packItems l.fc ((List.range (tileItems l.fc)).map (fun j => s.itemRead l (l.tilePos t j))))

/-- The key of byte `b` of a tile; the tensor of a peer may be laid out by rows (21 R421). -/
def Lay.byteKey (l : Lay) (t : Pos) (b : Nat) : Nat :=
  if l.ms then
    let j := 8 * b / itemBits l.fc
    let a := l.place (l.tilePos t j)
    a.1 + a.2 / 8 + (b - j * itemBits l.fc / 8)
  else l.unitKey (l.tileIx t) + b

/-- Bytes of a tile written to memory one by one, those bits of each that lie within the extents: each with its number in the tile.
The words of `bad` among them keep a wrong check, those that are written whole have a right one, and an error that the write-back
finds is counted (20 R405). -/
def State.tilePut (s : State) (l : Lay) (t : Pos) (bad : Nat) (bs : List (Byte × Nat)) : State :=
  let put (s : State) (e : Byte × Nat) : State :=
    let k := l.byteKey t e.2
    let m := BitVec.ofNat 8 (l.byteMask t e.2)
    s.memWrite k ((s.memRead k 1).map (fun o => (o &&& ~~~m) ||| (e.1 &&& m)))
  let whole := (bs.filter (fun e => l.byteMask t e.2 == 255)).map (fun e => (8 * l.byteKey t e.2, 8))
  let s1 := (bs.foldl put s).mend whole
  let s2 : State := { s1 with bad := s1.bad ++ (bs.filter (fun e => bad.testBit e.2)).map (fun e => (l.byteKey t e.2 / 8 * 8, 8)) }
  if bs.any (fun e => s2.keyBad (l.byteKey t e.2) 1) then s2.ierrUnc else s2

/-- The dirty bytes of a tile written to memory, those outside the extents discarded (14 R293): a tile that lies whole in its unit
by runs of bytes, a tile of a tensor laid out by rows byte by byte (21 R421). -/
def State.tileBytes (s : State) (l : Lay) (t : Pos) (dirty bad : Nat) (bytes : List Byte) : State :=
  let ix := (bytes.zip (List.range bytes.length)).filter (fun e => dirty.testBit e.2 && l.byteMask t e.2 != 0)
  if l.ms then s.tilePut l t bad ix
  else
    let whole := (ix.filter (fun e => l.byteMask t e.2 == 255)).foldl (fun m e => m + 2 ^ e.2) 0
    (s.wbMasked (l.unitKey (l.tileIx t)) whole bad bytes).tilePut l t bad (ix.filter (fun e => l.byteMask t e.2 != 255))

/-- The tile-cache lines of a cluster that satisfy a test lose their dirty bytes to memory by `f`; dropped when
`inval`. -/
def State.tilesOut (s : State) (u : Nat) (f : State → TLine → State) (p : TLine → Bool) (inval : Bool) : State :=
  let ls := SMap.get [] s.tiles u
  let rest := if inval then ls.filter (fun l => !p l) else ls.map (fun l => if p l then { l with dirty := 0 } else l)
  let s1 := (ls.filter p).foldl f s
  { s1 with tiles := SMap.put s1.tiles u rest }

/-- Tiles on their way back to peers whose request has been sent are written there, in order (21 R421), through the layout that they
left by, whatever the handle is bound to since (16 R331). -/
def State.tilesLand (s : State) : State :=
  s.tileOut.foldl (fun (s : State) e =>
    if s.ready e.1 then
      (({ s with tileOut := s.tileOut.filter (fun x => x != e) } : State).landed e.1).tileBytes e.2.2 e.2.1.pos e.2.1.dirty
        e.2.1.bad e.2.1.bytes
    else s) s

/-- A line written back (14 R293); through no binding its bytes have nowhere to go. A tile of a peer leaves as a request, and is
written there once that has been sent; without a route it is lost (21 R419, R421). -/
def State.wbTile (u : Nat) (s : State) (x : TLine) : State :=
  if x.dirty = 0 then s
  else match s.lay x.part x.handle with
    | some l =>
      if !l.cached then s
      else match l.peer with
        | none => s.tileBytes l x.pos x.dirty x.bad x.bytes
        | some p =>
          let id := tileReq u (l.byteKey x.pos 0)
          (({ s with tileOut := s.tileOut ++ [(id, x, l)] } : State).request id p 4 2 512).tilesLand
    | none => s

/-- The lines of a cluster that satisfy a test written back, and dropped when `inval`. -/
def State.wbTiles (s : State) (u : Nat) (p : TLine → Bool) (inval : Bool) : State := s.tilesOut u (State.wbTile u) p inval

/-- The lines of a cluster that satisfy a test, dropped without a write-back. -/
def State.dropTiles (s : State) (u : Nat) (p : TLine → Bool) : State :=
  { s with tiles := SMap.put s.tiles u ((SMap.get [] s.tiles u).filter (fun l => !p l)) }

/-- The line of a tile in a cluster's cache. -/
def State.tileFind (s : State) (u part h : Nat) (t : Pos) : Option TLine :=
  (SMap.get [] s.tiles u).find? (fun x => x.isTile part h t)

/-- The set of a tile-cache line: 512 sets, chosen by a hash of the tag that nobody can observe (14 R291). -/
def tileSetOf (part h : Nat) (t : Pos) : Nat := Config.tileHash part h t.r t.c t.i2 t.i3 % 512

/-- Room made for a line of a cluster's tile cache (14 R291): where its set holds sixteen, one of them leaves, written back;
which one is open (log 73). -/
def State.tileRoom (s : State) (u part h : Nat) (t : Pos) : State :=
  let ls := SMap.get [] s.tiles u
  if ls.length < 16 then s
  else
    let l := ls.filter (fun x => tileSetOf x.part x.handle x.pos == tileSetOf part h t)
    if l.length < 16 then s
    else match l[(Config.free64 s.fresh).toNat % l.length]? with
      | some x => ({ s with fresh := s.fresh + 1 } : State).wbTiles u (fun y => y.isTile x.part x.handle x.pos) true
      | none => s

/-- The bytes of a tile whose stored check is wrong, as a mask (20 R405). -/
def State.tileBad (s : State) (l : Lay) (t : Pos) : Nat :=
  if s.bad.isEmpty then 0 else if l.ms then (List.range 512).foldl (fun m b => if s.keyBad (l.byteKey t b) 1 then m + 2 ^ b else m) 0
  else s.badMask (l.unitKey (l.tileIx t)) 512

/-- The line of a tile, filled if it is not there (14 R293). -/
def State.tileFill (s : State) (u part h : Nat) (l : Lay) (t : Pos) : State × TLine :=
  match s.tileFind u part h t with
  | some x => (s, x)
  | none =>
    let s1 := s.tileRoom u part h t
    let x : TLine := { part, handle := h, tr := t.r, tc := t.c, i2 := t.i2, i3 := t.i3, bytes := s1.tileRead part h l t,
                       dirty := 0, fwd := none, bad := s1.tileBad l t }
    ({ s1 with tiles := SMap.put s1.tiles u (x :: SMap.get [] s1.tiles u) }, x)

/-- A line of a cluster replaced. -/
def State.tileSet (s : State) (u : Nat) (x : TLine) : State :=
  { s with tiles := SMap.put s.tiles u ((SMap.get [] s.tiles u).map
      (fun y => if y.isTile x.part x.handle x.pos then x else y)) }

/-- One item read by an agent of cluster `u` (09 R212). -/
def State.elemRead (s : State) (u part h : Nat) (l : Lay) (p : Pos) : State × Nat :=
  if l.cached then
    let r := s.tileFill u part h l (l.tileOf p)
    let b := l.inTile p * itemBits l.fc
    (r.1, itemFrom l.fc b ((r.2.bytes.drop (b / 8)).take (itemBytes l.fc)))
  else (s, s.itemRead l p)

/-- Items read in order. -/
def State.elemsRead (s : State) (u part h : Nat) (l : Lay) : List Pos → State × List Nat
  | [] => (s, [])
  | p :: ps =>
    let r := s.elemRead u part h l p
    let q := State.elemsRead r.1 u part h l ps
    (q.1, r.2 :: q.2)

/-- One item of a tile that a cluster's cache holds written. -/
def State.elemWrite (s : State) (u part h : Nat) (l : Lay) (p : Pos) (v : Nat) : State :=
  if l.inside p then
    let r := s.tileFill u part h l (l.tileOf p)
    let b := l.inTile p * itemBits l.fc
    let old := (r.2.bytes.drop (b / 8)).take (itemBytes l.fc)
    let x := { r.2 with bytes := lineSet r.2.bytes (b / 8) (itemInto l.fc b v old),
                        dirty := r.2.dirty ||| runMask (b / 8) (itemBytes l.fc) }
    r.1.tileSet u x
  else s

/-- A tile is there to be written in the bits of a mask (14 R293): one that is written whole is not fetched. The words that the
write covers are right again (20 R405). -/
def State.tileOpen (s : State) (u part h : Nat) (l : Lay) (t : Pos) (m : Nat) : State :=
  if m = 2 ^ 4096 - 1 ∧ (s.tileFind u part h t).isNone then
    let s1 := s.tileRoom u part h t
    let x : TLine := { part, handle := h, tr := t.r, tc := t.c, i2 := t.i2, i3 := t.i3, bytes := List.replicate 512 0#8, dirty := 0,
                       fwd := none }
    { s1 with tiles := SMap.put s1.tiles u (x :: SMap.get [] s1.tiles u) }
  else
    let r := s.tileFill u part h l t
    if r.2.bad = 0 then r.1 else r.1.tileSet u { r.2 with bad := r.2.bad - (r.2.bad &&& wordsOfBits m) }

/-- The tiles that some places within the extents lie in. -/
def Lay.tilesOf (l : Lay) (ps : List Pos) : List Pos :=
  ps.foldl (fun ts p => if l.inside p && !ts.contains (l.tileOf p) then ts ++ [l.tileOf p] else ts) []

/-- Items written below the caches; those outside the extents are discarded. -/
def State.itemsWrite (s : State) (l : Lay) (ps : List Pos) (vs : List Nat) : State :=
  ((ps.zip vs).foldl (fun (s : State) e => s.itemWrite l e.1 e.2) s).mend
    ((ps.filter l.inside).map (fun p => (8 * (l.place p).1 + (l.place p).2, itemBits l.fc)))

/-- Items written by an agent of cluster `u`, tile by tile where a tile cache holds them. -/
def State.elemsWrite (s : State) (u part h : Nat) (l : Lay) (ps : List Pos) (vs : List Nat) : State :=
  if l.cached then
    (l.tilesOf ps).foldl (fun (s : State) t =>
      ((ps.zip vs).filter (fun e => l.tileOf e.1 == t)).foldl (fun (s : State) e => s.elemWrite u part h l e.1 e.2)
        (s.tileOpen u part h l t (l.bitsOf t ps))) s
  else s.itemsWrite l ps vs

/-- The places of a rectangle, row by row; columns in elements, taken by item (09 R206). -/
def rectPos (fc row0 col0 rows cols i2 i3 : Nat) : List Pos :=
  let k := itemCols fc
  (List.range rows).flatMap (fun r =>
    (List.range (cols / k)).map (fun c => { r := row0 + r, c := col0 / k + c, i2, i3 }))

/-- The places of a rectangle column by column, for `cp.t` (09 R207). -/
def rectPosT (row0 col0 rows cols i2 i3 : Nat) : List Pos :=
  (List.range cols).flatMap (fun c => (List.range rows).map (fun r => { r := row0 + r, c := col0 + c, i2, i3 }))

-- Shapes and endpoints (09 R204, R205), and the lines that a permit meets (15 R315).

/-- FC of a shape. -/
def shFc (v : Nat) : Nat := bits v 63 56
/-- I3 of a shape. -/
def shI3 (v : Nat) : Nat := bits v 55 44
/-- I2 of a shape. -/
def shI2 (v : Nat) : Nat := bits v 43 32
/-- COLS of a shape. -/
def shCols (v : Nat) : Nat := bits v 31 16
/-- ROWS of a shape. -/
def shRows (v : Nat) : Nat := bits v 15 0
/-- KIND of an endpoint. -/
def epKind (e : Nat) : Nat := bits e 63 60
/-- HANDLE of a tensor endpoint. -/
def epHandle (e : Nat) : Nat := bits e 55 32
/-- ROW0 of a tensor endpoint. -/
def epRow (e : Nat) : Nat := bits e 31 16
/-- COL0 of a tensor endpoint. -/
def epCol (e : Nat) : Nat := bits e 15 0

/-- The tile-cache line holds elements of a rectangle of a plane. -/
def lineIn (l : Lay) (x : TLine) (row0 rows col0 cols i2 n2 i3 n3 : Nat) : Bool :=
  let sh := tileShape l.fc
  let w := sh.2 * itemCols l.fc
  rangesMeet (x.tr * sh.1) sh.1 row0 rows && rangesMeet (x.tc * w) w col0 cols && inRange x.i2 (i2, n2) && inRange x.i3 (i3, n3)

/-- The rectangle of tile `i` of a permit: first row and column. -/
def permitRect (n : NmCmd) (i : Nat) : Nat × Nat :=
  (epRow (n.par.getD 4 0) + i * n.par.getD 8 0, epCol (n.par.getD 4 0) + i * n.par.getD 9 0)

/-- The lines of the issuing cluster within the permit's rectangles. -/
def permitLine (s : State) (n : NmCmd) (x : TLine) : Bool :=
  let h := epHandle (n.par.getD 4 0)
  let sh := n.par.getD 5 0
  x.part == n.part && x.handle == h &&
  (match s.lay n.part h with
    | none => false
    | some l => (List.range (n.par.getD 2 0)).any (fun i =>
        lineIn l x (permitRect n i).1 (shRows sh) (permitRect n i).2 (shCols sh) (shI2 sh) 1 (shI3 sh) 1))

-- Regions of tensors (14 R302).

/-- Sorted insertion. -/
def insertNat (x : Nat) : List Nat → List Nat
  | [] => [x]
  | y :: l => if x < y then x :: y :: l else if x = y then y :: l else y :: insertNat x l

/-- The cut points of one dimension, rising. -/
def cutPoints (lo hi : Nat) (rs : List (Nat × Nat)) : List Nat :=
  (rs.flatMap (fun r => [r.1, r.1 + r.2])).foldl (fun l x => if lo < x ∧ x < hi then insertNat x l else l) [lo]

/-- The first element of a box that lies outside every tensor region of the handle that grants the access (1 read, 2 write, 3
both, by one record): row, column, third and fourth index. -/
def tensorOut (t : Strand) (h acc : Nat) (r0 rows c0 cols i2 n2 i3 n3 : Nat) : Option (Nat × Nat × Nat × Nat) :=
  let rs := t.regions.filter (fun r => r.kind == 0 && r.handle == h && r.grants acc)
  (cutPoints i3 (i3 + n3) (rs.map (fun r => (r.i3, r.n3)))).findSome? (fun d =>
    (cutPoints i2 (i2 + n2) (rs.map (fun r => (r.i2, r.n2)))).findSome? (fun c =>
      (cutPoints r0 (r0 + rows) (rs.map (fun r => (r.row0, r.rows)))).findSome? (fun a =>
        let cs := (rs.filter (fun r => inRange d (r.i3, r.n3) && inRange c (r.i2, r.n2) && inRange a (r.row0, r.rows))).map
          (fun r => (r.col0, r.cols))
        (uncovered cs (cs.length + 1) c0 (c0 + cols)).map (fun b => (a, b, c, d)))))

-- Rows of memory-side tensors (16 R329).

/-- Flat rows of the tensor. -/
def Lay.flatRows (l : Lay) : Nat := l.rows * l.n2 * l.n3

/-- The key of a flat row. -/
def Lay.rowKey (l : Lay) (f : Nat) : Nat := l.unitKey f

/-- Some element of columns `[c, c + n)` of flat row `f` lies outside the regions (16 R338). -/
def rowOut (t : Strand) (l : Lay) (h acc f c n : Nat) : Bool :=
  (tensorOut t h acc (f % l.rows) 1 c n (f / l.rows % l.n2) 1 (f / (l.rows * l.n2)) 1).isSome

/-- Bytes in blocks of 64. -/
def blocks64 : Nat → List Byte → List (List Byte)
  | 0, _ => []
  | n + 1, bs => bs.take 64 :: blocks64 n (bs.drop 64)

end Sys2Proof.Machine
end

