-- ==== Sys2Proof/Machine/Ops.lean ====
section
/-! DEFINITION. The shared operations of the machine: atomics and stores, the effects of slots, landings, the completion
of a bundle (05 R118), taking a trap (06 R137) and returning from one (06 R142). -/

namespace Sys2Proof.Machine

/-- The actions of an edge are asked of the cluster's flush engine (14 R295). -/
def State.askEdge (s : State) (g : Nat) (i : Instr) : State :=
  ({ s with edgeQ := s.edgeQ.filter (fun h => h != g) ++ [g] } : State).due i

/-- The flush engine of the strand's cluster serves its edge: nothing was asked of it earlier (14 R295). -/
def State.served (s : State) (g : Nat) : Bool := s.edgeQ.find? (fun h => cluOf h == cluOf g) == some g

/-- The edge of a strand is over, or stands saved with it. -/
def State.offEdge (s : State) (g : Nat) : State := { s with edgeQ := s.edgeQ.filter (fun h => h != g) }

/-- A free value (log 6). -/
def State.freeWord (s : State) : State × W64 := ({ s with fresh := s.fresh + 1 }, Config.free64 s.fresh)

/-- A slot of the save area of a partition (18 R374). -/
def State.saveSlot (s : State) (p g : Nat) : Nat := s.preg p 24 + 2 ^ 19 * g

/-- Bytes of a pending result in the save area (18 R374). -/
def resultBytes : Nat := 0x4800

/-- The bytes of a place in the save area are those that the device wrote there (18 R374). -/
def State.intact (s : State) (a k n : Nat) : Bool := s.memRead a n == freeBytes k n

/-- An effect of a kind, with its destination, whose value is free, numbers from `k` on. -/
def freeEff (k : Nat) : Eff → Eff
  | .sreg n _ => .sreg n (Config.free64 k)
  | .areg n _ => .areg n (Config.free64 k)
  | .mfld n f _ => .mfld n f (Config.free64 k)
  | .preg n _ => .preg n ((Config.free64 k).getLsbD 0)
  | .qreg n _ _ => .qreg n (BitVec.ofNat 256 (leNat (freeBytes (k + 4) 32))) (BitVec.ofNat 256 (leNat (freeBytes k 32)))
  | .efr _ => .efr (Config.free64 k)
  | .vd i _ => .vd i (Config.free64 k)
  | .mlp _ => .mlp (BitVec.ofNat 64 ((Config.free64 k).toNat % 2 ^ 57 / 4 * 4))
  | .svr _ => .svr (BitVec.ofNat 64 ((Config.free64 k).toNat % 65536))
  | .seeds l => .seeds ((l.zip (List.range l.length)).map (fun e => (e.1.1, BitVec.ofNat 32 (Config.free64 (k + e.2)).toNat)))
  | .mem o => .mem { o with
      bytes := freeBytes k o.bytes.length
      atom := o.atom.map (fun a => { a with y := (Config.free64 k).toNat, c := (Config.free64 (k + 1)).toNat }) }
  | .rotSet i _ _ => .rotSet i ((Config.free64 k).toNat % 64) ((Config.free64 (k + 1)).toNat % 64)
  | .wref _ _ => .wref ((Config.free64 k).toNat % 65536) ((Config.free64 (k + 1)).toNat % 256)
  | .err d _ => .err d ((Config.free64 k).toNat % 2 ^ 57)
  | .urs a bs => .urs a ((bs.zip (freeBytes k bs.length)).map (fun x => x.1.map (fun b => (b.1, x.2))))
  | .sys r _ => .sys r (Config.free64 k)
  | .rotate => .rotate

/-- The core runs with FX36 fallback (12 R271). -/
def State.fxd (s : State) (c : Nat) : Bool := s.fxdCores.contains c

/-- Register block of the event counters of a core (19 R391). -/
def ecBlock (c k : Nat) : Nat := 0x70000 + 64 * (c % 288) + k

/-- Counter `k` of a core counts the event (19 R391, R392). -/
def ecCounts (sel part str code k : Nat) : Bool :=
  let f := sel / 2 ^ (12 * k)
  bit f 11 && bits f 7 0 == code && (bit f 10 || bits f 9 8 == str) && (bit sel 56 || bits sel 55 48 == part)

/-- `n` events of a code that belong to a strand (19 R392). -/
def State.event (s : State) (g code n : Nat) : State :=
  let c := coreOf g
  let d := dieOf g
  let sel := s.reg d (ecBlock c 0)
  if sel = 0 ∨ n = 0 then s
  else [0, 1, 2, 3].foldl (fun s k =>
    if ecCounts sel (s.strand g).part (g % 4) code k then
      s.setReg d (ecBlock c (8 + 8 * k)) (s.reg d (ecBlock c (8 + 8 * k)) + n)
    else s) s

/-- `n` clocks of a class that belong to no strand (19 R392): counters of every partition and strand count them. -/
def State.coreEvent (s : State) (c code n : Nat) : State :=
  let d := c / 288
  let sel := s.reg d (ecBlock c 0)
  [0, 1, 2, 3].foldl (fun s k =>
    if bit sel 56 && bit (sel / 2 ^ (12 * k)) 10 && bit (sel / 2 ^ (12 * k)) 11 && bits (sel / 2 ^ (12 * k)) 7 0 == code then
      s.setReg d (ecBlock c (8 + 8 * k)) (s.reg d (ecBlock c (8 + 8 * k)) + n)
    else s) s

-- Trace and replay (19 R389, R397).

/-- Trace registers of cluster `u` (19 R388). -/
def trBlock (u : Nat) : Nat := 0x64000 + 64 * (u % 18)

/-- The bytes of a trace record (19 R390). -/
def traceBytes (kind core str part seq clk slot addr data : Nat) : List Byte :=
  leBytes 1 kind ++ leBytes 1 core ++ leBytes 1 str ++ leBytes 1 part ++ leBytes 4 seq ++ leBytes 6 clk ++ leBytes 1 slot ++
  leBytes 1 0 ++ leBytes 8 addr ++ leBytes 8 data

/-- A trace record of cluster `u`: written to the ring or dropped (19 R389, R390). -/
def State.trace (s : State) (u kind core str part slot addr data : Nat) : State :=
  let d := u / 18
  let b := trBlock u
  let ctl := s.reg d (b + 32)
  if !bit ctl 0 || !bit ctl (16 + kind) then s
  else
    let n := s.reg d (b + 8) / 32
    let wr := s.reg d (b + 16)
    let seq := SMap.get 0 s.trSeq u
    let s1 := { s with trSeq := SMap.set 0 s.trSeq u ((seq + 1) % 2 ^ 32) }
    if wr - s.reg d (b + 24) = n then s1.setReg d (b + 40) (s.reg d (b + 40) + 1)
    else
      (s1.memWrite (s.reg d b + 32 * (wr % n)) (traceBytes kind core str part seq (s.reg d (b + 48)) slot addr data)).setReg d
        (b + 16) (wr + 1)

/-- A trace record about a strand. -/
def State.traceS (s : State) (g kind slot addr data : Nat) : State :=
  s.trace (cluOf g) kind (coreOf g % 16) (g % 4) (s.strand g).part slot addr data

/-- A register of replay slot `k` = die × 8 + slot (19 R394). -/
def State.rp (s : State) (k o : Nat) : Nat := s.reg (k / 8) (0x63000 + 64 * (k % 8) + o)
/-- The replay on a strand of a task of a partition, with its slot's key. -/
def State.replayFor (s : State) (g part : Nat) : Option (Nat × Replay) :=
  s.replays.find? (fun r => r.2.strand == g && bits (s.rp r.1 8) 39 32 == part)
/-- The replay of a strand's task, with its slot's key; the task may run once without replay (19 R395). -/
def State.replayAny (s : State) (g : Nat) : Option (Nat × Replay) := s.replayFor g (s.strand g).part
/-- The replay that a strand runs. -/
def State.replayOf (s : State) (g : Nat) : Option (Nat × Replay) := (s.replayAny g).filter (fun r => !r.2.once)

/-- A taken redirect in the branch-trace hash (19 R397). -/
def State.redirect (s : State) (g src dst : Nat) : State :=
  match s.replayOf g with
  | none => s
  | some (k, r) =>
    let r' : Replay := { r with hash := BitVec.ofNat 64 (crc64 r.hash.toNat (leBytes 8 src ++ leBytes 8 dst)) }
    { s with replays := SMap.put s.replays k r' }

/-- A register of a replay slot set. -/
def State.setRp (s : State) (k o v : Nat) : State := s.setReg (k / 8) (0x63000 + 64 * (k % 8) + o) v
/-- ERR of a replay slot set. -/
def State.rpErr (s : State) (k e : Nat) : State :=
  let v := s.rp k 8
  s.setRp k 8 (v - bits v 23 16 * 65536 + e * 65536)

/-- The first mismatch of a replay (19 R397): MM, MMP and the index of the differing return. -/
def State.mismatch (s : State) (k : Nat) (r : Replay) (ix : Nat) : State :=
  match r.differ with
  | some _ => s
  | none =>
    let v := s.rp k 8
    let r' : Replay := { r with differ := some (r.pass, ix) }
    (({ s with replays := SMap.put s.replays k r' } : State).setRp k 8
      (v - bits v 15 12 * 4096 + r.pass * 4096 ||| 8)).memWrite (s.rp k 16 + 0xA8) (leBytes 8 (ix % 65536))

/-- An uncorrectable error met by a store or a posted command of the strand: raised at its next bundle (08 R183). -/
def State.dueErr (s : State) (g va : Nat) : State :=
  s.modStrand g (fun t => { t with due := match t.due with | some d => some d | none => some (0x21, va) })

/-- An atomic return in a replayed pass: logged in pass 1, compared later (19 R397). An error in what the compare reads is one in data
of the task (20 R405; log 96). -/
def State.logReturn (s : State) (g ix v : Nat) : State :=
  match s.replayOf g with
  | none => s
  | some (k, r) =>
    let a := s.rp k 16 + 0x100 + 8 * ix
    if r.pass = 1 then (if 256 ≤ ix then s.rpErr k 0x82 else s.memWrite a (leBytes 8 v))
    else if s.keyBad (s.rp k 16 + 0xA0) 8 then s.dueErr g (s.rp k 16 + 0xA0)
    else if ix < 256 ∧ ix < s.memNat (s.rp k 16 + 0xA0) 8 then
      (if s.keyBad a 8 then s.dueErr g a else if s.memNat a 8 ≠ v then s.mismatch k r ix else s)
    else s

-- Atomics (08 R181).

/-- A value of `w` bits read as two's complement. -/
def sInt (w v : Nat) : Int := if v.testBit (w - 1) then (v : Int) - 2 ^ w else v

/-- The new value of an atomic, `none` when it makes no write (08 R181). -/
def atomNew (op w old y c : Nat) : Option Nat :=
  let y := y % 2 ^ w
  match op with
  | 0 => some ((old + y) % 2 ^ w)
  | 1 => some (if sInt w y < sInt w old then y else old)
  | 2 => some (min old y)
  | 3 => some (if sInt w old < sInt w y then y else old)
  | 4 => some (max old y)
  | 5 => some (old &&& y)
  | 6 => some (old ||| y)
  | 7 => some (old ^^^ y)
  | 8 => some y
  | _ => if old = c % 2 ^ w then some y else none

/-- The data of a pending destination has become known. -/
def State.setPend (s : State) (g id : Nat) (bs : List Byte) : State :=
  s.modStrand g (fun t => { t with pends := t.pends.map (fun p => if p.id = id then { p with val := some bs } else p) })

/-- The data of a pending destination carries an error. -/
def State.setErr (s : State) (g id va : Nat) : State :=
  s.modStrand g (fun t =>
    { t with pends := t.pends.map (fun p => if p.id = id then { p with err := some va, val := some [] } else p) })

/-- An atomic performed at its location (08 R182). -/
def State.doAtom (s : State) (g key va : Nat) (a : AtomOp) : State :=
  match s.badAt 0 [⟨va, key, a.size, .ms⟩] with
  | some _ =>
    match a.pend with
    | some id => (s.setErr g id va).due (.atomicReturn g id)
    | none => s.dueErr g va
  | none =>
    let old := s.memNat key a.size
    let s1 := match atomNew a.op (8 * a.size) old a.y a.c with
      | some v => s.memWrite key (leBytes a.size v)
      | none => s
    match a.pend with
    | some id =>
      let s2 := match ((s1.strand g).pends.find? (fun p => p.id == id)).map Pend.kind with
        | some (.atom _ _ ix) => s1.logReturn g ix old
        | _ => s1
      (s2.setPend g id (leBytes a.size old)).due (.atomicReturn g id)
    | none => s1

/-- The pieces of an access that are not held by the core's data cache. -/
def State.missPieces (s : State) (c part : Nat) (pcs : List Piece) : List Piece :=
  (pcs.flatMap cutPiece).filter (fun p => p.cls != .cached || (dcFind (s.core c) part (p.va / 64 * 64)).isNone)

/-- The lines of an access that miss the core's data cache (19 R392). -/
def State.misses (s : State) (c part : Nat) (pcs : List Piece) : Nat :=
  ((s.missPieces c part pcs).filter (fun p => p.cls == .cached)).length

/-- The data of an access reaches the core before its slot commits: own vault and data-cache hits (08 R183). -/
def State.early (s : State) (c part : Nat) (pcs : List Piece) : Bool :=
  (s.missPieces c part pcs).all (fun p => p.cls == .own)

/-- An outstanding store through a window. -/
def Out.isWindow (o : Out) : Bool := o.op.atom.isNone && o.op.pcs.any (fun p => p.cls == .window)

/-- An outstanding store put in its place by its number. -/
def insertOut (o : Out) : List Out → List Out
  | [] => [o]
  | x :: l => if o.id < x.id then o :: x :: l else x :: insertOut o l

/-- The outstanding stores that a strand sees, oldest first: its own, and those of its core's other strands through windows,
which are performed for them at completion (08 R188). -/
def State.seenOuts (s : State) (g : Nat) : List Out :=
  ([0, 1, 2, 3].filter (fun k => k != g % 4)).foldl (fun l k =>
    ((s.strand (4 * coreOf g + k)).outs.filter Out.isWindow).foldl (fun l o => insertOut o l) l) (s.strand g).outs

/-- The byte that an outstanding store brings to a key. -/
def Out.byteAt (o : Out) (k : Nat) : Option Byte :=
  match o.op.atom, o.op.pcs with
  | none, p :: _ => if inRange k (p.key, p.len) then o.op.bytes[k - p.key]? else none
  | _, _ => none

/-- The bytes of a load with the outstanding stores that the strand sees (08 R188). -/
def State.forward (s : State) (g : Nat) (pcs : List Piece) (bs : List Byte) : List Byte :=
  let os := s.seenOuts g
  if os.isEmpty then bs
  else
    let keys := pcs.flatMap (fun p => (List.range p.len).map (fun i => p.key + i))
    (keys.zip bs).map (fun e => os.foldl (fun b o => (o.byteAt e.1).getD b) e.2)

/-- The order of `s`'s outstanding stores and atomics keeps `o` back: one of its strand for the same bytes is earlier, or one that
another strand of the core has stored through a window, which the core's strands have seen before it (08 R188). -/
def State.outBefore (s : State) (g n : Nat) (pcs : List Piece) : Bool :=
  (s.seenOuts g).any (fun x => decide (x.id < n) && piecesMeet x.op.pcs pcs)

/-- An atomic of the strand to some of the bytes is outstanding: a later load of them waits for it (08 R188). -/
def State.atomDue (s : State) (g : Nat) (pcs : List Piece) : Bool :=
  (s.strand g).outs.any (fun o => o.op.atom.isSome && piecesMeet o.op.pcs pcs)

/-- Bytes with those that are known already in their places. -/
def withKnown : List (Option Byte) → List Byte → List Byte
  | k :: ks, b :: bs => k.getD b :: withKnown ks bs
  | _, bs => bs

/-- The value of one load is fixed now, or the error that its data carries is known. -/
def State.fixOne (s : State) (g : Nat) (p : Pend) : State :=
  if p.val.isNone && !p.pcs.isEmpty then
    let part := (s.strand g).part
    match s.loadBad (coreOf g) part 0 (p.pcs.flatMap cutPiece) with
    | some e => s.setErr g p.id e.2
    | none =>
      let r := (s.event g 0x1E (s.misses (coreOf g) part p.pcs)).load (coreOf g) part p.pcs
      r.1.setPend g p.id (withKnown p.known (r.1.forward g p.pcs r.2))
  else s

/-- Of earlier loads, the latest first: those that lead by shared bytes to the pieces, the earliest first. -/
def fixChain : List Piece → List Pend → List Pend
  | _, [] => []
  | ps, q :: l => if q.val.isNone && piecesMeet q.pcs ps then fixChain (ps ++ q.pcs) l ++ [q] else fixChain ps l

/-- The value of a load is fixed now, after those of the strand's earlier loads of the same bytes (08 R188). -/
def State.fixPend (s : State) (g : Nat) (p : Pend) : State :=
  if p.val.isNone && !p.pcs.isEmpty then
    let before := ((s.strand g).pends.filter (fun q => decide (q.id < p.id))).reverse
    (fixChain p.pcs before ++ [p]).foldl (fun s q => s.fixOne g q) s
  else s

/-- The piece lies behind no window: memory of the host and of peers is ordered at `.sys` alone (21 R415). -/
def Piece.near (p : Piece) : Bool := decide (p.key < 2 ^ 70)

/-- The bytes of a load as its pieces lie, those that are not near left open. -/
def spreadNear : List Piece → List Byte → List (Option Byte)
  | [], _ => []
  | p :: l, bs =>
    if p.near then (bs.take p.len).map some ++ spreadNear l (bs.drop p.len) else List.replicate p.len none ++ spreadNear l bs

/-- The near bytes of one load are fixed now; where they are all of it, its value is. -/
def State.fixNearOne (s : State) (g : Nat) (p : Pend) : State :=
  let ps := p.pcs.filter Piece.near
  if p.pcs.all Piece.near then s.fixOne g p
  else if p.val.isNone && !ps.isEmpty && p.known.isEmpty then
    let part := (s.strand g).part
    match s.loadBad (coreOf g) part 0 (ps.flatMap cutPiece) with
    | some e => s.setErr g p.id e.2
    | none =>
      let r := (s.event g 0x1E (s.misses (coreOf g) part ps)).load (coreOf g) part ps
      let bs := r.1.forward g ps r.2
      r.1.modStrand g (fun t => { t with pends := t.pends.map (fun q => if q.id = p.id then { q with known := spreadNear p.pcs bs } else q) })
  else s

/-- The near bytes of a load are fixed now, after those of the strand's earlier loads of the same bytes (08 R188, 21 R415). -/
def State.fixNear (s : State) (g : Nat) (p : Pend) : State :=
  if p.val.isNone && !p.pcs.isEmpty then
    let before := ((s.strand g).pends.filter (fun q => decide (q.id < p.id))).reverse
    (fixChain (p.pcs.filter Piece.near) before ++ [p]).foldl (fun s q => s.fixNearOne g q) s
  else s

/-- Earlier loads of the strand that read any of the bytes have their values fixed (08 R188). -/
def State.fixLoads (s : State) (g : Nat) (pcs : List Piece) : State :=
  ((s.strand g).pends.filter (fun p => piecesMeet p.pcs pcs)).foldl (fun s p => s.fixPend g p) s

/-- Loads of the bytes that a fence of scope `.core`, or of scope `.strand` for strand `g`, has followed have their values fixed,
before a store of strand `g`, or of an engine of it when `own` holds, is performed (08 R189, R192, R194); what lies behind windows no
such fence orders (21 R415). -/
def State.fixFenced (s : State) (g : Nat) (own : Bool) (pcs : List Piece) : State :=
  let near := pcs.filter Piece.near
  [0, 1, 2, 3].foldl (fun s k =>
    let h := 4 * coreOf g + k
    if h = g ∧ !own then s
    else ((s.strand h).pends.filter (fun p =>
      (p.fence == 2 || (p.fence == 1 && h == g)) && p.val.isNone && piecesMeet p.pcs near)).foldl (fun s p => s.fixNear h p) s) s

/-- An error that a write of the strand met is raised at its next bundle (08 R183). -/
def State.storeErr (s : State) (g : Nat) (pcs : List Piece) : State :=
  match s.loadBad (coreOf g) (s.strand g).part 0 (pcs.flatMap cutPiece) with
  | some e => s.dueErr g e.2
  | none => s

/-- The core's line of an atomic's word is written back and invalidated (08 R182). -/
def State.atomLine (s : State) (g : Nat) (p : Piece) : State :=
  if p.cls = .cached then s.wbLines (coreOf g) (fun l => l.part == (s.strand g).part && l.va == p.va / 64 * 64) true else s

/-- An outstanding store or atomic is performed (08 R184, R187). -/
def State.performOut (s : State) (g : Nat) (o : Out) : State :=
  let s1 := ((s.modStrand g (fun t => { t with outs := t.outs.filter (fun x => x.id != o.id) })).landed o.id).fixFenced g false
    o.op.pcs
  match o.op.atom, o.op.pcs with
  | some a, p :: _ => (s1.atomLine g p).doAtom g p.key p.va a
  | _, ps =>
    let s2 := s1.storeBelow ps o.op.bytes
    match s2.badAt 0 ps with | some e => s2.dueErr g e.2 | none => s2

/-- An outstanding store or atomic may be performed: a request to a peer has been sent, and nothing that the strand has seen and
that is outstanding for the same bytes is earlier (08 R188, 21 R418). -/
def State.mayPerform (s : State) (g : Nat) (o : Out) : Bool := s.ready o.id && !s.outBefore g o.id o.op.pcs

/-- Outstanding stores and atomics of the strand are performed in order, those that may be. -/
def State.performAll (s : State) (g : Nat) (l : List Out) : State :=
  l.foldl (fun s o => if s.mayPerform g o then s.performOut g o else s) s

/-- The outstanding stores and atomics of the strand that meet the bytes and satisfy a test are performed, in order
(08 R188). -/
def State.flushIf (s : State) (g : Nat) (f : Out → Bool) (pcs : List Piece) : State :=
  s.performAll g ((s.strand g).outs.filter (fun o => f o && piecesMeet o.op.pcs pcs))

/-- A load of the bytes waits: an atomic of the strand to some of them cannot be performed yet, its request to a peer not having
been sent (08 R188, 21 R418). -/
def State.loadHeld (s : State) (g : Nat) (pcs : List Piece) : Bool :=
  s.atomDue g pcs && (s.flushIf g (fun o => o.op.atom.isSome) pcs).atomDue g pcs

/-- An operation is outstanding, with the next number; what lies behind fabric windows is asked of its peer (21 R417). -/
def State.addOut (s : State) (g : Nat) (op : MemOp) : State :=
  ({ s.modStrand g (fun t => { t with outs := t.outs ++ [⟨s.nid, op⟩] }) with nid := s.nid + 1 } : State).requestPieces s.nid true
    op.pcs

/-- The outstanding stores and atomics that a later store of the strand to the bytes follows are performed: its own, and what its
core's other strands have stored through windows (08 R188). -/
def State.flushOuts (s : State) (g : Nat) (pcs : List Piece) : State :=
  ([0, 1, 2, 3].filter (fun k => k != g % 4)).foldl (fun s k => s.flushIf (4 * coreOf g + k) Out.isWindow pcs)
    (s.flushIf g (fun _ => true) pcs)

/-- A piece that a completed bundle stores to is written at once: the own vault (08 R186), the data cache (08 R188), and a
memory-side page, whose one instant (16 R326) is that at which the core's strands see it (08 R188, 20 R400; DEDUCED, log 62). -/
def Piece.atOnce (p : Piece) : Bool := p.cls == .own || p.cls == .cached || p.cls == .ms

/-- The pieces of a store: written at once, or outstanding (08 R186, R187). -/
def State.storePieces (s : State) (g : Nat) : List Piece → List Byte → State
  | [], _ => s
  | p :: l, bs =>
    let s1 :=
      if p.atOnce then
        let s0 := s.fixFenced g false [p]
        ((s0.event g 0x1E (s0.misses (coreOf g) (s.strand g).part [p])).store g (s.strand g).part [p] (bs.take p.len)).storeErr g [p]
      else s.addOut g ⟨[p], bs.take p.len, none⟩
    State.storePieces s1 g l (bs.drop p.len)

/-- A store or atomic of a completed bundle (08 R178, R182). An atomic to a cached page first has the line written back
and invalidated. -/
def State.doMem (s : State) (g : Nat) (o : MemOp) : State :=
  let s1 := (s.fixLoads g o.pcs).flushOuts g o.pcs
  match o.atom, o.pcs with
  | some a, p :: _ =>
    if p.cls = .own then (s1.fixFenced g false [p]).doAtom g p.key p.va a
    else (s1.atomLine g p).addOut g o
  | _, _ => s1.storePieces g o.pcs o.bytes

-- System registers (01 R30-R35).

/-- The bits of EFR that are kept (01 R32). -/
def efrMask : Nat := 0xFF3F

/-- A system register as `mfsr` reads it (01 R30, 05 R129). -/
def readSr (fxd : Bool) (t : Strand) (r : Nat) : W64 :=
  match r with
  | 0x00 => BitVec.ofNat 64 (t.scr.toNat % 2 + if fxd then 256 else 0)
  | 0x01 => t.efr
  | 0x02 => t.mlp
  | 0x03 => t.svr
  | 0x04 => t.cyc + 1#64
  | 0x05 => t.sev
  | 0x06 => t.fsr
  | 0x07 => t.gfr
  | 0x10 => t.tcr
  | 0x11 => t.tar
  | 0x12 => t.tsl
  | 0x13 => t.tcr2
  | 0x14 => t.tar2
  | _ =>
    if 8 ≤ r ∧ r ≤ 15 then SMap.get 0#64 t.pvr (r - 8)
    else if 0x18 ≤ r ∧ r ≤ 0x1F then SMap.get 0#64 t.vd (r - 0x18)
    else 0#64

/-- A system register as `mtsr` writes it (05 R129): RO fields and reserved bits ignore the value. EFR is not written
here (01 R32). -/
def writeSr (t : Strand) (r : Nat) (v : W64) : Strand :=
  match r with
  | 0x00 => { t with scr := v &&& 1#64 }
  | 0x05 => { t with sev := v &&& 0xFFFFFFFFFFFF#64 }
  | 0x06 => { t with fsr := v }
  | 0x07 => { t with gfr := v &&& 0xFFFFFFFF#64 }
  | 0x10 => { t with tcr := v &&& 0x0000FFFF000001FF#64 }
  | 0x11 => { t with tar := v &&& 0x01FFFFFFFFFFFFFF#64 }
  | _ => if 8 ≤ r ∧ r ≤ 15 then { t with pvr := SMap.set 0#64 t.pvr (r - 8) v } else t

-- Effects.

/-- An effect takes place: a completion write or a landing (01 R26). -/
def State.applyEff (s : State) (g : Nat) : Eff → State
  | .sreg n v => s.modStrand g (fun t => t.ws n v)
  | .areg n v => s.modStrand g (fun t => t.wa n v)
  | .mfld n f v => s.modStrand g (fun t => t.wm n f v)
  | .preg n v => s.modStrand g (fun t => t.wp n v)
  | .qreg n act v => s.modStrand g (fun t => t.wq n act v)
  | .urs a bs => s.modStrand g (fun t => t.ursWrite a bs)
  | .sys r v => s.modStrand g (fun t => writeSr t r v)
  | .efr v => s.modStrand g (fun t =>
      { t with ctx := { t.ctx with efrP := t.ctx.efrP ++ [(3, BitVec.ofNat 64 (v.toNat &&& efrMask))] } })
  | .vd i v => s.modStrand g (fun t => t.wvd i v)
  | .rotSet i l r => s.modStrand g (fun t => t.wrot i l r)
  | .rotate => s.modStrand g (fun t => t.rotate)
  | .mlp v => s.modStrand g (fun t => { t with mlp := v })
  | .svr v => s.modStrand g (fun t => { t with svr := v })
  | .seeds l => s.modStrand g (fun t => l.foldl (fun t e => t.setSeed e.1 e.2) t)
  | .mem o => s.doMem g o
  | .wref a f => s.modStrand g (fun t => { t with wref := some (a, f), wstale := false })
  | .err d va => s.modStrand g (fun t => { t with errs := t.errs ++ [(d, 0x21, va)] })

/-- Effects in order. -/
def State.applyEffs (s : State) (g : Nat) (l : List Eff) : State := l.foldl (fun s e => s.applyEff g e) s

-- Launches and landings.

/-- The step that a near-memory or task command waits for once launched: `op` 0–5 near-memory, 6 `tspawn`. -/
def nmDue (n : NmCmd) : Instr :=
  match n.op with
  | 6 => .taskRegistration n.id
  | _ => .nmCommandExecute (coreOf n.strand) n.id

/-- A permit arrives at its sprocket (15 R314): `par` begins with the port. -/
def State.queuePermit (s : State) (n : NmCmd) : State :=
  let k := dieOf n.strand * 32 + n.par.getD 0 0
  ({ s with permits := SMap.put s.permits k (SMap.get [] s.permits k ++ [{ n with phase := 1 }]) }).due
    (.permitStart (dieOf n.strand) (n.par.getD 0 0))

/-- A permit launches: the issuing cluster's tile cache writes back what it holds within the permit's rectangles, and gives the
lines up for a store (15 R315). -/
def State.launchPermit (s : State) (n : NmCmd) : State :=
  (s.wbTiles (cluOf n.strand) (permitLine s n) (n.par.getD 1 0 == 2)).queuePermit n

/-- A command launches (03 R74, 09 R197); a matrix command leaves a landing-queue entry for its result. A `tjoin` is
complete as soon as it launches (13 R280). -/
def State.launchCmd (s : State) (g : Nat) (c : Cmd) : State × Option (Nat × LWhat) :=
  match c with
  | .copy c =>
    (((s.modCore (coreOf g) (fun k => { k with copies := k.copies ++ [c] })).event g 0x12 1).due (.copyStart (coreOf g)),
      none)
  | .matrix x =>
    ((s.modCore (coreOf g) (fun k => { k with mq := k.mq ++ [x] })).due (.matrixCommandStart (coreOf g)),
      x.lat.map (fun l => (l, .result x.id x.dst)))
  | .nm n =>
    if n.op = 7 then (s.modStrand g (fun t => { t with joins := t.joins ++ n.pcs.map (fun p => (p.key, p.va)) }), none)
    else if n.op = 8 then (s.launchPermit n, none)
    else ((s.modCore (coreOf g) (fun k => { k with nmq := k.nmq ++ [{ n with phase := 1 }] })).due (nmDue n), none)

/-- The ranges of the bytes that a URS effect has kept; those that a higher slot writes over are none (03 R87). -/
def keptRanges : Nat → List (Option (Byte × Byte)) → List (Nat × Nat)
  | _, [] => []
  | a, none :: l => keptRanges (a + 1) l
  | a, some _ :: l =>
    match keptRanges (a + 1) l with
    | (b, n) :: r => if b = a + 1 then (a, n + 1) :: r else (a, 1) :: (b, n) :: r
    | [] => [(a, 1)]

/-- What an effect writes, as the landing queue holds it: of a URS write, the bytes that no higher slot has cancelled (03 R87,
06 R144). -/
def effDst : Eff → List Dst
  | .sreg n _ => [.s n]
  | .areg n _ => [.a n]
  | .mfld n f _ => [.m n f]
  | .preg n _ => [.p n]
  | .qreg n _ _ => [.q n]
  | .urs a bs => if bs.all Option.isSome then [.urs a bs.length] else (keptRanges a bs).map (fun r => .urs r.1 r.2)
  | .sys r _ => [.sr r]
  | .efr _ => [.efr]
  | .vd i _ => [.vd i]
  | .rotSet i _ _ => [.vd i]
  | .rotate => []
  | .mlp _ => []
  | .svr _ => []
  | .seeds _ => [.seeds]
  | .mem _ => []
  | .wref _ _ => []
  | .err _ _ => []

/-- Effects with an error recorded against every destination of them (12 R270). -/
def lossEffs (va : Nat) (effs : List Eff) : List Eff := effs ++ (effs.flatMap effDst).map (fun d => .err d va)

/-- What a pending matrix result lands: free values where its copy in the save area has been written to (18 R374). An error that the
read-back of the copy meets is recorded against every destination, as one in a result buffer is (12 R270, 20 R405). -/
def State.landing (s : State) (r : MRes) : List Eff :=
  match r.moved with
  | some (a, k) =>
    if let some e := s.badAt 0 [⟨a, a, resultBytes, .ms⟩] then lossEffs e.2 r.effs
    else if s.intact a k resultBytes then r.effs
    else (r.effs.zip (List.range r.effs.length)).map (fun e => freeEff (k + resultBytes / 8 * (1 + e.2)) e.1)
  | none => r.effs

/-- The effects of a produced result; `none` while the array has not produced it. -/
def State.resultOf (s : State) (g id : Nat) : Option (List Eff) :=
  ((s.core (coreOf g)).results.find? (fun r => r.id == id && r.strand == g)).map s.landing

/-- The landing queue of a strand replaced. -/
def State.setLq (s : State) (g : Nat) (l : List Landing) : State :=
  s.modStrand g (fun t => { t with ctx := { t.ctx with lq := l } })

/-- The first entry of a landing queue whose count has run out, with what stands before and after it. -/
def splitDue : List Landing → Option (List Landing × Landing × List Landing)
  | [] => none
  | e :: l =>
    if e.rem = 0 then some ([], e, l)
    else match splitDue l with
      | none => none
      | some (a, x, b) => some (e :: a, x, b)

/-- An entry is a command that waits for its start delay. -/
def Landing.isLaunch (e : Landing) : Bool := match e.what with | .launch _ => true | _ => false

/-- One entry whose count has run out lands (01 R25, R26), or its command launches (03 R74). A matrix result that the array
has not produced does not land (12 R263). -/
def State.landOne (s : State) (g : Nat) : State :=
  match splitDue (s.strand g).ctx.lq with
  | none => s
  | some (a, e, b) =>
    let s0 := s.setLq g (a ++ b)
    match e.what with
    | .eff x => s0.applyEff g x
    | .result id _ =>
      match s.resultOf g id with
      | none => s
      | some effs => (s0.applyEffs g effs).modCore (coreOf g)
        (fun k => { k with results := k.results.filter (fun r => !(r.id == id && r.strand == g)) })
    | .launch c =>
      let q := s0.launchCmd g c
      match q.2 with
      | none => q.1
      | some (n, w) => q.1.setLq g (a ++ [{ e with rem := n, what := w }] ++ b)

/-- Every entry whose count has run out, in issue order; at most `n` of them. -/
def State.landDue (g : Nat) : Nat → State → State
  | 0, s => s
  | n + 1, s => if (splitDue (s.strand g).ctx.lq).isSome then State.landDue g n (s.landOne g) else s

/-- The brake line holds the strand (12 R263, case 2): the count of a matrix result has run out and the result is not produced. The
line holds within the strand cycle in which the count runs out. A bundle of that cycle issues, and is held before it completes; any
other cycle is held at its end, but the last stall cycle before the switch of a `yield` or the return of an `rfe` at its beginning. -/
def State.braked (s : State) (g : Nat) : Bool :=
  let t := s.strand g
  let atEnd := t.ctx.done == 0xFF || (t.ctx.sc == 1 && t.hold != .none)
  t.ctx.lq.any (fun e => (decide (e.rem = 0) || (decide (e.rem ≤ 1) && atEnd)) &&
    match e.what with | .result id _ => (s.resultOf g id).isNone | _ => false)

/-- A landing that the brake line has held is still to be made (12 R263). -/
def State.landHeld (s : State) (g : Nat) : Bool := (splitDue (s.strand g).ctx.lq).isSome

/-- Landings that the brake line has held are made, as far as their results exist (12 R263). -/
def State.landLate (s : State) (g : Nat) : State := State.landDue g (s.strand g).ctx.lq.length s

/-- One strand cycle counted (01 R24, 18 R371, 19 R392). -/
def State.countCycle (s : State) (g : Nat) : State :=
  (s.modStrand g (fun t => { t with cyc := t.cyc + 1#64, segc := t.segc + 1 })).event g 0x01 1

/-- The end of a strand cycle (01 R24, R25): CYC and the cycles since the last segment end count, and landings are made. -/
def State.endCycle (s : State) (g : Nat) : State :=
  let s1 := s.countCycle g
  let l := (s1.strand g).ctx.lq
  State.landDue g l.length (s1.setLq g (l.map (fun e => { e with rem := e.rem - 1 })))

-- Position.

/-- The strand leaves issue position, to be in run state `r` waiting for `w`. -/
def State.leave (s : State) (g : Nat) (r : RunState) (w : Wait) : State :=
  let s1 := s.modStrand g (fun t => { t with run := r, wait := w })
  s1.modCore (coreOf g) (fun k => if k.pos = some (g % 4) then { k with pos := none, last := g % 4 } else k)

/-- A debug stop (19 R381, R386): the strand stops before slot `slot`, its entries in DSR and DPC are set, and a freeze
starts if none is under way. TSL keeps its value, DLY too, for a stop in a delay bundle as well: 05 R117 speaks of TSL.DLY for a trap or
a stop, while R381 has a debug stop write no trap register. DESIGN CHOICE, log 115. -/
def State.debugStop (s : State) (g slot src idx : Nat) : State :=
  let d := dieOf g
  let blk := 0x20000 + 64 * (coreOf g % 288)
  let e := 0x8000 + slot % 8 * 4096 + src % 16 * 256 + idx % 8
  let dsr := s.reg d (blk + 24)
  let k := g % 4
  let s1 := (((s.setReg d (blk + 24) (dsr - bits dsr (16 * k + 15) (16 * k) * 2 ^ (16 * k) + e * 2 ^ (16 * k))).setReg d
    (blk + 32 + 8 * k) (s.strand g).ctx.pc).leave g .stopped .none).traceS g 0x05 (slot % 8) (s.strand g).ctx.pc src
  if s1.frz = 0 then
    { s1.setReg 0 0x60008 (g * 2 ^ 16 + src * 16) with frz := 1 }
  else s1

-- Traps (06 R137-R146).

/-- A layout of TCR (06 R138). -/
def mkTcr (cause detail : Nat) (hnd : Bool) : W64 :=
  BitVec.ofNat 64 (detail % 65536 * 2 ^ 32 + (if hnd then 256 else 0) + cause % 256)

/-- A layout of TSL (01 R34). -/
def mkTsl (dly : Bool) (held done slot : Nat) : W64 :=
  BitVec.ofNat 64 ((if dly then 2 ^ 24 else 0) + held % 256 * 2 ^ 16 + done % 256 * 256 + slot % 8)

/-- The strand's next bundle is a delay bundle (05 R117). -/
def Strand.dly (t : Strand) : Bool := t.ctx.anc == 0 && !t.ctx.bpf.isEmpty

/-- The effect is a held result with a destination and a value (06 R133, R136): writes of `s0`, `p0` and `q0` are none, and
a rotation has no value of its own. -/
def Eff.isHeld : Eff → Bool
  | .sreg n _ => n != 0
  | .preg n _ => n != 0
  | .qreg n _ _ => n != 0
  | .rotate => false
  | .err _ _ => false
  | _ => true

/-- Loads and atomic returns of the partly committed bundle itself. -/
def Strand.ownPends (t : Strand) : List Pend :=
  if t.ctx.done = 0 then []
  else match t.ctx.first with | some (n, _) => t.pends.filter (fun p => decide (n ≤ p.id)) | none => []

/-- The destination is an atomic's. -/
def PendKind.isAtom : PendKind → Bool
  | .atom _ _ _ => true
  | _ => false

/-- The entries of the stop record (01 R34, 06 R136) that stand before a slot of the bundle records any of its own. -/
def Strand.heldBelow (t : Strand) (k : Nat) : Nat := (t.ctx.buf.filter (fun h => h.eff.isHeld && decide (h.slot < k))).length

/-- The entries of the stop record (01 R34, 06 R136): an atomic counts once, by its store. -/
def Strand.heldCount (t : Strand) : Nat :=
  (t.ctx.buf.filter (fun h => h.eff.isHeld)).length +
    ((t.ownPends ++ t.ctx.held).filter (fun p => !p.kind.isAtom && !p.dsts.isEmpty)).length

/-- The loads of a partly committed bundle have their values, and go with its stop record. -/
def State.holdOwn (s : State) (g : Nat) : State :=
  let own := (s.strand g).ownPends
  if own.isEmpty then s
  else
    let s1 := (own.filter (fun p => !p.kind.isAtom)).foldl (fun s p => s.fixPend g p) s
    s1.modStrand g (fun t => { t with
      pends := t.pends.filter (fun p => !own.any (fun q => q.id == p.id))
      ctx := { t.ctx with held := t.ctx.held ++ t.pends.filter (fun p => own.any (fun q => q.id == p.id)) } })

/-- A fault record is received by the processor of a die (14 R305, 15 R322). -/
def State.report (s : State) (d : Nat) (r : FaultRec) : State :=
  { s with faults := SMap.put s.faults d (SMap.get [] s.faults d ++ [r]) }.due (.faultRecordAppend d)

/-- The fault record of a strand (14 R305), kinds 1 and 2. -/
def strandFault (kind g : Nat) (t : Strand) (tcr tar tcr2 tar2 : W64) (pc tsl : Nat) : FaultRec :=
  { kind, sv := true, strand := g, graph := (t.task.map Task.graph).getD 0, tcr, tar, tcr2, tar2, pc,
    tsl := tsl % 2 ^ 32, va := (t.task.map Task.va).getD 0 }

/-- The double-fault state (06 R145): the strand stops with its state kept, and a report is made. -/
def State.doubleFault (s : State) (g cause detail addr : Nat) (pc : Nat) : State :=
  let s1 := (s.modStrand g (fun t =>
    { t with tcr2 := mkTcr cause detail true, tar2 := BitVec.ofNat 64 (addr % 2 ^ 57), hold := .none })).leave g .stopped .none
  let t := s1.strand g
  s1.report (dieOf g) (strandFault 2 g t t.tcr t.tar t.tcr2 t.tar2 pc t.tsl.toNat)

/-- The task is aborted (06 R141, R146): the strand stops issuing, and its landing-queue entries are discarded (14 R303,
step 1). The rest of its course follows as a step of its own. -/
def State.abortTask (s : State) (g cause detail addr : Nat) (tsl : W64) (second : Bool) : State :=
  ((s.modStrand g (fun t =>
    let t1 : Strand :=
      { t with
        abort := some ⟨cause, detail, addr % 2 ^ 57, tsl, second⟩
        hold := .none
        adv := false
        ctx := { t.ctx with lq := [] }
        frozen := t.frozen.map (fun f => ({ f.1 with lq := [] }, f.2)) }
    if second then { t1 with tcr2 := mkTcr cause detail true, tar2 := BitVec.ofNat 64 (addr % 2 ^ 57) } else t1)).leave g
    .blocked .actions).due (.taskAbort g)

/-- The bundle that raised a cause: for `trap`, `sys` and `brk`, whose bundles have completed, the address reported. -/
def faultPc (cause addr pc : Nat) : Nat := if 8 ≤ cause ∧ cause ≤ 10 then addr else pc

/-- A trap cause raised in handler mode (06 R145, R146). -/
def State.handlerTrap (s : State) (g cause detail addr : Nat) (tsl : W64) : State :=
  if (s.strand g).seen = 3 then s.abortTask g cause detail addr tsl true
  else s.doubleFault g cause detail addr (faultPc cause addr (s.strand g).ctx.pc)

/-- The trap vector record (18 R368): ENTRY and STACK, or `none` when it cannot be used. -/
def State.trapVector (s : State) (g part : Nat) : Option (Nat × Nat) :=
  match s.pieces g (s.preg part 16) 64 1 false with
  | .error _ => none
  | .ok (ps, _) =>
    let b := s.loadBelow ps
    let e := leNat (b.take 8)
    let k := leNat ((b.drop 8).take 8)
    if e % 32 ≠ 0 ∨ 2 ^ 57 ≤ e ∨ k % 4096 ≠ 0 ∨ (b.drop 16).any (fun x => x != 0#8) then none else some (e, k)

/-- The trap vector record cannot be read without an error, in its bytes or in the tables (20 R405): the address. -/
def State.vectorBad (s : State) (g part : Nat) : Option Nat :=
  match s.pieces g (s.preg part 16) 64 1 false with
  | .error va => if s.xlateBad (coreOf g) part va then some va else none
  | .ok (ps, _) => (s.badAt 0 ps).map Prod.snd

/-- What a trap entry must ask of a peer before it can read the vector record (18 R368, 21 R417). -/
def State.vectorAsk (s : State) (g : Nat) : Option (List Piece) :=
  let part := (s.strand g).part
  match s.pieces g (s.preg part 16) 64 1 false with
  | .error _ => none
  | .ok (ps, _) => if s.asked g (s.preg part 16) ps then none else some ps

/-- TrapEntry (06 R137): `dly`, `held`, `done` and `slot` are those TSL reports. A vector record behind a fabric window is first asked of
its peer: the strand keeps position meanwhile, and no strand cycle passes (DESIGN CHOICE, log 112). -/
def State.trapEntry (s0 : State) (g cause detail addr slot done held : Nat) (dly : Bool) (csbpass : Bool) : State :=
  let t := s0.strand g
  let tsl := mkTsl dly held done slot
  let va := s0.preg t.part 16
  if t.hmode then s0.handlerTrap g cause detail addr tsl
  else match s0.vectorBad g t.part, s0.vectorAsk g with
  | some x, _ => (s0.askOver g va).abortTask g 0x21 0 x tsl false
  | none, some ps =>
    (s0.ask g va ps).modStrand g (fun t => { t with hold := .trap ⟨cause, detail, addr, slot, done, held, dly, csbpass⟩ })
  | none, none =>
    let v := s0.trapVector g t.part
    let s := s0.askOver g va
    let s1 := (s.holdOwn g).modStrand g (fun t =>
      { t with
        frozen := some ({ t.ctx with csbpass := csbpass }, t.ra 30, t.ra 31)
        tcr := mkTcr cause detail false
        tar := BitVec.ofNat 64 (addr % 2 ^ 57)
        tsl := tsl
        ctx := { pc := (v.map Prod.fst).getD 0 }
        hmode := true
        seen := 0
        hold := .none
        adv := false
        hstack := (v.map Prod.snd).getD 0 })
    match v with
    | some (e, k) =>
      ((s1.modStrand g (fun t => (t.wa 30 (BitVec.ofNat 64 (k + 4096 * (g + 1)))).wa 31 0#64)).redirect g
        (faultPc cause addr t.ctx.pc) e).traceS g 0x06 0 (addr % 2 ^ 57) (mkTcr cause detail false).toNat
    | none => s1.doubleFault g 0x01 0 (s.preg t.part 16) (faultPc cause addr t.ctx.pc)

/-- The pending changes of EFR take effect, the latest last (06 R142). -/
def efrFlush (efr : W64) (l : List (Nat × W64)) : W64 := l.foldl (fun _ e => e.2) efr

/-- The return from a handler (06 R142): the frozen context, a30, a31 and CSBPASS come back, and the handler's own
pending changes of EFR take effect. -/
def State.rfeReturn (s : State) (g addr : Nat) : State :=
  (s.redirect g addr (((s.strand g).frozen.map (fun f => f.1.pc)).getD 0)).modStrand g (fun t =>
    match t.frozen with
    | none => t
    | some (c, a30, a31) =>
      let t1 : Strand := { t with efr := efrFlush t.efr t.ctx.efrP, ctx := { c with first := c.first.map (fun f => (s.nid, f.2)) }, frozen := none, hmode := false, hold := .none }
      (t1.wa 30 a30).wa 31 a31)

/-- A synchronous fault: cause, detail and address (06 R140). -/
structure Flt where
  cause : Nat
  detail : Nat
  addr : Nat
  deriving DecidableEq, Repr

/-- A synchronous fault is raised at a slot (03 R92, 06 R141): an abort for causes 0x20 and 0x21, in a handler or out of
it, a trap otherwise. The completion buffer and done mask of a partly committed bundle stay in the frozen context. The core
clock in which a bundle that had not issued faults is a strand cycle, since the strand holds position in it (01 R24), and
no entry of the frozen queue counts it (06 R143); a re-issue counts none (06 R134). DEDUCED, log 71. -/
def State.raise (s0 : State) (g slot : Nat) (f : Flt) : State :=
  let s := if (s0.strand g).ctx.done = 0 then s0.countCycle g else s0
  let t := s.strand g
  let c := t.ctx
  if f.cause = 0x20 ∨ f.cause = 0x21 then
    s.abortTask g f.cause f.detail f.addr (mkTsl t.dly t.heldCount c.done slot) false
  else s.trapEntry g f.cause f.detail f.addr slot c.done t.heldCount t.dly (f.cause == 0x0B)

-- Completion of a bundle (05 R118, 06 R133).

/-- CompleteBundle (05 R118) on the control state, with the outcome of the C slot. -/
def completeCtx (c : Ctx) : Ctx :=
  let bpf := c.bpf.map (fun e => { e with count := e.count - 1 })
  let anc := c.anc - 1
  let r : Nat × List Bpf := match bpf with
    | e :: l => if e.count = 0 then (e.target, l) else ((c.pc + 32) % 2 ^ 57, bpf)
    | [] => ((c.pc + 32) % 2 ^ 57, [])
  { c with
    bpf := match c.cout.redirect with | some (t, rot) => r.2 ++ [⟨t, 2, rot⟩] | none => r.2
    anc := if c.cout.annul then 2 else anc
    pc := r.1 }

/-- One bundle counted against the pending changes of EFR (09 R198). -/
def efrStep (efr : W64) : List (Nat × W64) → W64 × List (Nat × W64)
  | [] => (efr, [])
  | (n, v) :: l =>
    if n ≤ 1 then efrStep v l
    else
      let r := efrStep efr l
      (r.1, (n - 1, v) :: r.2)

/-- The completion writes of the strand's bundle and CompleteBundle, without the end of the strand cycle. -/
def State.completeWrites (s : State) (g : Nat) : State :=
  let c := (s.strand g).ctx
  let s1 := s.applyEffs g (c.buf.map Held.eff)
  let s2 := match c.cout.redirect with | some (a, _) => s1.redirect g c.pc a | none => s1
  s2.modStrand g (fun t =>
    let e := efrStep t.efr t.ctx.efrP
    { t with
      efr := e.1
      sev := sevAdd t.sev 0 c.evDual c.evDead
      seen := t.seen ||| (if t.hmode then c.cout.seen else 0)
      pends := t.pends ++ t.ctx.held
      ctx := { completeCtx t.ctx with efrP := e.2, done := 0, buf := [], cout := {}, csbpass := false, sc := c.cout.sc,
                                      evDead := 0, evDual := 0, first := none, held := [], supp := [] } })

/-- Another strand of the core is ready (12 R261). -/
def State.otherReady (s : State) (g : Nat) : Bool :=
  [0, 1, 2, 3].any (fun k => k != g % 4 && (s.strand (4 * coreOf g + k)).run == .ready)

/-- A `yield` takes effect (05 R132): with no other strand ready it is no switch, and the strand goes on (12 R261). -/
def State.yieldNow (s : State) (g : Nat) : State := if s.otherReady g then s.leave g .ready .yielded else s

/-- What follows a completed bundle (05 R124-R128, R132). The stall count of a `yield` elapses before its switch (03 R73), and
that of an `rfe`, beside the handler's landings, before the context comes back; the cycles are the handler's, so that the
frozen counts stay as they are (06 R143; DEDUCED, log 72). -/
def State.afterBundle (s : State) (g addr : Nat) (dly : Bool) : After → State
  | .none => s
  | .trap cause detail => s.trapEntry g cause detail addr 0 0xFF 0 dly false
  | .done => s.modStrand g (fun t => { t with hold := .done, ctx := { t.ctx with sc := 0, bpf := [], anc := 0 } })
  | .rfe =>
    if (s.strand g).ctx.lq.isEmpty && (s.strand g).ctx.sc == 0 then s.rfeReturn g addr
    else s.modStrand g (fun t => { t with hold := .rfe addr })
  | .yield => if (s.strand g).ctx.sc = 0 then s.yieldNow g else s.modStrand g (fun t => { t with hold := .yield })
  | .segend cost =>
    let c := coreOf g
    let k := s.core c
    let used := (s.strand g).segc
    let p := (s.strand g).part
    let s1 := if used > cost then s.setReg 0 (0x40000 + 64 * p + 56) (s.preg p 56 + 1) else s
    let isSpent := k.left - cost == 0 && k.budget != 0 && k.stop == .none
    let s2 := (s1.modStrand g (fun t => { t with segc := 0 })).setCore c { k with left := k.left - cost, spent := isSpent }
    if isSpent then s2.due (.rowChange c) else s2

/-- BUNDLE_COMPLETE (06 R133): landings of the strand cycle, completion writes in slot order, CompleteBundle, and what
the C slot brings about. -/
def State.completeBundle (s : State) (g : Nat) : State :=
  let t := s.strand g
  let s1 := (s.endCycle g).completeWrites g
  s1.afterBundle g t.ctx.pc t.dly t.ctx.cout.after

end Sys2Proof.Machine
end

