-- ==== Sys2Proof/Machine/Operands.lean ====
section
/-! DEFINITION. What a slot operation has in common with every other: its guard, what it waits for, its faults, what it
reads and writes, and how its effects are recorded when it commits (03 R71, R86, R87, 06 R133, R144). Then the operand
forms: vector operands (07 R148), addresses and modifier updates (04 R112, 08 R177). -/

namespace Sys2Proof.Machine

/-- The fault of an access of `n` bytes at `ea` whose translation first fails at `va` (08 R173): cause 0x06 with its access kind. Where
an entry of the tables carries an error (20 R405) it is 0x21, after every other of the access (06 R140): a later page that fails in
another way, alignment, and the regions where the access is checked against them. -/
def State.transFlt (s : State) (kind ea va n perm align : Nat) (atomic regions : Bool) : Flt :=
  if ea < 2 ^ 57 ∧ s.xlateBad (coreOf s.cur.g) s.me.part va then
    match s.plainFail (coreOf s.cur.g) s.me.part perm atomic (fun _ => true) (n / 65536 + 2) va (ea + n - va) with
    | some x => ⟨0x06, kind, x⟩
    | none =>
      if ea % align ≠ 0 then ⟨0x07, kind, ea⟩
      else match (if regions then undeclared s.me s.cur.g ea n perm else none) with
        | some x => ⟨0x20, kind, x⟩
        | none => ⟨0x21, 0, va⟩
  else ⟨0x06, kind, va⟩

/-- What keeps a slot from committing in a core clock. -/
inductive Bar where
  /-- The brake line (12 R263): nothing moves. -/
  | brake
  /-- The strand blocks (12 R258). -/
  | block (w : Wait)
  /-- A position hold (12 R259): one strand cycle passes. -/
  | hold
  /-- A position hold for bytes at an address behind a fabric window, which are asked of their peers (21 R417). -/
  | ask (va : Nat) (ps : List Piece)
  /-- A position hold for a full landing queue, which SEV.LQF counts (01 R27). -/
  | full
  deriving DecidableEq, Repr

/-- The meaning of one slot operation in one state. -/
structure SlotSem where
  /-- The guard is true (03 R71). -/
  guard : Bool := true
  /-- Guarded by something other than an unnegated `p0` (03 R86). -/
  guarded : Bool := false
  /-- What the operation itself waits for, pending destinations aside. -/
  wait : Option Bar := none
  /-- A position hold that begins once nothing else keeps the bundle from issuing, with what a core clock of it does (17 R350). -/
  hold : Option (State → State) := none
  /-- A literal fetch fault, raised whatever the guard (03 R91). -/
  literal : Option Flt := none
  /-- The first of its own faults. -/
  fault : Option Flt := none
  /-- What it reads; one URS range for each operand. -/
  srcs : List Dst := []
  /-- Its destinations (03 R86). -/
  dsts : List Dst := []
  /-- URS bytes that the copy engine reads or writes for it: pending ones are waited for (07 R166, 08 R177), and they are neither
  sources nor destinations of a slot (09 R213). -/
  touches : List Dst := []
  /-- Of `touches`, the bytes that the copy engine reads: an error recorded on them is raised as for a source (06 R135, 07 R166). -/
  reads : List Dst := []
  /-- Its effects, each with its latency (01 R25). -/
  lands : List (Nat × Eff) := []
  /-- Landing-queue entries beside those of `lands`: delayed commands and matrix results (01 R27). -/
  ents : Nat := 0
  /-- The memory ranges a watchpoint compares: reads and writes, as (address, length, write) (19 R380). -/
  acc : List (Nat × Nat × Bool) := []
  /-- Everything else it does when it commits. -/
  post : State → State := id
  /-- The slot commits when the operation does; false for a family command under the trap action (06 R135). -/
  commits : Bool := true
  /-- What happens in place of the operation when its guard is false (05 R121, 03 R89). -/
  missed : State → State := id
  /-- Events it counts when it commits: code and number (19 R392). -/
  evts : List (Nat × Nat) := []

/-- Two destinations have a register in common, or overlapping URS bytes; writes of `s0`, `p0` and `q0` are none. -/
def Dst.meets : Dst → Dst → Bool
  | .s i, .s j => i == j && i != 0
  | .p i, .p j => i == j && i != 0
  | .q i, .q j => i == j && i != 0
  | .urs i k, .urs j l => rangesMeet i k j l
  | x, y => decide (x = y)

/-- Two lists of destinations meet. -/
def dstsMeet (a b : List Dst) : Bool := a.any (fun x => b.any x.meets)

/-- What a landing-queue entry will write (01 R27): a matrix command that waits for its start delay is an entry with the
destinations of its result. -/
def landDst : LWhat → List Dst
  | .eff e => effDst e
  | .result _ d => d
  | .launch (.matrix x) => x.dst
  | .launch _ => []

/-- A byte of the URS lies in a destination. -/
def dstByte (cancel : List Dst) (b : Nat) : Bool :=
  cancel.any (fun d => match d with | .urs a n => inRange b (a, n) | _ => false)

/-- The bytes of a URS write that a higher slot writes over are cancelled (03 R87). -/
def trimBytes {α : Type} (cancel : List Dst) : Nat → List (Option α) → List (Option α)
  | _, [] => []
  | a, x :: l => (if dstByte cancel a then none else x) :: trimBytes cancel (a + 1) l

/-- An effect without what a higher slot writes over (03 R87). -/
def trimEff (cancel : List Dst) (e : Eff) : Option Eff :=
  match e with
  | .urs a bs =>
    let ks := trimBytes cancel a bs
    if !bs.isEmpty && ks.all Option.isNone then none else some (.urs a ks)
  | e => if dstsMeet (effDst e) cancel then none else some e

/-- The guard of a C, S, L or V word (03 R71). -/
def Strand.guard (t : Strand) (k : BitVec 3) (g : BitVec 1) : Bool := t.rp k.toNat != (g == 1#1)

/-- The word is guarded by something other than an unnegated `p0` (03 R86). -/
def isGuarded (k : BitVec 3) (g : BitVec 1) : Bool := decide (k ≠ 0#3) || decide (g ≠ 0#1)

/-- Dead entries that the operands read, one count for each operand and entry (01 R23). -/
def deadCount (t : Strand) (srcs : List Dst) : Nat :=
  srcs.foldl (fun n d => match d with | .urs a m => n + deadReads t a m | _ => n) 0

/-- The pending destinations of earlier bundles. -/
def Strand.oldPends (t : Strand) : List Pend :=
  match t.ctx.first with | some (n, _) => t.pends.filter (fun p => decide (p.id < n)) | none => t.pends

/-- The landing-queue entries of earlier bundles. -/
def Strand.oldLq (t : Strand) : List Landing :=
  match t.ctx.first with | some (_, n) => t.ctx.lq.take n | none => t.ctx.lq

/-- The pending destinations that the operation reads or writes: the brake line for data, a block for a token
(07 R166, 08 R177, 09 R210, 12 R258, R263). -/
def pendBar (t : Strand) (ds : List Dst) : Option Bar :=
  let hit := t.oldPends.filter (fun p => dstsMeet p.dsts ds)
  if hit.any (fun p => match p.kind with | .token _ => false | _ => true) then some .brake
  else if hit.isEmpty then none
  else some (.block (.token (hit.map Pend.id)))

/-- What a slot waits for: pending destinations, then its own condition, then room in the landing queue. -/
def slotBar (t : Strand) (m : SlotSem) : Option Bar :=
  if !m.guard then none
  else match pendBar t (m.srcs ++ m.dsts ++ m.touches) with
    | some b => some b
    | none => m.wait

/-- Landing-queue entries a slot takes. -/
def slotEnts (m : SlotSem) : Nat := if m.guard then (m.lands.filter (fun e => decide (1 < e.1))).length + m.ents else 0

/-- The checking scoreboard on one slot (06 R144): an early read, then a dead read. -/
def csbFlt (t : Strand) (m : SlotSem) : Option Flt :=
  if t.scr.getLsbD 0 && !t.ctx.csbpass then
    if t.oldLq.any (fun e => dstsMeet (landDst e.what) m.srcs) then some ⟨0x0B, 1, t.ctx.pc⟩
    else if deadCount t m.srcs ≠ 0 then some ⟨0x0B, 2, t.ctx.pc⟩
    else none
  else none

/-- A recorded uncorrectable error on something the slot reads (06 R135): code 0x21 with its address, or 0x121 for one in
the URS; without an address it is reported with the bundle's (06 R140, 12 R270). -/
def errFlt (t : Strand) (m : SlotSem) : Option Flt :=
  (t.errs.find? (fun e => (dstsMeet [e.1] m.srcs && e.2.1 % 256 == 0x21) || (dstsMeet [e.1] m.reads && e.2.1 == 0x21))).map
    (fun e => ⟨0x21, 0, if e.2.1 = 0x21 ∧ e.2.2 ≠ noAddr then e.2.2 else t.ctx.pc⟩)

/-- A recorded stamp-horizon fault on something the slot, or the copy engine for it, reads (17 R348). -/
def horizonFlt (t : Strand) (m : SlotSem) : Option Flt :=
  if t.errs.any (fun e => e.2.1 == 5 && dstsMeet [e.1] (m.srcs ++ m.reads)) then some ⟨0x05, 0, t.ctx.pc⟩ else none

/-- The fault raised by a slot is a recorded stamp-horizon fault, and not one of its own. -/
def horizonHere (t : Strand) (m : SlotSem) : Bool :=
  m.guard && m.literal.isNone && (horizonFlt t m).isSome && (match m.fault with | some f => decide (5 < f.cause) | none => true)

/-- Trap entry clears the horizon records that raised it (17 R348). -/
def clearHorizon (m : SlotSem) (s : State) : State :=
  if horizonHere s.me m then
    s.modMe (fun t => { t with errs := t.errs.filter (fun e => !(e.2.1 == 5 && dstsMeet [e.1] (m.srcs ++ m.reads))) })
  else s

/-- The fault of a slot, in the order of 06 R140: an error that its own access meets in the translation tables comes after the
checking scoreboard. The checking scoreboard and errors recorded on registers that a `cpf` reads are raised as for every slot,
though 09 R208 lets it raise no fault: 06 R135 and R144 give both to the bundle (DESIGN CHOICE, log 107). -/
def slotFlt (t : Strand) (m : SlotSem) : Option Flt :=
  match m.literal with
  | some f => some f
  | none =>
    if !m.guard then none
    else if horizonHere t m then horizonFlt t m
    else match m.fault with
      | some f => if f.cause = 0x21 then some ((csbFlt t m).getD f) else some f
      | none =>
        match csbFlt t m with
        | some f => some f
        | none => errFlt t m

/-- The effects of a slot recorded: latency 1 in the completion buffer, longer ones in the landing queue. -/
def record (slot : Nat) (cancel : List Dst) (c : Ctx) : List (Nat × Eff) → Ctx
  | [] => c
  | (l, e) :: r =>
    record slot cancel
      (match trimEff cancel e with
        | none => c
        | some e =>
          if 1 < l then { c with lq := c.lq ++ [⟨l, c.pc, slot, .eff e⟩] }
          else { c with buf := c.buf ++ [⟨slot, e⟩] }) r

/-- The slot's done bit. -/
def markDone (slot : Nat) (c : Ctx) : Ctx := { c with done := c.done ||| 2 ^ slot }

/-- The event that an executed operation of a slot counts: A, S and V slots (19 R392). -/
def slotEvent (slot : Nat) : List (Nat × Nat) :=
  if slot = 1 then [(0x06, 1)] else if slot = 2 ∨ slot = 3 then [(0x07, 1)] else if slot = 5 then [(0x05, 1)] else []

/-- A slot commits (06 R133). -/
def commitSlot (slot : Nat) (m : SlotSem) (s : State) : State :=
  if !m.guard then (m.missed s).modMe (fun t => { t with ctx := markDone slot t.ctx })
  else
    let n := deadCount s.me m.srcs
    let s0 := s.modMe (fun t => { t with ctx := { record slot s.cur.cancel t.ctx m.lands with evDead := t.ctx.evDead + n } })
    let evs : List (Nat × Nat) := slotEvent slot ++ m.evts ++ [(0x1C, n)]
    let s1 := m.post (evs.foldl (fun (s : State) e => s.event s.cur.g e.1 e.2) s0)
    if m.commits then s1.modMe (fun t => { t with ctx := markDone slot t.ctx }) else s1

/-- A core clock in which the strand in issue waits. The clock of a strand whose bundle is partly committed stands
(06 R134). -/
def barred (b : Bar) (s : State) : State :=
  match b with
  | .brake => s
  | .block w => s.leave s.cur.g .blocked w
  | .hold => if s.me.ctx.done = 0 then s.endCycle s.cur.g else s
  | .ask va ps => (if s.me.ctx.done = 0 then s.endCycle s.cur.g else s).ask s.cur.g va ps
  | .full =>
    if s.me.ctx.done = 0 then (s.endCycle s.cur.g).modMe (fun t => { t with sev := sevAdd t.sev 1 0 0 }) else s

/-- The bundle's first slot is about to commit. -/
def markFirst (s : State) : State :=
  s.modMe (fun t => { t with ctx := { t.ctx with first := some (s.nid, t.ctx.lq.length) } })

/-- One slot operation of the strand in issue: it waits, raises its fault, or commits. A slot that has committed does
nothing again (06 R136). -/
def runSlot (slot : Nat) (m : SlotSem) (s : State) : State :=
  let t := s.me
  if t.ctx.done.testBit slot || t.abort.isSome then s
  else match slotBar t m with
    | some b => barred b s
    | none =>
      match slotFlt t m with
      | some f => (clearHorizon m s).raise s.cur.g slot f
      | none =>
        if t.ctx.lq.length + slotEnts m > 64 then barred .full s
        else match (if m.guard then m.hold else none) with
          | some f => barred .hold (f s)
          | none => commitSlot slot m (if t.ctx.done = 0 then markFirst s else s)

-- Pending destinations (07 R166, 08 R177).

/-- The strand in issue meets an uncorrectable error in a slot that has not committed, and its task is aborted (06 R135, R141). -/
def abortMe (va : Nat) (s : State) : State :=
  let t := s.me
  s.abortTask s.cur.g 0x21 0 va (mkTsl t.dly (t.heldBelow s.cur.slot) t.ctx.done s.cur.slot) false

/-- A pending destination made: own-vault data is fixed now, other data when it arrives, but an error in a data-cache hit is
known now (08 R183). An outstanding atomic of the strand on the bytes is performed first (08 R188). -/
def pendAdd (kind : PendKind) (dsts : List Dst) (pcs : List Piece) (vld : Bool) (s : State) : State :=
  let id := s.nid
  let p : Pend := { id, kind, dsts, pcs, val := none, vld, err := none }
  let s0 := s.flushIf s.cur.g (fun o => o.op.atom.isSome) pcs
  let s1 := (({ s0 with nid := id + 1 } : State).requestPieces id false pcs).modMe (fun t => { t with pends := t.pends ++ [p] })
  let c := coreOf s.cur.g
  let now := pcs.all (fun p => p.cls == .own) ||
    (s1.early c s.me.part pcs && (s1.loadBad c s.me.part 0 (pcs.flatMap cutPiece)).isSome)
  let s2 := if now then s1.fixPend s.cur.g p else s1
  s2.due (if vld then .vldDataArrival s.cur.g id else .loadDataArrival s.cur.g id)

/-- A destination of the URS less the bytes a higher slot writes over (03 R87), as bytes kept pending. -/
def pendBytes (cancel : List Dst) (a : Nat) (ms : List (Option Byte)) : List (Option Byte) × List Dst :=
  let m := trimBytes cancel a ms
  if m.all Option.isSome then (m, [Dst.urs a m.length])
  else
    (m, (List.range (ceilDiv m.length 4)).filterMap (fun i =>
      if ((m.drop (4 * i)).take 4).any Option.isSome then some (Dst.urs (a + 4 * i) (min 4 (m.length - 4 * i))) else none))

/-- The old writes of a destination are still to land (07 R166, 08 R177). -/
def destDue (t : Strand) (ds : List Dst) : Bool := t.oldLq.any (fun e => dstsMeet (landDst e.what) ds)

-- Operand forms.

/-- EFR.RM in force. -/
def Strand.rmode (t : Strand) : Rm := Rm.ofCode (bits t.efr.toNat 2 0)
/-- EFR.E4S in force. -/
def Strand.e4s (t : Strand) : Bool := t.efr.getLsbD 5
/-- EFR.S8 in force. -/
def Strand.s8 (t : Strand) : Bool := t.efr.getLsbD 3
/-- EFR.S4 in force. -/
def Strand.s4 (t : Strand) : Bool := t.efr.getLsbD 4
/-- EFR.SUB in force. -/
def Strand.sub (t : Strand) : Nat := bits t.efr.toNat 15 8

/-- The unmapped-operand fault of a name. -/
def Strand.unmapped (t : Strand) (n : Nat) : Flt := ⟨0x04, n, t.ctx.pc⟩
/-- The illegal-operand fault. -/
def Strand.illegal (t : Strand) : Flt := ⟨0x05, 0, t.ctx.pc⟩

/-- A vector operand (07 R148): the 1024 bytes at the address of a name, and the descriptor that resolved it. -/
def vecOperand (t : Strand) (n : Nat) : Except Flt Res :=
  match resolve t n with
  | none => .error (t.unmapped n)
  | some r =>
    if vdKind r.d = 2 then .error t.illegal
    else if r.addr + 1024 > 65536 then .error (t.unmapped n)
    else .ok r

/-- The operand of a 64-byte move (08 R179). -/
def blkOperand (t : Strand) (n : Nat) : Except Flt Res :=
  match resolve t n with
  | none => .error (t.unmapped n)
  | some r =>
    if vdKind r.d = 2 then .error t.illegal
    else if r.addr + 64 > 65536 then .error (t.unmapped n)
    else .ok r

/-- The 32-bit lanes of bytes (07 R149). -/
def lanes : Nat → List Byte → List Nat
  | 0, _ => []
  | n + 1, b0 :: b1 :: b2 :: b3 :: l => leNat [b0, b1, b2, b3] :: lanes n l
  | n + 1, l => leNat l :: lanes n []

/-- The 256 lanes of an operand as read at issue. -/
def Strand.lanesAt (t : Strand) (a : Nat) : List Nat := lanes 256 (t.ursRead a 1024)

/-- Base-2 logarithm of a power of two, `none` otherwise. -/
def log2? (n : Nat) : Option Nat := if n ≠ 0 ∧ 2 ^ n.log2 = n then some n.log2 else none

/-- The `b` low bits of `i` in reverse order (04 R112). -/
def revBits : Nat → Nat → Nat
  | 0, _ => 0
  | b + 1, i => i % 2 * 2 ^ b + revBits b (i / 2)

/-- A modifier update (04 R112); `none` is the illegal-operand fault. -/
def modUpdate (a : W64) (d : W128) : Option W64 :=
  let n := d.toNat
  let step := sInt 32 (n / 2 ^ 96)
  let len := bits n 95 72
  let base : Int := bits n 56 0
  let x : Int := a.toNat
  match bits n 65 64 with
  | 0 => some (BitVec.ofInt 64 (x + step))
  | 1 => if len = 0 then some (BitVec.ofInt 64 (x + step)) else some (BitVec.ofInt 64 (base + (x - base + step) % len))
  | 2 =>
    if step ≤ 0 ∨ (len : Int) < step then none
    else match log2? len, log2? step.toNat with
      | some l, some k =>
        let b := l - k
        let i := ((x - base) % len / step).toNat
        some (BitVec.ofInt 64 (base + step * (revBits b ((revBits b (i % 2 ^ b) + 1) % 2 ^ b) : Nat)))
      | _, _ => none
  | _ => none

/-- The post-modification of an address register (08 R177): the effect, or the fault of a reserved or unusable
descriptor. -/
def postMod (t : Strand) (p : BitVec 1) (aa m : Nat) : Except Flt (List (Nat × Eff)) :=
  if p = 0#1 then .ok []
  else match modUpdate (t.ra aa) (t.rm m) with
    | some v => .ok [(1, .areg aa v)]
    | none => .error t.illegal

/-- The destination of a post-modification. -/
def postDst (p : BitVec 1) (aa : Nat) : List Dst := if p = 0#1 then [] else [.a aa]

/-- The first error of a list of checks. -/
def firstFlt : List (Option Flt) → Option Flt
  | [] => none
  | some f :: _ => some f
  | none :: l => firstFlt l

/-- The fault reported of those of one slot (03 R93): an unmapped operand before an illegal one, both before others. -/
def byCode (l : List (Option Flt)) : Option Flt :=
  let of (c : Nat) : Option Flt := firstFlt (l.map (fun o => o.filter (fun f => f.cause == c)))
  firstFlt [of 0x04, of 0x05, firstFlt l]

/-- Of the faults of the accesses of one slot, an error in the tables comes after every other (06 R140). -/
def errLast (l : List (Option Flt)) : Option Flt := firstFlt (l.map (fun o => o.filter (fun f => f.cause != 0x21)) ++ l)

/-- The URS range that an operand writes, where its name resolves: it is a destination whatever else is wrong with the
slot (03 R86, R93). -/
def okDst (x : Except Flt Res) (n : Nat) : List Dst := match x with | .ok r => [.urs r.addr n] | .error _ => []

/-- The fault of a check that may fail. -/
def fltOf {α : Type} : Except Flt α → Option Flt
  | .error f => some f
  | .ok _ => none

/-- The unreadable bits of a scalar source or destination: nothing, since `s0` is never pending. -/
def srcS (ns : List Nat) : List Dst := ns.map Dst.s

/-- Whole bytes as a URS effect. -/
def wholeBytes (bs : List Byte) : List (Option (Byte × Byte)) := bs.map (fun b => some (0xFF#8, b))

end Sys2Proof.Machine
end

