-- ==== Sys2Proof/Machine/Address.lean ====
section
/-! DEFINITION. The two A slots (04 R110-R115): one address-unit operation each, unguarded, with latency 1. -/

namespace Sys2Proof.Machine

/-- An A operation that writes `a[d]`. -/
def aSem (srcs : List Dst) (d : BitVec 5) (v : W64) : SlotSem :=
  { srcs := srcs, dsts := [.a d.toNat], lands := [(1, .areg d.toNat v)] }

/-- `amov` (04 R110). -/
def semAmov (d a : BitVec 5) (s : State) : SlotSem := aSem [.a a.toNat] d (s.me.ra a.toNat)

/-- `aset` (04 R110). -/
def semAset (d : BitVec 5) (s : BitVec 6) (st : State) : SlotSem := aSem [.s s.toNat] d (st.me.rs s.toNat)

/-- `aget` (04 R110). -/
def semAget (s : BitVec 6) (a : BitVec 5) (st : State) : SlotSem :=
  { srcs := [.a a.toNat], dsts := [.s s.toNat], lands := [(1, .sreg s.toNat (st.me.ra a.toNat))] }

/-- `aadd` (04 R110). -/
def semAadd (d a b : BitVec 5) (s : State) : SlotSem :=
  aSem [.a a.toNat, .a b.toNat] d (s.me.ra a.toNat + s.me.ra b.toNat)

/-- `aaddi` (04 R110). -/
def semAaddi (d a : BitVec 5) (i : BitVec 16) (s : State) : SlotSem :=
  aSem [.a a.toNat] d (s.me.ra a.toNat + sext64 16 i.toNat)

/-- `mset` (04 R111): each field of a descriptor is a destination of its own. -/
def semMset (m : BitVec 4) (f : BitVec 2) (s : BitVec 6) (st : State) : SlotSem :=
  { srcs := [.s s.toNat], dsts := [.m m.toNat f.toNat], lands := [(1, .mfld m.toNat f.toNat (st.me.rs s.toNat))] }

/-- `astep` (04 R113): the modifier update of an address register. -/
def semAstep (d : BitVec 5) (m : BitVec 4) (s : State) : SlotSem :=
  let t := s.me
  match modUpdate (t.ra d.toNat) (t.rm m.toNat) with
  | some v => aSem [.a d.toNat] d v
  | none => { aSem [.a d.toNat] d 0#64 with fault := some t.illegal }

/-- `acmp` (04 R114): unsigned. -/
def semAcmp (c p : BitVec 3) (a b : BitVec 5) (s : State) : SlotSem :=
  let t := s.me
  { srcs := [.a a.toNat, .a b.toNat], dsts := [.p p.toNat],
    lands := [(1, .preg p.toNat (cond (relA c.toNat) (t.ra a.toNat) (t.ra b.toNat)))] }

/-- AMOV in slot 2 or 3 (R110). -/
def execAmov (d : BitVec 5) (a : BitVec 5) (s : State) : Host.Outcome State Fault Refusal :=
  .next (runSlot s.cur.slot (semAmov d a s) s)

/-- ASET in slot 2 or 3 (R110). -/
def execAset (d : BitVec 5) (s : BitVec 6) (st : State) : Host.Outcome State Fault Refusal :=
  .next (runSlot st.cur.slot (semAset d s st) st)

/-- AGET in slot 2 or 3 (R110). -/
def execAget (s : BitVec 6) (a : BitVec 5) (st : State) : Host.Outcome State Fault Refusal :=
  .next (runSlot st.cur.slot (semAget s a st) st)

/-- AADD in slot 2 or 3 (R110). -/
def execAadd (d : BitVec 5) (a : BitVec 5) (b : BitVec 5) (s : State) : Host.Outcome State Fault Refusal :=
  .next (runSlot s.cur.slot (semAadd d a b s) s)

/-- AADDI in slot 2 or 3 (R110). -/
def execAaddi (d : BitVec 5) (a : BitVec 5) (i : BitVec 16) (s : State) : Host.Outcome State Fault Refusal :=
  .next (runSlot s.cur.slot (semAaddi d a i s) s)

/-- MSET in slot 2 or 3 (R111). -/
def execMset (m : BitVec 4) (f : BitVec 2) (s : BitVec 6) (st : State) : Host.Outcome State Fault Refusal :=
  .next (runSlot st.cur.slot (semMset m f s st) st)

/-- ASTEP in slot 2 or 3 (R113). -/
def execAstep (d : BitVec 5) (m : BitVec 4) (s : State) : Host.Outcome State Fault Refusal :=
  .next (runSlot s.cur.slot (semAstep d m s) s)

/-- ACMP in slot 2 or 3 (R114). -/
def execAcmp (c : BitVec 3) (p : BitVec 3) (a : BitVec 5) (b : BitVec 5) (s : State) : Host.Outcome State Fault Refusal :=
  .next (runSlot s.cur.slot (semAcmp c p a b s) s)

end Sys2Proof.Machine
end

