-- ==== Sys2Proof/WellFormed.lean ====
section
/-! DEFINITION. Well-formed steps: what the encoding tables of 03 and the index ranges of the agents allow, beyond the
widths that the constructors' types already carry. A slot word whose step is not well-formed is an illegal encoding. -/

namespace Sys2Proof

/-- The system registers that `mfsr` may name (01 R30). -/
def srReadable (r : Nat) : Bool := decide (r ≤ 0x14) || (decide (0x18 ≤ r) && decide (r ≤ 0x1F))

/-- The system registers that `mtsr` may name (01 R30). -/
def srWritable (r : Nat) : Bool :=
  r == 0 || r == 1 || (decide (5 ≤ r) && decide (r ≤ 0x11))

/-- A shared read port of a field that is read (03 R84). -/
def portOk (p : BitVec 2) : Bool := decide (p.toNat ≤ 2)

/-- Two fields of one operation that are read take different ports (03 R84, R85). -/
def portsOk (x y : BitVec 2) : Bool := portOk x && portOk y && decide (x ≠ y)

/-- With PM = 0 the modifier field is zero (03 R79, 07 R165). -/
def pmOk (p : BitVec 1) (m : BitVec 4) : Bool := decide (p = 1#1) || decide (m = 0#4)

/-- The checks of one step. -/
def Instr.wf : Instr → Bool
  | .nop _ => true
  | .br _ _ _ _ _ => true
  | .brA _ _ _ _ _ => true
  | .brZ _ _ _ _ _ => true
  | .jmp _ _ _ _ => true
  | .call _ _ _ _ => true
  | .ret _ _ _ => true
  | .jr _ _ _ _ => true
  | .rot _ _ _ => true
  | .doneTask _ _ _ => true
  | .trap _ _ _ _ => true
  | .sys _ _ _ _ => true
  | .rfe _ _ _ => true
  | .brk _ _ _ _ => true
  | .segend _ _ _ _ => true
  | .mfsr _ _ _ r _ => srReadable r.toNat
  | .mtsr _ _ _ r _ => srWritable r.toNat
  | .isync _ _ _ => true
  | .yield _ _ _ => true
  | .fence _ _ _ e _ => decide (e.toNat ≠ 7)
  | .drain _ _ e _ => decide (e.toNat ≠ 7)
  | .add _ _ _ _ _ => true
  | .sub _ _ _ _ _ => true
  | .and _ _ _ _ _ => true
  | .or _ _ _ _ _ => true
  | .xor _ _ _ _ _ => true
  | .andn _ _ _ _ _ => true
  | .shl _ _ _ _ _ => true
  | .shrS _ _ _ _ _ => true
  | .shrZ _ _ _ _ _ => true
  | .rotr _ _ _ _ _ => true
  | .minS _ _ _ _ _ => true
  | .minZ _ _ _ _ _ => true
  | .maxS _ _ _ _ _ => true
  | .maxZ _ _ _ _ _ => true
  | .mul _ _ _ _ _ => true
  | .mulhS _ _ _ _ _ => true
  | .mulhZ _ _ _ _ _ => true
  | .divS _ _ _ _ _ => true
  | .divZ _ _ _ _ _ => true
  | .remS _ _ _ _ _ => true
  | .remZ _ _ _ _ _ => true
  | .clz _ _ _ _ => true
  | .ctz _ _ _ _ => true
  | .popc _ _ _ _ => true
  | .sextB _ _ _ _ => true
  | .sextH _ _ _ _ => true
  | .sextW _ _ _ _ => true
  | .zextB _ _ _ _ => true
  | .zextH _ _ _ _ => true
  | .zextW _ _ _ _ => true
  | .cmp _ _ _ _ _ c => decide (c.toNat ≤ 9)
  | .cmpi _ _ c _ _ _ => decide (c.toNat ≤ 9)
  | .sel _ _ _ _ _ _ => true
  | .pand _ _ _ _ _ => true
  | .por _ _ _ _ _ => true
  | .pxor _ _ _ _ _ => true
  | .pnot _ _ _ _ => true
  | .pmov _ _ _ _ => true
  | .addi _ _ _ _ _ => true
  | .andi _ _ _ _ _ => true
  | .ori _ _ _ _ _ => true
  | .xori _ _ _ _ _ => true
  | .andni _ _ _ _ _ => true
  | .shli _ _ _ _ _ => true
  | .shriS _ _ _ _ _ => true
  | .shriZ _ _ _ _ _ => true
  | .lui _ _ _ _ => true
  | .fadd _ _ _ _ _ => true
  | .fsub _ _ _ _ _ => true
  | .fmul _ _ _ _ _ => true
  | .fma _ _ _ _ _ => true
  | .fcmp _ _ _ _ _ c => decide (c.toNat ≤ 6)
  | .fcvtF2iS _ _ _ _ => true
  | .fcvtF2iZ _ _ _ _ => true
  | .fcvtI2fS _ _ _ _ => true
  | .fcvtI2fZ _ _ _ _ => true
  | .fcvtF2h _ _ _ _ => true
  | .fcvtH2f _ _ _ _ => true
  | .fcvtF2b _ _ _ _ => true
  | .fcvtB2f _ _ _ _ => true
  | .sGet _ _ _ _ _ p _ => portOk p
  | .sPut _ _ _ _ _ _ => true
  | .amov _ _ => true
  | .aset _ _ => true
  | .aget _ _ => true
  | .aadd _ _ _ => true
  | .aaddi _ _ _ => true
  | .mset _ _ _ => true
  | .astep _ _ => true
  | .acmp c _ _ _ => decide (c.toNat ≤ 5)
  | .ldBS _ _ _ _ p m _ => pmOk p m
  | .ldBZ _ _ _ _ p m _ => pmOk p m
  | .ldHS _ _ _ _ p m _ => pmOk p m
  | .ldHZ _ _ _ _ p m _ => pmOk p m
  | .ldWS _ _ _ _ p m _ => pmOk p m
  | .ldWZ _ _ _ _ p m _ => pmOk p m
  | .ldD _ _ _ _ p m _ => pmOk p m
  | .stB _ _ _ _ p m _ => pmOk p m
  | .stH _ _ _ _ p m _ => pmOk p m
  | .stW _ _ _ _ p m _ => pmOk p m
  | .stD _ _ _ _ p m _ => pmOk p m
  | .ldV _ _ _ _ p m _ => pmOk p m
  | .stV _ _ _ _ p m t _ => pmOk p m && portOk t
  | .ldBlk _ _ _ _ p m _ => pmOk p m
  | .stBlk _ _ _ _ p m t _ => pmOk p m && portOk t
  | .pf _ _ _ p m _ => pmOk p m
  | .atom _ _ _ _ _ _ o => decide (o.toNat ≤ 9)
  | .ldRow _ _ _ _ p m _ => pmOk p m
  | .ldFw _ _ _ _ p m _ => pmOk p m
  | .stFw _ _ _ _ p m t _ => pmOk p m && portOk t
  | .vaddF _ _ _ _ x _ y => portsOk x y
  | .vsubF _ _ _ _ x _ y => portsOk x y
  | .vmulF _ _ _ _ x _ y => portsOk x y
  | .vfmaF _ _ _ _ x _ y => portsOk x y
  | .vminF _ _ _ _ x _ y => portsOk x y
  | .vmaxF _ _ _ _ x _ y => portsOk x y
  | .vabsF _ _ _ _ x => portOk x
  | .vnegF _ _ _ _ x => portOk x
  | .vrcp _ _ _ _ x => portOk x
  | .vrsq _ _ _ _ x => portOk x
  | .vexp2 _ _ _ _ x => portOk x
  | .vlog2 _ _ _ _ x => portOk x
  | .vaddI _ _ _ _ x _ y => portsOk x y
  | .vsubI _ _ _ _ x _ y => portsOk x y
  | .vmulI _ _ _ _ x _ y => portsOk x y
  | .vminI _ _ _ _ x _ y => portsOk x y
  | .vmaxI _ _ _ _ x _ y => portsOk x y
  | .vand _ _ _ _ x _ y => portsOk x y
  | .vor _ _ _ _ x _ y => portsOk x y
  | .vxor _ _ _ _ x _ y => portsOk x y
  | .vshl _ _ _ _ x _ y => portsOk x y
  | .vshrS _ _ _ _ x _ y => portsOk x y
  | .vshrZ _ _ _ _ x _ y => portsOk x y
  | .vcmpF _ _ c _ _ x _ y => decide (c.toNat ≤ 6) && portsOk x y
  | .vcmpI _ _ c _ _ x _ y => decide (c.toNat ≤ 5) && portsOk x y
  | .vsel _ _ _ _ x _ y => portsOk x y
  | .vcvt _ _ _ _ x => portOk x
  | .vpack _ _ _ _ x => portOk x
  | .vunpack _ _ _ _ x => portOk x
  | .vsum _ _ _ _ x => portOk x
  | .vdot _ _ _ _ x _ y => portsOk x y
  | .vperm _ _ _ _ x _ y => portsOk x y
  | .vbcast _ _ _ _ => true
  | .vmov _ _ _ _ x => portOk x
  | .vld _ _ _ _ p m => pmOk p m
  | .vseedSet _ _ _ x => portOk x
  | .vseedGet _ _ _ => true
  | .vdecay _ _ _ _ x => portOk x
  | .vfwadd _ _ _ _ x _ y => portsOk x y
  | .mmul _ _ _ _ => true
  | .mmulWt _ _ _ => true
  | .mmula _ _ _ _ => true
  | .mmulaWt _ _ _ => true
  | .mmulSp _ _ _ _ => true
  | .mmulSpWt _ _ _ => true
  | .mconv _ _ _ _ => true
  | .mconvWt _ _ _ => true
  | .mconva _ _ _ _ => true
  | .mconvaWt _ _ _ => true
  | .mwld _ _ => true
  | .mdrain _ _ _ _ => true
  | .mzero _ _ => true
  | .mlu _ _ => true
  | .mchol _ _ => true
  | .mtri _ _ => true
  | .mtrs _ _ _ _ _ => true
  | .mqr _ _ _ => true
  | .mqapply _ _ _ _ => true
  | .mperm _ _ _ => true
  | .mres _ _ => true
  | .cp _ _ _ _ _ => true
  | .cpT _ _ _ _ _ => true
  | .cpf _ _ _ _ => true
  | .efrSet _ => true
  | .vdSet _ _ => true
  | .rotSet _ _ _ => true
  | .mlpSet _ => true
  | .swPermit _ _ _ p => decide (p.toNat ≤ 21)
  | .nmRadd _ _ p _ _ _ _ => portOk p
  | .nmFwadd _ _ p _ _ _ => portOk p
  | .nmRed _ _ p _ _ _ => portOk p
  | .nmOpt _ _ p _ _ => portOk p
  | .nmSweepReg _ _ _ => true
  | .nmSweepUnreg _ _ _ => true
  | .tspawn _ _ _ => true
  | .tjoin _ _ => true
  | .gstepAdv i => decide (i ≠ 0#12)
  | .annulledBundle g => decide (g < 4608)
  | .stallCountExpiry g => decide (g < 4608)
  | .bundleComplete g => decide (g < 4608)
  | .landing g => decide (g < 4608)
  | .engineLaunch g => decide (g < 4608)
  | .loadDataArrival g _ => decide (g < 4608)
  | .vldDataArrival g _ => decide (g < 4608)
  | .atomicReturn g _ => decide (g < 4608)
  | .positionHoldEnd g => decide (g < 4608)
  | .blockClear g => decide (g < 4608)
  | .strandSwitch c => decide (c < 1152)
  | .taskAbort g => decide (g < 4608)
  | .copyStart c => decide (c < 1152)
  | .copyCompletion c _ => decide (c < 1152)
  | .matrixCommandStart c => decide (c < 1152)
  | .matrixResultProduced c => decide (c < 1152)
  | .familyCommandDone c => decide (c < 1152)
  | .factorisationBreakdown c => decide (c < 1152)
  | .taskRegistration _ => true
  | .dependenceEntryGrant d => decide (d < 4)
  | .dispatch u => decide (u < 72)
  | .startOfTaskActions g => decide (g < 4608)
  | .endOfTaskActions g => decide (g < 4608)
  | .permitStart d p => decide (d < 4) && decide (p < 22)
  | .permitCompletion d p => decide (d < 4) && decide (p < 22)
  | .nmCommandExecute c _ => decide (c < 1152)
  | .nmCommandCompletion c _ => decide (c < 1152)
  | .streamNop d n => decide (d < 4) && decide (n < 8)
  | .launch d n _ => decide (d < 4) && decide (n < 8)
  | .launchn d n _ _ _ => decide (d < 4) && decide (n < 8)
  | .streamLoop d n _ _ _ => decide (d < 4) && decide (n < 8)
  | .streamSkip d n _ _ _ _ => decide (d < 4) && decide (n < 8)
  | .waitv d n _ _ _ => decide (d < 4) && decide (n < 8)
  | .waitvSatisfied d n => decide (d < 4) && decide (n < 8)
  | .waitg d n _ => decide (d < 4) && decide (n < 8)
  | .waitgDone d n => decide (d < 4) && decide (n < 8)
  | .streamWrite d n _ _ => decide (d < 4) && decide (n < 8)
  | .streamJoin d n _ => decide (d < 4) && decide (n < 8)
  | .disposeTakedown d n _ => decide (d < 4) && decide (n < 8)
  | .disposeRelease d n _ => decide (d < 4) && decide (n < 8)
  | .cswrDoorbell d n _ => decide (d < 4) && decide (n < 8)
  | .dbell _ => true
  | .csstHaltClear d n => decide (d < 4) && decide (n < 8)
  | .faultRecordAppend d => decide (d < 4)
  | .msixUnmask v => decide (v < 16)
  | .tictlGo _ => true
  | .translationInvalidationDone => true
  | .layoutBind _ _ => true
  | .layoutUnbind _ _ => true
  | .fabricHandleBind _ _ => true
  | .fabricHandleUnbind _ _ => true
  | .gstepWrite _ => true
  | .pctlWrite _ _ => true
  | .ppreStop _ => true
  | .ppreResume _ => true
  | .rowChange c => decide (c < 1152)
  | .cadenceSwitch c => decide (c < 1152)
  | .priorityPreemption u _ => decide (u < 72)
  | .stopSequence c => decide (c < 1152)
  | .partitionSwap c => decide (c < 1152)
  | .debugFreeze => true
  | .freezeComplete => true
  | .debugResume => true
  | .debugStep => true
  | .daReadState => true
  | .daWriteState => true
  | .daReadUrs => true
  | .daWriteUrs => true
  | .daReadMemory => true
  | .daWriteMemory => true
  | .trctlWrite u _ => decide (u < 72)
  | .traceSample u => decide (u < 72)
  | .replayArm d n _ => decide (d < 4) && decide (n < 8)
  | .replayPassEnd g => decide (g < 4608)
  | .coldReset => true
  | .rstctlWarm _ => true
  | .hbmRetrainDone k => decide (k < 8)
  | .thermalTrip => true
  | .pwrcapWrite _ => true
  | .pkgidWrite _ => true
  | .dmaWindowWrite w _ _ => decide (w < 32)
  | .vlPortStateChange p _ _ => decide (p < 24)
  | .flitReceive p _ => decide (p < 24)
  | .pathLost p => decide (p < 24)
  | .jobCardRegister _ _ _ => true
  | .stagingFetch u _ => decide (u < 72)
  | .pciePowerState _ => true
  | .registerWrite d o _ => decide (d < 4) && decide (o < 1048576)
  | .illegalEncoding g _ => decide (g < 4608)
  | .bundleFetchFault g => decide (g < 4608)
  | .governorThrottle _ => true
  | .uliquinWarmReset => true
  | .translationCacheDrop c _ => decide (c < 1152)
  | .storageError c _ _ _ => decide (c < 1152)

end Sys2Proof
end

