-- ==== Sys2Proof/Decode.lean ====
section
/-! DEFINITION. Decoding: the word of a slot to the step it stands for, total, refusing whatever is no operation of the
slot (03 R69-R83); then the encoder, written from the same tables. -/

namespace Sys2Proof

/-- Bits `lo` to `lo + len - 1` of the word hold `v`. -/
def fx (w : BitVec 32) (lo len v : Nat) : Bool := w.toNat / 2 ^ lo % 2 ^ len == v

/-- The field of `len` bits at `lo`. -/
def fld (w : BitVec 32) (lo len : Nat) : BitVec len := BitVec.ofNat len (w.toNat / 2 ^ lo)

/-- The C slot (03 R75). The word of one of this slot's operations, before the checks of `Instr.wf`. -/
def rawC (w : BitVec 32) : Option Instr :=
  match w.toNat / 0x4000000 with
  | 0 =>
    if fx w 4 22 0 then some (.nop (fld w 0 4))
    else none
  | 1 =>
    if fx w 20 1 0 then some (.br (fld w 23 3) (fld w 22 1) (fld w 21 1) (fld w 4 16) (fld w 0 4))
    else none
  | 2 =>
    if fx w 20 1 0 then some (.brA (fld w 23 3) (fld w 22 1) (fld w 21 1) (fld w 4 16) (fld w 0 4))
    else none
  | 3 =>
    if fx w 20 1 0 then some (.brZ (fld w 23 3) (fld w 22 1) (fld w 21 1) (fld w 4 16) (fld w 0 4))
    else none
  | 4 =>
    some (.jmp (fld w 23 3) (fld w 22 1) (fld w 4 18) (fld w 0 4))
  | 5 =>
    some (.call (fld w 23 3) (fld w 22 1) (fld w 4 18) (fld w 0 4))
  | 6 =>
    if fx w 4 18 0 then some (.ret (fld w 23 3) (fld w 22 1) (fld w 0 4))
    else none
  | 7 =>
    if fx w 4 13 0 then some (.jr (fld w 23 3) (fld w 22 1) (fld w 17 5) (fld w 0 4))
    else none
  | 8 =>
    if fx w 4 18 0 then some (.rot (fld w 23 3) (fld w 22 1) (fld w 0 4))
    else none
  | 9 =>
    if fx w 4 18 0 then some (.doneTask (fld w 23 3) (fld w 22 1) (fld w 0 4))
    else none
  | 10 =>
    if fx w 12 10 0 then some (.trap (fld w 23 3) (fld w 22 1) (fld w 4 8) (fld w 0 4))
    else none
  | 11 =>
    if fx w 20 2 0 then some (.sys (fld w 23 3) (fld w 22 1) (fld w 4 16) (fld w 0 4))
    else none
  | 12 =>
    if fx w 4 18 0 then some (.rfe (fld w 23 3) (fld w 22 1) (fld w 0 4))
    else none
  | 13 =>
    if fx w 12 10 0 then some (.brk (fld w 23 3) (fld w 22 1) (fld w 4 8) (fld w 0 4))
    else none
  | 14 =>
    some (.segend (fld w 23 3) (fld w 22 1) (fld w 4 18) (fld w 0 4))
  | 15 =>
    if fx w 4 4 0 then some (.mfsr (fld w 23 3) (fld w 22 1) (fld w 16 6) (fld w 8 8) (fld w 0 4))
    else none
  | 16 =>
    if fx w 4 4 0 then some (.mtsr (fld w 23 3) (fld w 22 1) (fld w 16 6) (fld w 8 8) (fld w 0 4))
    else none
  | 17 =>
    if fx w 4 18 0 then some (.isync (fld w 23 3) (fld w 22 1) (fld w 0 4))
    else none
  | 18 =>
    if fx w 4 18 0 then some (.yield (fld w 23 3) (fld w 22 1) (fld w 0 4))
    else none
  | 19 =>
    if fx w 4 13 0 then some (.fence (fld w 23 3) (fld w 22 1) (fld w 20 2) (fld w 17 3) (fld w 0 4))
    else none
  | 20 =>
    if fx w 4 13 0 && fx w 20 2 0 then some (.drain (fld w 23 3) (fld w 22 1) (fld w 17 3) (fld w 0 4))
    else none
  | _ => none

/-- The S slot (03 R76, R77). The word of one of this slot's operations, before the checks of `Instr.wf`. -/
def rawS (w : BitVec 32) : Option Instr :=
  match w.toNat / 0x4000000 with
  | 0 => if w = 0#32 then some (.nop 0#4) else none
  | 1 =>
    if fx w 0 4 0 then some (.add (fld w 23 3) (fld w 22 1) (fld w 16 6) (fld w 10 6) (fld w 4 6))
    else if fx w 0 4 1 then some (.sub (fld w 23 3) (fld w 22 1) (fld w 16 6) (fld w 10 6) (fld w 4 6))
    else if fx w 0 4 2 then some (.and (fld w 23 3) (fld w 22 1) (fld w 16 6) (fld w 10 6) (fld w 4 6))
    else if fx w 0 4 3 then some (.or (fld w 23 3) (fld w 22 1) (fld w 16 6) (fld w 10 6) (fld w 4 6))
    else if fx w 0 4 4 then some (.xor (fld w 23 3) (fld w 22 1) (fld w 16 6) (fld w 10 6) (fld w 4 6))
    else if fx w 0 4 5 then some (.andn (fld w 23 3) (fld w 22 1) (fld w 16 6) (fld w 10 6) (fld w 4 6))
    else if fx w 0 4 6 then some (.shl (fld w 23 3) (fld w 22 1) (fld w 16 6) (fld w 10 6) (fld w 4 6))
    else if fx w 0 4 7 then some (.shrS (fld w 23 3) (fld w 22 1) (fld w 16 6) (fld w 10 6) (fld w 4 6))
    else if fx w 0 4 8 then some (.shrZ (fld w 23 3) (fld w 22 1) (fld w 16 6) (fld w 10 6) (fld w 4 6))
    else if fx w 0 4 9 then some (.rotr (fld w 23 3) (fld w 22 1) (fld w 16 6) (fld w 10 6) (fld w 4 6))
    else if fx w 0 4 10 then some (.minS (fld w 23 3) (fld w 22 1) (fld w 16 6) (fld w 10 6) (fld w 4 6))
    else if fx w 0 4 11 then some (.minZ (fld w 23 3) (fld w 22 1) (fld w 16 6) (fld w 10 6) (fld w 4 6))
    else if fx w 0 4 12 then some (.maxS (fld w 23 3) (fld w 22 1) (fld w 16 6) (fld w 10 6) (fld w 4 6))
    else if fx w 0 4 13 then some (.maxZ (fld w 23 3) (fld w 22 1) (fld w 16 6) (fld w 10 6) (fld w 4 6))
    else none
  | 2 =>
    if fx w 0 4 0 then some (.mul (fld w 23 3) (fld w 22 1) (fld w 16 6) (fld w 10 6) (fld w 4 6))
    else if fx w 0 4 1 then some (.mulhS (fld w 23 3) (fld w 22 1) (fld w 16 6) (fld w 10 6) (fld w 4 6))
    else if fx w 0 4 2 then some (.mulhZ (fld w 23 3) (fld w 22 1) (fld w 16 6) (fld w 10 6) (fld w 4 6))
    else if fx w 0 4 3 then some (.divS (fld w 23 3) (fld w 22 1) (fld w 16 6) (fld w 10 6) (fld w 4 6))
    else if fx w 0 4 4 then some (.divZ (fld w 23 3) (fld w 22 1) (fld w 16 6) (fld w 10 6) (fld w 4 6))
    else if fx w 0 4 5 then some (.remS (fld w 23 3) (fld w 22 1) (fld w 16 6) (fld w 10 6) (fld w 4 6))
    else if fx w 0 4 6 then some (.remZ (fld w 23 3) (fld w 22 1) (fld w 16 6) (fld w 10 6) (fld w 4 6))
    else none
  | 3 =>
    if fx w 0 10 0 then some (.clz (fld w 23 3) (fld w 22 1) (fld w 16 6) (fld w 10 6))
    else if fx w 0 10 1 then some (.ctz (fld w 23 3) (fld w 22 1) (fld w 16 6) (fld w 10 6))
    else if fx w 0 10 2 then some (.popc (fld w 23 3) (fld w 22 1) (fld w 16 6) (fld w 10 6))
    else if fx w 0 10 3 then some (.sextB (fld w 23 3) (fld w 22 1) (fld w 16 6) (fld w 10 6))
    else if fx w 0 10 4 then some (.sextH (fld w 23 3) (fld w 22 1) (fld w 16 6) (fld w 10 6))
    else if fx w 0 10 5 then some (.sextW (fld w 23 3) (fld w 22 1) (fld w 16 6) (fld w 10 6))
    else if fx w 0 10 6 then some (.zextB (fld w 23 3) (fld w 22 1) (fld w 16 6) (fld w 10 6))
    else if fx w 0 10 7 then some (.zextH (fld w 23 3) (fld w 22 1) (fld w 16 6) (fld w 10 6))
    else if fx w 0 10 8 then some (.zextW (fld w 23 3) (fld w 22 1) (fld w 16 6) (fld w 10 6))
    else none
  | 4 =>
    if fx w 19 3 0 then some (.cmp (fld w 23 3) (fld w 22 1) (fld w 16 3) (fld w 10 6) (fld w 4 6) (fld w 0 4))
    else none
  | 5 =>
    some (.cmpi (fld w 23 3) (fld w 22 1) (fld w 18 4) (fld w 15 3) (fld w 9 6) (fld w 0 9))
  | 6 =>
    if fx w 0 1 0 then some (.sel (fld w 23 3) (fld w 22 1) (fld w 16 6) (fld w 10 6) (fld w 4 6) (fld w 1 3))
    else none
  | 7 =>
    if fx w 0 4 0 && fx w 7 3 0 && fx w 13 3 0 && fx w 19 3 0 then some (.pand (fld w 23 3) (fld w 22 1) (fld w 16 3) (fld w 10 3) (fld w 4 3))
    else if fx w 0 4 1 && fx w 7 3 0 && fx w 13 3 0 && fx w 19 3 0 then some (.por (fld w 23 3) (fld w 22 1) (fld w 16 3) (fld w 10 3) (fld w 4 3))
    else if fx w 0 4 2 && fx w 7 3 0 && fx w 13 3 0 && fx w 19 3 0 then some (.pxor (fld w 23 3) (fld w 22 1) (fld w 16 3) (fld w 10 3) (fld w 4 3))
    else if fx w 0 10 3 && fx w 13 3 0 && fx w 19 3 0 then some (.pnot (fld w 23 3) (fld w 22 1) (fld w 16 3) (fld w 10 3))
    else if fx w 0 10 4 && fx w 13 3 0 && fx w 19 3 0 then some (.pmov (fld w 23 3) (fld w 22 1) (fld w 16 3) (fld w 10 3))
    else none
  | 8 =>
    some (.addi (fld w 23 3) (fld w 22 1) (fld w 16 6) (fld w 10 6) (fld w 0 10))
  | 9 =>
    some (.andi (fld w 23 3) (fld w 22 1) (fld w 16 6) (fld w 10 6) (fld w 0 10))
  | 10 =>
    some (.ori (fld w 23 3) (fld w 22 1) (fld w 16 6) (fld w 10 6) (fld w 0 10))
  | 11 =>
    some (.xori (fld w 23 3) (fld w 22 1) (fld w 16 6) (fld w 10 6) (fld w 0 10))
  | 12 =>
    some (.andni (fld w 23 3) (fld w 22 1) (fld w 16 6) (fld w 10 6) (fld w 0 10))
  | 13 =>
    if fx w 6 4 0 then some (.shli (fld w 23 3) (fld w 22 1) (fld w 16 6) (fld w 10 6) (fld w 0 6))
    else none
  | 14 =>
    if fx w 6 4 0 then some (.shriS (fld w 23 3) (fld w 22 1) (fld w 16 6) (fld w 10 6) (fld w 0 6))
    else none
  | 15 =>
    if fx w 6 4 0 then some (.shriZ (fld w 23 3) (fld w 22 1) (fld w 16 6) (fld w 10 6) (fld w 0 6))
    else none
  | 16 =>
    some (.lui (fld w 23 3) (fld w 22 1) (fld w 16 6) (fld w 0 16))
  | 17 =>
    if fx w 0 4 0 then some (.fadd (fld w 23 3) (fld w 22 1) (fld w 16 6) (fld w 10 6) (fld w 4 6))
    else if fx w 0 4 1 then some (.fsub (fld w 23 3) (fld w 22 1) (fld w 16 6) (fld w 10 6) (fld w 4 6))
    else if fx w 0 4 2 then some (.fmul (fld w 23 3) (fld w 22 1) (fld w 16 6) (fld w 10 6) (fld w 4 6))
    else if fx w 0 4 3 then some (.fma (fld w 23 3) (fld w 22 1) (fld w 16 6) (fld w 10 6) (fld w 4 6))
    else none
  | 18 =>
    if fx w 19 3 0 then some (.fcmp (fld w 23 3) (fld w 22 1) (fld w 16 3) (fld w 10 6) (fld w 4 6) (fld w 0 4))
    else none
  | 19 =>
    if fx w 0 10 0 then some (.fcvtF2iS (fld w 23 3) (fld w 22 1) (fld w 16 6) (fld w 10 6))
    else if fx w 0 10 1 then some (.fcvtF2iZ (fld w 23 3) (fld w 22 1) (fld w 16 6) (fld w 10 6))
    else if fx w 0 10 2 then some (.fcvtI2fS (fld w 23 3) (fld w 22 1) (fld w 16 6) (fld w 10 6))
    else if fx w 0 10 3 then some (.fcvtI2fZ (fld w 23 3) (fld w 22 1) (fld w 16 6) (fld w 10 6))
    else if fx w 0 10 4 then some (.fcvtF2h (fld w 23 3) (fld w 22 1) (fld w 16 6) (fld w 10 6))
    else if fx w 0 10 5 then some (.fcvtH2f (fld w 23 3) (fld w 22 1) (fld w 16 6) (fld w 10 6))
    else if fx w 0 10 6 then some (.fcvtF2b (fld w 23 3) (fld w 22 1) (fld w 16 6) (fld w 10 6))
    else if fx w 0 10 7 then some (.fcvtB2f (fld w 23 3) (fld w 22 1) (fld w 16 6) (fld w 10 6))
    else none
  | 20 =>
    some (.sGet (fld w 23 3) (fld w 22 1) (fld w 16 6) (fld w 10 6) (fld w 4 6) (fld w 2 2) (fld w 0 2))
  | 21 =>
    if fx w 2 2 3 then some (.sPut (fld w 23 3) (fld w 22 1) (fld w 16 6) (fld w 10 6) (fld w 4 6) (fld w 0 2))
    else none
  | _ => none

/-- The A slots (03 R78). The word of one of this slot's operations, before the checks of `Instr.wf`. -/
def rawA (w : BitVec 32) : Option Instr :=
  match w.toNat / 0x4000000 with
  | 0 => if w = 0#32 then some (.nop 0#4) else none
  | 1 =>
    if fx w 0 16 0 then some (.amov (fld w 21 5) (fld w 16 5))
    else none
  | 2 =>
    if fx w 0 15 0 then some (.aset (fld w 21 5) (fld w 15 6))
    else none
  | 3 =>
    if fx w 0 15 0 then some (.aget (fld w 20 6) (fld w 15 5))
    else none
  | 4 =>
    if fx w 0 11 0 then some (.aadd (fld w 21 5) (fld w 16 5) (fld w 11 5))
    else none
  | 5 =>
    some (.aaddi (fld w 21 5) (fld w 16 5) (fld w 0 16))
  | 6 =>
    if fx w 0 14 0 then some (.mset (fld w 22 4) (fld w 20 2) (fld w 14 6))
    else none
  | 7 =>
    if fx w 0 17 0 then some (.astep (fld w 21 5) (fld w 17 4))
    else none
  | 8 =>
    if fx w 0 10 0 then some (.acmp (fld w 23 3) (fld w 20 3) (fld w 15 5) (fld w 10 5))
    else none
  | _ => none

/-- The L slot (03 R79). The word of one of this slot's operations, before the checks of `Instr.wf`. -/
def rawL (w : BitVec 32) : Option Instr :=
  match w.toNat / 0x4000000 with
  | 0 => if w = 0#32 then some (.nop 0#4) else none
  | 1 =>
    some (.ldBS (fld w 23 3) (fld w 22 1) (fld w 16 6) (fld w 11 5) (fld w 10 1) (fld w 6 4) (fld w 0 6))
  | 2 =>
    some (.ldBZ (fld w 23 3) (fld w 22 1) (fld w 16 6) (fld w 11 5) (fld w 10 1) (fld w 6 4) (fld w 0 6))
  | 3 =>
    some (.ldHS (fld w 23 3) (fld w 22 1) (fld w 16 6) (fld w 11 5) (fld w 10 1) (fld w 6 4) (fld w 0 6))
  | 4 =>
    some (.ldHZ (fld w 23 3) (fld w 22 1) (fld w 16 6) (fld w 11 5) (fld w 10 1) (fld w 6 4) (fld w 0 6))
  | 5 =>
    some (.ldWS (fld w 23 3) (fld w 22 1) (fld w 16 6) (fld w 11 5) (fld w 10 1) (fld w 6 4) (fld w 0 6))
  | 6 =>
    some (.ldWZ (fld w 23 3) (fld w 22 1) (fld w 16 6) (fld w 11 5) (fld w 10 1) (fld w 6 4) (fld w 0 6))
  | 7 =>
    some (.ldD (fld w 23 3) (fld w 22 1) (fld w 16 6) (fld w 11 5) (fld w 10 1) (fld w 6 4) (fld w 0 6))
  | 8 =>
    some (.stB (fld w 23 3) (fld w 22 1) (fld w 16 6) (fld w 11 5) (fld w 10 1) (fld w 6 4) (fld w 0 6))
  | 9 =>
    some (.stH (fld w 23 3) (fld w 22 1) (fld w 16 6) (fld w 11 5) (fld w 10 1) (fld w 6 4) (fld w 0 6))
  | 10 =>
    some (.stW (fld w 23 3) (fld w 22 1) (fld w 16 6) (fld w 11 5) (fld w 10 1) (fld w 6 4) (fld w 0 6))
  | 11 =>
    some (.stD (fld w 23 3) (fld w 22 1) (fld w 16 6) (fld w 11 5) (fld w 10 1) (fld w 6 4) (fld w 0 6))
  | 12 =>
    if fx w 4 2 3 then some (.ldV (fld w 23 3) (fld w 22 1) (fld w 16 6) (fld w 11 5) (fld w 10 1) (fld w 6 4) (fld w 0 4))
    else none
  | 13 =>
    some (.stV (fld w 23 3) (fld w 22 1) (fld w 16 6) (fld w 11 5) (fld w 10 1) (fld w 6 4) (fld w 4 2) (fld w 0 4))
  | 14 =>
    if fx w 4 2 3 then some (.ldBlk (fld w 23 3) (fld w 22 1) (fld w 16 6) (fld w 11 5) (fld w 10 1) (fld w 6 4) (fld w 0 4))
    else none
  | 15 =>
    some (.stBlk (fld w 23 3) (fld w 22 1) (fld w 16 6) (fld w 11 5) (fld w 10 1) (fld w 6 4) (fld w 4 2) (fld w 0 4))
  | 16 =>
    if fx w 16 6 0 then some (.pf (fld w 23 3) (fld w 22 1) (fld w 11 5) (fld w 10 1) (fld w 6 4) (fld w 0 6))
    else none
  | 17 =>
    some (.atom (fld w 23 3) (fld w 22 1) (fld w 16 6) (fld w 11 5) (fld w 5 6) (fld w 4 1) (fld w 0 4))
  | 18 =>
    if fx w 4 2 3 then some (.ldRow (fld w 23 3) (fld w 22 1) (fld w 16 6) (fld w 11 5) (fld w 10 1) (fld w 6 4) (fld w 0 4))
    else none
  | 19 =>
    if fx w 4 2 3 then some (.ldFw (fld w 23 3) (fld w 22 1) (fld w 16 6) (fld w 11 5) (fld w 10 1) (fld w 6 4) (fld w 0 4))
    else none
  | 20 =>
    some (.stFw (fld w 23 3) (fld w 22 1) (fld w 16 6) (fld w 11 5) (fld w 10 1) (fld w 6 4) (fld w 4 2) (fld w 0 4))
  | _ => none

/-- The V slot (03 R80, R81). The word of one of this slot's operations, before the checks of `Instr.wf`. -/
def rawV (w : BitVec 32) : Option Instr :=
  match w.toNat / 0x4000000 with
  | 0 => if w = 0#32 then some (.nop 0#4) else none
  | 1 =>
    some (.vaddF (fld w 23 3) (fld w 22 1) (fld w 16 6) (fld w 10 6) (fld w 8 2) (fld w 2 6) (fld w 0 2))
  | 2 =>
    some (.vsubF (fld w 23 3) (fld w 22 1) (fld w 16 6) (fld w 10 6) (fld w 8 2) (fld w 2 6) (fld w 0 2))
  | 3 =>
    some (.vmulF (fld w 23 3) (fld w 22 1) (fld w 16 6) (fld w 10 6) (fld w 8 2) (fld w 2 6) (fld w 0 2))
  | 4 =>
    some (.vfmaF (fld w 23 3) (fld w 22 1) (fld w 16 6) (fld w 10 6) (fld w 8 2) (fld w 2 6) (fld w 0 2))
  | 5 =>
    some (.vminF (fld w 23 3) (fld w 22 1) (fld w 16 6) (fld w 10 6) (fld w 8 2) (fld w 2 6) (fld w 0 2))
  | 6 =>
    some (.vmaxF (fld w 23 3) (fld w 22 1) (fld w 16 6) (fld w 10 6) (fld w 8 2) (fld w 2 6) (fld w 0 2))
  | 7 =>
    if fx w 0 8 3 then some (.vabsF (fld w 23 3) (fld w 22 1) (fld w 16 6) (fld w 10 6) (fld w 8 2))
    else none
  | 8 =>
    if fx w 0 8 3 then some (.vnegF (fld w 23 3) (fld w 22 1) (fld w 16 6) (fld w 10 6) (fld w 8 2))
    else none
  | 9 =>
    if fx w 0 8 3 then some (.vrcp (fld w 23 3) (fld w 22 1) (fld w 16 6) (fld w 10 6) (fld w 8 2))
    else none
  | 10 =>
    if fx w 0 8 3 then some (.vrsq (fld w 23 3) (fld w 22 1) (fld w 16 6) (fld w 10 6) (fld w 8 2))
    else none
  | 11 =>
    if fx w 0 8 3 then some (.vexp2 (fld w 23 3) (fld w 22 1) (fld w 16 6) (fld w 10 6) (fld w 8 2))
    else none
  | 12 =>
    if fx w 0 8 3 then some (.vlog2 (fld w 23 3) (fld w 22 1) (fld w 16 6) (fld w 10 6) (fld w 8 2))
    else none
  | 13 =>
    some (.vaddI (fld w 23 3) (fld w 22 1) (fld w 16 6) (fld w 10 6) (fld w 8 2) (fld w 2 6) (fld w 0 2))
  | 14 =>
    some (.vsubI (fld w 23 3) (fld w 22 1) (fld w 16 6) (fld w 10 6) (fld w 8 2) (fld w 2 6) (fld w 0 2))
  | 15 =>
    some (.vmulI (fld w 23 3) (fld w 22 1) (fld w 16 6) (fld w 10 6) (fld w 8 2) (fld w 2 6) (fld w 0 2))
  | 16 =>
    some (.vminI (fld w 23 3) (fld w 22 1) (fld w 16 6) (fld w 10 6) (fld w 8 2) (fld w 2 6) (fld w 0 2))
  | 17 =>
    some (.vmaxI (fld w 23 3) (fld w 22 1) (fld w 16 6) (fld w 10 6) (fld w 8 2) (fld w 2 6) (fld w 0 2))
  | 18 =>
    some (.vand (fld w 23 3) (fld w 22 1) (fld w 16 6) (fld w 10 6) (fld w 8 2) (fld w 2 6) (fld w 0 2))
  | 19 =>
    some (.vor (fld w 23 3) (fld w 22 1) (fld w 16 6) (fld w 10 6) (fld w 8 2) (fld w 2 6) (fld w 0 2))
  | 20 =>
    some (.vxor (fld w 23 3) (fld w 22 1) (fld w 16 6) (fld w 10 6) (fld w 8 2) (fld w 2 6) (fld w 0 2))
  | 21 =>
    some (.vshl (fld w 23 3) (fld w 22 1) (fld w 16 6) (fld w 10 6) (fld w 8 2) (fld w 2 6) (fld w 0 2))
  | 22 =>
    some (.vshrS (fld w 23 3) (fld w 22 1) (fld w 16 6) (fld w 10 6) (fld w 8 2) (fld w 2 6) (fld w 0 2))
  | 23 =>
    some (.vshrZ (fld w 23 3) (fld w 22 1) (fld w 16 6) (fld w 10 6) (fld w 8 2) (fld w 2 6) (fld w 0 2))
  | 24 =>
    some (.vcmpF (fld w 23 3) (fld w 22 1) (fld w 19 3) (fld w 16 3) (fld w 10 6) (fld w 8 2) (fld w 2 6) (fld w 0 2))
  | 25 =>
    some (.vcmpI (fld w 23 3) (fld w 22 1) (fld w 19 3) (fld w 16 3) (fld w 10 6) (fld w 8 2) (fld w 2 6) (fld w 0 2))
  | 26 =>
    some (.vsel (fld w 23 3) (fld w 22 1) (fld w 16 6) (fld w 10 6) (fld w 8 2) (fld w 2 6) (fld w 0 2))
  | 27 =>
    if fx w 0 8 3 then some (.vcvt (fld w 23 3) (fld w 22 1) (fld w 16 6) (fld w 10 6) (fld w 8 2))
    else none
  | 28 =>
    if fx w 0 8 3 then some (.vpack (fld w 23 3) (fld w 22 1) (fld w 16 6) (fld w 10 6) (fld w 8 2))
    else none
  | 29 =>
    if fx w 0 8 3 then some (.vunpack (fld w 23 3) (fld w 22 1) (fld w 16 6) (fld w 10 6) (fld w 8 2))
    else none
  | 30 =>
    if fx w 0 8 3 then some (.vsum (fld w 23 3) (fld w 22 1) (fld w 16 6) (fld w 10 6) (fld w 8 2))
    else none
  | 31 =>
    some (.vdot (fld w 23 3) (fld w 22 1) (fld w 16 6) (fld w 10 6) (fld w 8 2) (fld w 2 6) (fld w 0 2))
  | 32 =>
    some (.vperm (fld w 23 3) (fld w 22 1) (fld w 16 6) (fld w 10 6) (fld w 8 2) (fld w 2 6) (fld w 0 2))
  | 33 =>
    if fx w 0 10 771 then some (.vbcast (fld w 23 3) (fld w 22 1) (fld w 16 6) (fld w 10 6))
    else none
  | 34 =>
    if fx w 0 8 3 then some (.vmov (fld w 23 3) (fld w 22 1) (fld w 16 6) (fld w 10 6) (fld w 8 2))
    else none
  | 35 =>
    if fx w 0 6 0 then some (.vld (fld w 23 3) (fld w 22 1) (fld w 16 6) (fld w 11 5) (fld w 10 1) (fld w 6 4))
    else none
  | 36 =>
    if fx w 0 8 3 && fx w 16 6 0 then some (.vseedSet (fld w 23 3) (fld w 22 1) (fld w 10 6) (fld w 8 2))
    else none
  | 37 =>
    if fx w 0 16 771 then some (.vseedGet (fld w 23 3) (fld w 22 1) (fld w 16 6))
    else none
  | 38 =>
    if fx w 0 8 3 then some (.vdecay (fld w 23 3) (fld w 22 1) (fld w 16 6) (fld w 10 6) (fld w 8 2))
    else none
  | 39 =>
    some (.vfwadd (fld w 23 3) (fld w 22 1) (fld w 16 6) (fld w 10 6) (fld w 8 2) (fld w 2 6) (fld w 0 2))
  | _ => none

/-- The X slot (03 R82). The word of one of this slot's operations, before the checks of `Instr.wf`. -/
def rawX (w : BitVec 32) : Option Instr :=
  match w.toNat / 0x4000000 with
  | 0 => if w = 0#32 then some (.nop 0#4) else none
  | 1 =>
    if fx w 0 5 0 then some (.mmul (fld w 20 6) (fld w 14 6) (fld w 8 6) (fld w 5 3))
    else if fx w 0 5 1 && fx w 8 6 0 then some (.mmulWt (fld w 20 6) (fld w 14 6) (fld w 5 3))
    else none
  | 2 =>
    if fx w 0 5 0 then some (.mmula (fld w 20 6) (fld w 14 6) (fld w 8 6) (fld w 5 3))
    else if fx w 0 5 1 && fx w 8 6 0 then some (.mmulaWt (fld w 20 6) (fld w 14 6) (fld w 5 3))
    else none
  | 3 =>
    if fx w 0 5 0 then some (.mmulSp (fld w 20 6) (fld w 14 6) (fld w 8 6) (fld w 5 3))
    else if fx w 0 5 1 && fx w 8 6 0 then some (.mmulSpWt (fld w 20 6) (fld w 14 6) (fld w 5 3))
    else none
  | 4 =>
    if fx w 0 5 0 then some (.mconv (fld w 20 6) (fld w 14 6) (fld w 8 6) (fld w 5 3))
    else if fx w 0 5 1 && fx w 8 6 0 then some (.mconvWt (fld w 20 6) (fld w 14 6) (fld w 5 3))
    else none
  | 5 =>
    if fx w 0 5 0 then some (.mconva (fld w 20 6) (fld w 14 6) (fld w 8 6) (fld w 5 3))
    else if fx w 0 5 1 && fx w 8 6 0 then some (.mconvaWt (fld w 20 6) (fld w 14 6) (fld w 5 3))
    else none
  | 6 =>
    if fx w 0 5 0 && fx w 14 12 0 then some (.mwld (fld w 8 6) (fld w 5 3))
    else none
  | 7 =>
    if fx w 1 4 0 && fx w 8 6 0 then some (.mdrain (fld w 20 6) (fld w 14 6) (fld w 5 3) (fld w 0 1))
    else none
  | 8 =>
    if fx w 0 5 0 && fx w 8 12 0 then some (.mzero (fld w 20 6) (fld w 5 3))
    else none
  | 9 =>
    if fx w 0 5 0 && fx w 8 12 0 then some (.mlu (fld w 20 6) (fld w 5 3))
    else none
  | 10 =>
    if fx w 0 5 0 && fx w 8 12 0 then some (.mchol (fld w 20 6) (fld w 5 3))
    else none
  | 11 =>
    if fx w 0 5 0 && fx w 8 12 0 then some (.mtri (fld w 20 6) (fld w 5 3))
    else none
  | 12 =>
    if fx w 3 2 0 then some (.mtrs (fld w 20 6) (fld w 14 6) (fld w 8 6) (fld w 5 3) (fld w 0 3))
    else none
  | 13 =>
    if fx w 0 5 0 && fx w 14 6 0 then some (.mqr (fld w 20 6) (fld w 8 6) (fld w 5 3))
    else none
  | 14 =>
    if fx w 1 4 0 && fx w 8 6 0 then some (.mqapply (fld w 20 6) (fld w 14 6) (fld w 5 3) (fld w 0 1))
    else none
  | 15 =>
    if fx w 1 4 0 && fx w 8 12 0 then some (.mperm (fld w 20 6) (fld w 5 3) (fld w 0 1))
    else none
  | 16 =>
    if fx w 0 5 0 && fx w 8 12 0 then some (.mres (fld w 20 6) (fld w 5 3))
    else none
  | _ => none

/-- The E slot (03 R83). The word of one of this slot's operations, before the checks of `Instr.wf`. -/
def rawE (w : BitVec 32) : Option Instr :=
  match w.toNat / 0x4000000 with
  | 0 => if w = 0#32 then some (.nop 0#4) else none
  | 1 =>
    if fx w 0 1 0 then some (.cp (fld w 23 3) (fld w 17 6) (fld w 12 5) (fld w 7 5) (fld w 1 6))
    else none
  | 2 =>
    if fx w 0 1 0 then some (.cpT (fld w 23 3) (fld w 17 6) (fld w 12 5) (fld w 7 5) (fld w 1 6))
    else none
  | 3 =>
    if fx w 0 1 0 && fx w 12 5 0 then some (.cpf (fld w 23 3) (fld w 17 6) (fld w 7 5) (fld w 1 6))
    else none
  | 4 =>
    if fx w 0 17 0 && fx w 23 3 0 then some (.efrSet (fld w 17 6))
    else none
  | 5 =>
    if fx w 0 12 0 && fx w 15 2 0 && fx w 23 3 0 then some (.vdSet (fld w 17 6) (fld w 12 3))
    else none
  | 6 =>
    if fx w 15 11 0 then some (.rotSet (fld w 12 3) (fld w 6 6) (fld w 0 6))
    else none
  | 7 =>
    if fx w 0 12 0 && fx w 17 9 0 then some (.mlpSet (fld w 12 5))
    else none
  | 8 =>
    if fx w 5 7 0 then some (.swPermit (fld w 23 3) (fld w 17 6) (fld w 12 5) (fld w 0 5))
    else none
  | 9 =>
    if fx w 3 1 0 then some (.nmRadd (fld w 23 3) (fld w 17 6) (fld w 15 2) (fld w 10 5) (fld w 4 6) (fld w 1 2) (fld w 0 1))
    else none
  | 10 =>
    if fx w 1 3 0 then some (.nmFwadd (fld w 23 3) (fld w 17 6) (fld w 15 2) (fld w 10 5) (fld w 4 6) (fld w 0 1))
    else none
  | 11 =>
    if fx w 2 2 0 then some (.nmRed (fld w 23 3) (fld w 17 6) (fld w 15 2) (fld w 10 5) (fld w 4 6) (fld w 0 2))
    else none
  | 12 =>
    if fx w 0 4 0 then some (.nmOpt (fld w 23 3) (fld w 17 6) (fld w 15 2) (fld w 10 5) (fld w 4 6))
    else none
  | 13 =>
    if fx w 0 4 0 && fx w 15 8 3 then some (.nmSweepReg (fld w 23 3) (fld w 10 5) (fld w 4 6))
    else if fx w 0 4 1 && fx w 15 8 3 then some (.nmSweepUnreg (fld w 23 3) (fld w 10 5) (fld w 4 6))
    else none
  | 14 =>
    if fx w 0 12 0 then some (.tspawn (fld w 23 3) (fld w 17 6) (fld w 12 5))
    else none
  | 15 =>
    if fx w 0 12 0 && fx w 17 6 0 then some (.tjoin (fld w 23 3) (fld w 12 5))
    else none
  | 16 =>
    if fx w 12 14 0 then some (.gstepAdv (fld w 0 12))
    else none
  | _ => none

/-- The operation that slot `k` reads from its word; `none` is an illegal encoding (03 R70, R92). -/
def decodeSlot (k : Nat) (w : BitVec 32) : Option Instr :=
  (match k with
    | 0 => rawC w
    | 1 => rawS w
    | 2 => rawA w
    | 3 => rawA w
    | 4 => rawL w
    | 5 => rawV w
    | 6 => rawX w
    | 7 => rawE w
    | _ => none).filter Instr.wf

/-- A slot that holds operations of the kind; the address units share a kind, and slot 2 stands for both. -/
def SlotKind.slot : SlotKind → Nat
  | .c => 0
  | .s => 1
  | .a => 2
  | .l => 4
  | .v => 5
  | .x => 6
  | .e => 7
  | .event => 8

/-- A word alone does not name its slot (03 R68): the first slot, in the order A, X, S, E, C, L, V, whose map reads the
word as an operation other than the NOP. -/
def decodeAny (w : BitVec 32) : Option Instr :=
  if w = 0#32 then some (.nop 0#4)
  else (decodeSlot 2 w).or ((decodeSlot 6 w).or ((decodeSlot 1 w).or ((decodeSlot 7 w).or
    ((decodeSlot 0 w).or ((decodeSlot 4 w).or (decodeSlot 5 w))))))

/-- The step a table row's word is read as: rows with a word have 32 bits. -/
def decodeTableWord (nbits w : Nat) : Option Instr :=
  if nbits = 32 then decodeAny (BitVec.ofNat 32 w) else none

/-- The word of a slot operation, from the encoding tables of 03 R75-R83; an event has no word. -/
def encode : Instr → BitVec 32
  | .nop s => BitVec.ofNat 32 (0x0 + s.toNat)
  | .br k g r d s => BitVec.ofNat 32 (0x4000000 + k.toNat * 0x800000 + g.toNat * 0x400000 + r.toNat * 0x200000 + d.toNat * 0x10 + s.toNat)
  | .brA k g r d s => BitVec.ofNat 32 (0x8000000 + k.toNat * 0x800000 + g.toNat * 0x400000 + r.toNat * 0x200000 + d.toNat * 0x10 + s.toNat)
  | .brZ k g r d s => BitVec.ofNat 32 (0xc000000 + k.toNat * 0x800000 + g.toNat * 0x400000 + r.toNat * 0x200000 + d.toNat * 0x10 + s.toNat)
  | .jmp k g d s => BitVec.ofNat 32 (0x10000000 + k.toNat * 0x800000 + g.toNat * 0x400000 + d.toNat * 0x10 + s.toNat)
  | .call k g d s => BitVec.ofNat 32 (0x14000000 + k.toNat * 0x800000 + g.toNat * 0x400000 + d.toNat * 0x10 + s.toNat)
  | .ret k g s => BitVec.ofNat 32 (0x18000000 + k.toNat * 0x800000 + g.toNat * 0x400000 + s.toNat)
  | .jr k g a s => BitVec.ofNat 32 (0x1c000000 + k.toNat * 0x800000 + g.toNat * 0x400000 + a.toNat * 0x20000 + s.toNat)
  | .rot k g s => BitVec.ofNat 32 (0x20000000 + k.toNat * 0x800000 + g.toNat * 0x400000 + s.toNat)
  | .doneTask k g s => BitVec.ofNat 32 (0x24000000 + k.toNat * 0x800000 + g.toNat * 0x400000 + s.toNat)
  | .trap k g c s => BitVec.ofNat 32 (0x28000000 + k.toNat * 0x800000 + g.toNat * 0x400000 + c.toNat * 0x10 + s.toNat)
  | .sys k g v s => BitVec.ofNat 32 (0x2c000000 + k.toNat * 0x800000 + g.toNat * 0x400000 + v.toNat * 0x10 + s.toNat)
  | .rfe k g s => BitVec.ofNat 32 (0x30000000 + k.toNat * 0x800000 + g.toNat * 0x400000 + s.toNat)
  | .brk k g c s => BitVec.ofNat 32 (0x34000000 + k.toNat * 0x800000 + g.toNat * 0x400000 + c.toNat * 0x10 + s.toNat)
  | .segend k g c s => BitVec.ofNat 32 (0x38000000 + k.toNat * 0x800000 + g.toNat * 0x400000 + c.toNat * 0x10 + s.toNat)
  | .mfsr k g d r s => BitVec.ofNat 32 (0x3c000000 + k.toNat * 0x800000 + g.toNat * 0x400000 + d.toNat * 0x10000 + r.toNat * 0x100 + s.toNat)
  | .mtsr k g a r s => BitVec.ofNat 32 (0x40000000 + k.toNat * 0x800000 + g.toNat * 0x400000 + a.toNat * 0x10000 + r.toNat * 0x100 + s.toNat)
  | .isync k g s => BitVec.ofNat 32 (0x44000000 + k.toNat * 0x800000 + g.toNat * 0x400000 + s.toNat)
  | .yield k g s => BitVec.ofNat 32 (0x48000000 + k.toNat * 0x800000 + g.toNat * 0x400000 + s.toNat)
  | .fence k g o e s => BitVec.ofNat 32 (0x4c000000 + k.toNat * 0x800000 + g.toNat * 0x400000 + o.toNat * 0x100000 + e.toNat * 0x20000 + s.toNat)
  | .drain k g e s => BitVec.ofNat 32 (0x50000000 + k.toNat * 0x800000 + g.toNat * 0x400000 + e.toNat * 0x20000 + s.toNat)
  | .add k g d a b => BitVec.ofNat 32 (0x4000000 + k.toNat * 0x800000 + g.toNat * 0x400000 + d.toNat * 0x10000 + a.toNat * 0x400 + b.toNat * 0x10)
  | .sub k g d a b => BitVec.ofNat 32 (0x4000001 + k.toNat * 0x800000 + g.toNat * 0x400000 + d.toNat * 0x10000 + a.toNat * 0x400 + b.toNat * 0x10)
  | .and k g d a b => BitVec.ofNat 32 (0x4000002 + k.toNat * 0x800000 + g.toNat * 0x400000 + d.toNat * 0x10000 + a.toNat * 0x400 + b.toNat * 0x10)
  | .or k g d a b => BitVec.ofNat 32 (0x4000003 + k.toNat * 0x800000 + g.toNat * 0x400000 + d.toNat * 0x10000 + a.toNat * 0x400 + b.toNat * 0x10)
  | .xor k g d a b => BitVec.ofNat 32 (0x4000004 + k.toNat * 0x800000 + g.toNat * 0x400000 + d.toNat * 0x10000 + a.toNat * 0x400 + b.toNat * 0x10)
  | .andn k g d a b => BitVec.ofNat 32 (0x4000005 + k.toNat * 0x800000 + g.toNat * 0x400000 + d.toNat * 0x10000 + a.toNat * 0x400 + b.toNat * 0x10)
  | .shl k g d a b => BitVec.ofNat 32 (0x4000006 + k.toNat * 0x800000 + g.toNat * 0x400000 + d.toNat * 0x10000 + a.toNat * 0x400 + b.toNat * 0x10)
  | .shrS k g d a b => BitVec.ofNat 32 (0x4000007 + k.toNat * 0x800000 + g.toNat * 0x400000 + d.toNat * 0x10000 + a.toNat * 0x400 + b.toNat * 0x10)
  | .shrZ k g d a b => BitVec.ofNat 32 (0x4000008 + k.toNat * 0x800000 + g.toNat * 0x400000 + d.toNat * 0x10000 + a.toNat * 0x400 + b.toNat * 0x10)
  | .rotr k g d a b => BitVec.ofNat 32 (0x4000009 + k.toNat * 0x800000 + g.toNat * 0x400000 + d.toNat * 0x10000 + a.toNat * 0x400 + b.toNat * 0x10)
  | .minS k g d a b => BitVec.ofNat 32 (0x400000a + k.toNat * 0x800000 + g.toNat * 0x400000 + d.toNat * 0x10000 + a.toNat * 0x400 + b.toNat * 0x10)
  | .minZ k g d a b => BitVec.ofNat 32 (0x400000b + k.toNat * 0x800000 + g.toNat * 0x400000 + d.toNat * 0x10000 + a.toNat * 0x400 + b.toNat * 0x10)
  | .maxS k g d a b => BitVec.ofNat 32 (0x400000c + k.toNat * 0x800000 + g.toNat * 0x400000 + d.toNat * 0x10000 + a.toNat * 0x400 + b.toNat * 0x10)
  | .maxZ k g d a b => BitVec.ofNat 32 (0x400000d + k.toNat * 0x800000 + g.toNat * 0x400000 + d.toNat * 0x10000 + a.toNat * 0x400 + b.toNat * 0x10)
  | .mul k g d a b => BitVec.ofNat 32 (0x8000000 + k.toNat * 0x800000 + g.toNat * 0x400000 + d.toNat * 0x10000 + a.toNat * 0x400 + b.toNat * 0x10)
  | .mulhS k g d a b => BitVec.ofNat 32 (0x8000001 + k.toNat * 0x800000 + g.toNat * 0x400000 + d.toNat * 0x10000 + a.toNat * 0x400 + b.toNat * 0x10)
  | .mulhZ k g d a b => BitVec.ofNat 32 (0x8000002 + k.toNat * 0x800000 + g.toNat * 0x400000 + d.toNat * 0x10000 + a.toNat * 0x400 + b.toNat * 0x10)
  | .divS k g d a b => BitVec.ofNat 32 (0x8000003 + k.toNat * 0x800000 + g.toNat * 0x400000 + d.toNat * 0x10000 + a.toNat * 0x400 + b.toNat * 0x10)
  | .divZ k g d a b => BitVec.ofNat 32 (0x8000004 + k.toNat * 0x800000 + g.toNat * 0x400000 + d.toNat * 0x10000 + a.toNat * 0x400 + b.toNat * 0x10)
  | .remS k g d a b => BitVec.ofNat 32 (0x8000005 + k.toNat * 0x800000 + g.toNat * 0x400000 + d.toNat * 0x10000 + a.toNat * 0x400 + b.toNat * 0x10)
  | .remZ k g d a b => BitVec.ofNat 32 (0x8000006 + k.toNat * 0x800000 + g.toNat * 0x400000 + d.toNat * 0x10000 + a.toNat * 0x400 + b.toNat * 0x10)
  | .clz k g d a => BitVec.ofNat 32 (0xc000000 + k.toNat * 0x800000 + g.toNat * 0x400000 + d.toNat * 0x10000 + a.toNat * 0x400)
  | .ctz k g d a => BitVec.ofNat 32 (0xc000001 + k.toNat * 0x800000 + g.toNat * 0x400000 + d.toNat * 0x10000 + a.toNat * 0x400)
  | .popc k g d a => BitVec.ofNat 32 (0xc000002 + k.toNat * 0x800000 + g.toNat * 0x400000 + d.toNat * 0x10000 + a.toNat * 0x400)
  | .sextB k g d a => BitVec.ofNat 32 (0xc000003 + k.toNat * 0x800000 + g.toNat * 0x400000 + d.toNat * 0x10000 + a.toNat * 0x400)
  | .sextH k g d a => BitVec.ofNat 32 (0xc000004 + k.toNat * 0x800000 + g.toNat * 0x400000 + d.toNat * 0x10000 + a.toNat * 0x400)
  | .sextW k g d a => BitVec.ofNat 32 (0xc000005 + k.toNat * 0x800000 + g.toNat * 0x400000 + d.toNat * 0x10000 + a.toNat * 0x400)
  | .zextB k g d a => BitVec.ofNat 32 (0xc000006 + k.toNat * 0x800000 + g.toNat * 0x400000 + d.toNat * 0x10000 + a.toNat * 0x400)
  | .zextH k g d a => BitVec.ofNat 32 (0xc000007 + k.toNat * 0x800000 + g.toNat * 0x400000 + d.toNat * 0x10000 + a.toNat * 0x400)
  | .zextW k g d a => BitVec.ofNat 32 (0xc000008 + k.toNat * 0x800000 + g.toNat * 0x400000 + d.toNat * 0x10000 + a.toNat * 0x400)
  | .cmp k g p a b c => BitVec.ofNat 32 (0x10000000 + k.toNat * 0x800000 + g.toNat * 0x400000 + p.toNat * 0x10000 + a.toNat * 0x400 + b.toNat * 0x10 + c.toNat)
  | .cmpi k g c p a i => BitVec.ofNat 32 (0x14000000 + k.toNat * 0x800000 + g.toNat * 0x400000 + c.toNat * 0x40000 + p.toNat * 0x8000 + a.toNat * 0x200 + i.toNat)
  | .sel k g d a b c => BitVec.ofNat 32 (0x18000000 + k.toNat * 0x800000 + g.toNat * 0x400000 + d.toNat * 0x10000 + a.toNat * 0x400 + b.toNat * 0x10 + c.toNat * 0x2)
  | .pand k g d a b => BitVec.ofNat 32 (0x1c000000 + k.toNat * 0x800000 + g.toNat * 0x400000 + d.toNat * 0x10000 + a.toNat * 0x400 + b.toNat * 0x10)
  | .por k g d a b => BitVec.ofNat 32 (0x1c000001 + k.toNat * 0x800000 + g.toNat * 0x400000 + d.toNat * 0x10000 + a.toNat * 0x400 + b.toNat * 0x10)
  | .pxor k g d a b => BitVec.ofNat 32 (0x1c000002 + k.toNat * 0x800000 + g.toNat * 0x400000 + d.toNat * 0x10000 + a.toNat * 0x400 + b.toNat * 0x10)
  | .pnot k g d a => BitVec.ofNat 32 (0x1c000003 + k.toNat * 0x800000 + g.toNat * 0x400000 + d.toNat * 0x10000 + a.toNat * 0x400)
  | .pmov k g d a => BitVec.ofNat 32 (0x1c000004 + k.toNat * 0x800000 + g.toNat * 0x400000 + d.toNat * 0x10000 + a.toNat * 0x400)
  | .addi k g d a i => BitVec.ofNat 32 (0x20000000 + k.toNat * 0x800000 + g.toNat * 0x400000 + d.toNat * 0x10000 + a.toNat * 0x400 + i.toNat)
  | .andi k g d a i => BitVec.ofNat 32 (0x24000000 + k.toNat * 0x800000 + g.toNat * 0x400000 + d.toNat * 0x10000 + a.toNat * 0x400 + i.toNat)
  | .ori k g d a i => BitVec.ofNat 32 (0x28000000 + k.toNat * 0x800000 + g.toNat * 0x400000 + d.toNat * 0x10000 + a.toNat * 0x400 + i.toNat)
  | .xori k g d a i => BitVec.ofNat 32 (0x2c000000 + k.toNat * 0x800000 + g.toNat * 0x400000 + d.toNat * 0x10000 + a.toNat * 0x400 + i.toNat)
  | .andni k g d a i => BitVec.ofNat 32 (0x30000000 + k.toNat * 0x800000 + g.toNat * 0x400000 + d.toNat * 0x10000 + a.toNat * 0x400 + i.toNat)
  | .shli k g d a i => BitVec.ofNat 32 (0x34000000 + k.toNat * 0x800000 + g.toNat * 0x400000 + d.toNat * 0x10000 + a.toNat * 0x400 + i.toNat)
  | .shriS k g d a i => BitVec.ofNat 32 (0x38000000 + k.toNat * 0x800000 + g.toNat * 0x400000 + d.toNat * 0x10000 + a.toNat * 0x400 + i.toNat)
  | .shriZ k g d a i => BitVec.ofNat 32 (0x3c000000 + k.toNat * 0x800000 + g.toNat * 0x400000 + d.toNat * 0x10000 + a.toNat * 0x400 + i.toNat)
  | .lui k g d i => BitVec.ofNat 32 (0x40000000 + k.toNat * 0x800000 + g.toNat * 0x400000 + d.toNat * 0x10000 + i.toNat)
  | .fadd k g d a b => BitVec.ofNat 32 (0x44000000 + k.toNat * 0x800000 + g.toNat * 0x400000 + d.toNat * 0x10000 + a.toNat * 0x400 + b.toNat * 0x10)
  | .fsub k g d a b => BitVec.ofNat 32 (0x44000001 + k.toNat * 0x800000 + g.toNat * 0x400000 + d.toNat * 0x10000 + a.toNat * 0x400 + b.toNat * 0x10)
  | .fmul k g d a b => BitVec.ofNat 32 (0x44000002 + k.toNat * 0x800000 + g.toNat * 0x400000 + d.toNat * 0x10000 + a.toNat * 0x400 + b.toNat * 0x10)
  | .fma k g d a b => BitVec.ofNat 32 (0x44000003 + k.toNat * 0x800000 + g.toNat * 0x400000 + d.toNat * 0x10000 + a.toNat * 0x400 + b.toNat * 0x10)
  | .fcmp k g p a b c => BitVec.ofNat 32 (0x48000000 + k.toNat * 0x800000 + g.toNat * 0x400000 + p.toNat * 0x10000 + a.toNat * 0x400 + b.toNat * 0x10 + c.toNat)
  | .fcvtF2iS k g d a => BitVec.ofNat 32 (0x4c000000 + k.toNat * 0x800000 + g.toNat * 0x400000 + d.toNat * 0x10000 + a.toNat * 0x400)
  | .fcvtF2iZ k g d a => BitVec.ofNat 32 (0x4c000001 + k.toNat * 0x800000 + g.toNat * 0x400000 + d.toNat * 0x10000 + a.toNat * 0x400)
  | .fcvtI2fS k g d a => BitVec.ofNat 32 (0x4c000002 + k.toNat * 0x800000 + g.toNat * 0x400000 + d.toNat * 0x10000 + a.toNat * 0x400)
  | .fcvtI2fZ k g d a => BitVec.ofNat 32 (0x4c000003 + k.toNat * 0x800000 + g.toNat * 0x400000 + d.toNat * 0x10000 + a.toNat * 0x400)
  | .fcvtF2h k g d a => BitVec.ofNat 32 (0x4c000004 + k.toNat * 0x800000 + g.toNat * 0x400000 + d.toNat * 0x10000 + a.toNat * 0x400)
  | .fcvtH2f k g d a => BitVec.ofNat 32 (0x4c000005 + k.toNat * 0x800000 + g.toNat * 0x400000 + d.toNat * 0x10000 + a.toNat * 0x400)
  | .fcvtF2b k g d a => BitVec.ofNat 32 (0x4c000006 + k.toNat * 0x800000 + g.toNat * 0x400000 + d.toNat * 0x10000 + a.toNat * 0x400)
  | .fcvtB2f k g d a => BitVec.ofNat 32 (0x4c000007 + k.toNat * 0x800000 + g.toNat * 0x400000 + d.toNat * 0x10000 + a.toNat * 0x400)
  | .sGet k g d n b p w => BitVec.ofNat 32 (0x50000000 + k.toNat * 0x800000 + g.toNat * 0x400000 + d.toNat * 0x10000 + n.toNat * 0x400 + b.toNat * 0x10 + p.toNat * 0x4 + w.toNat)
  | .sPut k g d n b w => BitVec.ofNat 32 (0x5400000c + k.toNat * 0x800000 + g.toNat * 0x400000 + d.toNat * 0x10000 + n.toNat * 0x400 + b.toNat * 0x10 + w.toNat)
  | .amov d a => BitVec.ofNat 32 (0x4000000 + d.toNat * 0x200000 + a.toNat * 0x10000)
  | .aset d s => BitVec.ofNat 32 (0x8000000 + d.toNat * 0x200000 + s.toNat * 0x8000)
  | .aget s a => BitVec.ofNat 32 (0xc000000 + s.toNat * 0x100000 + a.toNat * 0x8000)
  | .aadd d a b => BitVec.ofNat 32 (0x10000000 + d.toNat * 0x200000 + a.toNat * 0x10000 + b.toNat * 0x800)
  | .aaddi d a i => BitVec.ofNat 32 (0x14000000 + d.toNat * 0x200000 + a.toNat * 0x10000 + i.toNat)
  | .mset m f s => BitVec.ofNat 32 (0x18000000 + m.toNat * 0x400000 + f.toNat * 0x100000 + s.toNat * 0x4000)
  | .astep d m => BitVec.ofNat 32 (0x1c000000 + d.toNat * 0x200000 + m.toNat * 0x20000)
  | .acmp c p a b => BitVec.ofNat 32 (0x20000000 + c.toNat * 0x800000 + p.toNat * 0x100000 + a.toNat * 0x8000 + b.toNat * 0x400)
  | .ldBS k g s a p m o => BitVec.ofNat 32 (0x4000000 + k.toNat * 0x800000 + g.toNat * 0x400000 + s.toNat * 0x10000 + a.toNat * 0x800 + p.toNat * 0x400 + m.toNat * 0x40 + o.toNat)
  | .ldBZ k g s a p m o => BitVec.ofNat 32 (0x8000000 + k.toNat * 0x800000 + g.toNat * 0x400000 + s.toNat * 0x10000 + a.toNat * 0x800 + p.toNat * 0x400 + m.toNat * 0x40 + o.toNat)
  | .ldHS k g s a p m o => BitVec.ofNat 32 (0xc000000 + k.toNat * 0x800000 + g.toNat * 0x400000 + s.toNat * 0x10000 + a.toNat * 0x800 + p.toNat * 0x400 + m.toNat * 0x40 + o.toNat)
  | .ldHZ k g s a p m o => BitVec.ofNat 32 (0x10000000 + k.toNat * 0x800000 + g.toNat * 0x400000 + s.toNat * 0x10000 + a.toNat * 0x800 + p.toNat * 0x400 + m.toNat * 0x40 + o.toNat)
  | .ldWS k g s a p m o => BitVec.ofNat 32 (0x14000000 + k.toNat * 0x800000 + g.toNat * 0x400000 + s.toNat * 0x10000 + a.toNat * 0x800 + p.toNat * 0x400 + m.toNat * 0x40 + o.toNat)
  | .ldWZ k g s a p m o => BitVec.ofNat 32 (0x18000000 + k.toNat * 0x800000 + g.toNat * 0x400000 + s.toNat * 0x10000 + a.toNat * 0x800 + p.toNat * 0x400 + m.toNat * 0x40 + o.toNat)
  | .ldD k g s a p m o => BitVec.ofNat 32 (0x1c000000 + k.toNat * 0x800000 + g.toNat * 0x400000 + s.toNat * 0x10000 + a.toNat * 0x800 + p.toNat * 0x400 + m.toNat * 0x40 + o.toNat)
  | .stB k g s a p m o => BitVec.ofNat 32 (0x20000000 + k.toNat * 0x800000 + g.toNat * 0x400000 + s.toNat * 0x10000 + a.toNat * 0x800 + p.toNat * 0x400 + m.toNat * 0x40 + o.toNat)
  | .stH k g s a p m o => BitVec.ofNat 32 (0x24000000 + k.toNat * 0x800000 + g.toNat * 0x400000 + s.toNat * 0x10000 + a.toNat * 0x800 + p.toNat * 0x400 + m.toNat * 0x40 + o.toNat)
  | .stW k g s a p m o => BitVec.ofNat 32 (0x28000000 + k.toNat * 0x800000 + g.toNat * 0x400000 + s.toNat * 0x10000 + a.toNat * 0x800 + p.toNat * 0x400 + m.toNat * 0x40 + o.toNat)
  | .stD k g s a p m o => BitVec.ofNat 32 (0x2c000000 + k.toNat * 0x800000 + g.toNat * 0x400000 + s.toNat * 0x10000 + a.toNat * 0x800 + p.toNat * 0x400 + m.toNat * 0x40 + o.toNat)
  | .ldV k g n a p m o => BitVec.ofNat 32 (0x30000030 + k.toNat * 0x800000 + g.toNat * 0x400000 + n.toNat * 0x10000 + a.toNat * 0x800 + p.toNat * 0x400 + m.toNat * 0x40 + o.toNat)
  | .stV k g n a p m t o => BitVec.ofNat 32 (0x34000000 + k.toNat * 0x800000 + g.toNat * 0x400000 + n.toNat * 0x10000 + a.toNat * 0x800 + p.toNat * 0x400 + m.toNat * 0x40 + t.toNat * 0x10 + o.toNat)
  | .ldBlk k g n a p m o => BitVec.ofNat 32 (0x38000030 + k.toNat * 0x800000 + g.toNat * 0x400000 + n.toNat * 0x10000 + a.toNat * 0x800 + p.toNat * 0x400 + m.toNat * 0x40 + o.toNat)
  | .stBlk k g n a p m t o => BitVec.ofNat 32 (0x3c000000 + k.toNat * 0x800000 + g.toNat * 0x400000 + n.toNat * 0x10000 + a.toNat * 0x800 + p.toNat * 0x400 + m.toNat * 0x40 + t.toNat * 0x10 + o.toNat)
  | .pf k g a p m o => BitVec.ofNat 32 (0x40000000 + k.toNat * 0x800000 + g.toNat * 0x400000 + a.toNat * 0x800 + p.toNat * 0x400 + m.toNat * 0x40 + o.toNat)
  | .atom k g d a b z o => BitVec.ofNat 32 (0x44000000 + k.toNat * 0x800000 + g.toNat * 0x400000 + d.toNat * 0x10000 + a.toNat * 0x800 + b.toNat * 0x20 + z.toNat * 0x10 + o.toNat)
  | .ldRow k g n a p m h => BitVec.ofNat 32 (0x48000030 + k.toNat * 0x800000 + g.toNat * 0x400000 + n.toNat * 0x10000 + a.toNat * 0x800 + p.toNat * 0x400 + m.toNat * 0x40 + h.toNat)
  | .ldFw k g n a p m o => BitVec.ofNat 32 (0x4c000030 + k.toNat * 0x800000 + g.toNat * 0x400000 + n.toNat * 0x10000 + a.toNat * 0x800 + p.toNat * 0x400 + m.toNat * 0x40 + o.toNat)
  | .stFw k g n a p m t o => BitVec.ofNat 32 (0x50000000 + k.toNat * 0x800000 + g.toNat * 0x400000 + n.toNat * 0x10000 + a.toNat * 0x800 + p.toNat * 0x400 + m.toNat * 0x40 + t.toNat * 0x10 + o.toNat)
  | .vaddF k g d a x b y => BitVec.ofNat 32 (0x4000000 + k.toNat * 0x800000 + g.toNat * 0x400000 + d.toNat * 0x10000 + a.toNat * 0x400 + x.toNat * 0x100 + b.toNat * 0x4 + y.toNat)
  | .vsubF k g d a x b y => BitVec.ofNat 32 (0x8000000 + k.toNat * 0x800000 + g.toNat * 0x400000 + d.toNat * 0x10000 + a.toNat * 0x400 + x.toNat * 0x100 + b.toNat * 0x4 + y.toNat)
  | .vmulF k g d a x b y => BitVec.ofNat 32 (0xc000000 + k.toNat * 0x800000 + g.toNat * 0x400000 + d.toNat * 0x10000 + a.toNat * 0x400 + x.toNat * 0x100 + b.toNat * 0x4 + y.toNat)
  | .vfmaF k g d a x b y => BitVec.ofNat 32 (0x10000000 + k.toNat * 0x800000 + g.toNat * 0x400000 + d.toNat * 0x10000 + a.toNat * 0x400 + x.toNat * 0x100 + b.toNat * 0x4 + y.toNat)
  | .vminF k g d a x b y => BitVec.ofNat 32 (0x14000000 + k.toNat * 0x800000 + g.toNat * 0x400000 + d.toNat * 0x10000 + a.toNat * 0x400 + x.toNat * 0x100 + b.toNat * 0x4 + y.toNat)
  | .vmaxF k g d a x b y => BitVec.ofNat 32 (0x18000000 + k.toNat * 0x800000 + g.toNat * 0x400000 + d.toNat * 0x10000 + a.toNat * 0x400 + x.toNat * 0x100 + b.toNat * 0x4 + y.toNat)
  | .vabsF k g d a x => BitVec.ofNat 32 (0x1c000003 + k.toNat * 0x800000 + g.toNat * 0x400000 + d.toNat * 0x10000 + a.toNat * 0x400 + x.toNat * 0x100)
  | .vnegF k g d a x => BitVec.ofNat 32 (0x20000003 + k.toNat * 0x800000 + g.toNat * 0x400000 + d.toNat * 0x10000 + a.toNat * 0x400 + x.toNat * 0x100)
  | .vrcp k g d a x => BitVec.ofNat 32 (0x24000003 + k.toNat * 0x800000 + g.toNat * 0x400000 + d.toNat * 0x10000 + a.toNat * 0x400 + x.toNat * 0x100)
  | .vrsq k g d a x => BitVec.ofNat 32 (0x28000003 + k.toNat * 0x800000 + g.toNat * 0x400000 + d.toNat * 0x10000 + a.toNat * 0x400 + x.toNat * 0x100)
  | .vexp2 k g d a x => BitVec.ofNat 32 (0x2c000003 + k.toNat * 0x800000 + g.toNat * 0x400000 + d.toNat * 0x10000 + a.toNat * 0x400 + x.toNat * 0x100)
  | .vlog2 k g d a x => BitVec.ofNat 32 (0x30000003 + k.toNat * 0x800000 + g.toNat * 0x400000 + d.toNat * 0x10000 + a.toNat * 0x400 + x.toNat * 0x100)
  | .vaddI k g d a x b y => BitVec.ofNat 32 (0x34000000 + k.toNat * 0x800000 + g.toNat * 0x400000 + d.toNat * 0x10000 + a.toNat * 0x400 + x.toNat * 0x100 + b.toNat * 0x4 + y.toNat)
  | .vsubI k g d a x b y => BitVec.ofNat 32 (0x38000000 + k.toNat * 0x800000 + g.toNat * 0x400000 + d.toNat * 0x10000 + a.toNat * 0x400 + x.toNat * 0x100 + b.toNat * 0x4 + y.toNat)
  | .vmulI k g d a x b y => BitVec.ofNat 32 (0x3c000000 + k.toNat * 0x800000 + g.toNat * 0x400000 + d.toNat * 0x10000 + a.toNat * 0x400 + x.toNat * 0x100 + b.toNat * 0x4 + y.toNat)
  | .vminI k g d a x b y => BitVec.ofNat 32 (0x40000000 + k.toNat * 0x800000 + g.toNat * 0x400000 + d.toNat * 0x10000 + a.toNat * 0x400 + x.toNat * 0x100 + b.toNat * 0x4 + y.toNat)
  | .vmaxI k g d a x b y => BitVec.ofNat 32 (0x44000000 + k.toNat * 0x800000 + g.toNat * 0x400000 + d.toNat * 0x10000 + a.toNat * 0x400 + x.toNat * 0x100 + b.toNat * 0x4 + y.toNat)
  | .vand k g d a x b y => BitVec.ofNat 32 (0x48000000 + k.toNat * 0x800000 + g.toNat * 0x400000 + d.toNat * 0x10000 + a.toNat * 0x400 + x.toNat * 0x100 + b.toNat * 0x4 + y.toNat)
  | .vor k g d a x b y => BitVec.ofNat 32 (0x4c000000 + k.toNat * 0x800000 + g.toNat * 0x400000 + d.toNat * 0x10000 + a.toNat * 0x400 + x.toNat * 0x100 + b.toNat * 0x4 + y.toNat)
  | .vxor k g d a x b y => BitVec.ofNat 32 (0x50000000 + k.toNat * 0x800000 + g.toNat * 0x400000 + d.toNat * 0x10000 + a.toNat * 0x400 + x.toNat * 0x100 + b.toNat * 0x4 + y.toNat)
  | .vshl k g d a x b y => BitVec.ofNat 32 (0x54000000 + k.toNat * 0x800000 + g.toNat * 0x400000 + d.toNat * 0x10000 + a.toNat * 0x400 + x.toNat * 0x100 + b.toNat * 0x4 + y.toNat)
  | .vshrS k g d a x b y => BitVec.ofNat 32 (0x58000000 + k.toNat * 0x800000 + g.toNat * 0x400000 + d.toNat * 0x10000 + a.toNat * 0x400 + x.toNat * 0x100 + b.toNat * 0x4 + y.toNat)
  | .vshrZ k g d a x b y => BitVec.ofNat 32 (0x5c000000 + k.toNat * 0x800000 + g.toNat * 0x400000 + d.toNat * 0x10000 + a.toNat * 0x400 + x.toNat * 0x100 + b.toNat * 0x4 + y.toNat)
  | .vcmpF k g c q a x b y => BitVec.ofNat 32 (0x60000000 + k.toNat * 0x800000 + g.toNat * 0x400000 + c.toNat * 0x80000 + q.toNat * 0x10000 + a.toNat * 0x400 + x.toNat * 0x100 + b.toNat * 0x4 + y.toNat)
  | .vcmpI k g c q a x b y => BitVec.ofNat 32 (0x64000000 + k.toNat * 0x800000 + g.toNat * 0x400000 + c.toNat * 0x80000 + q.toNat * 0x10000 + a.toNat * 0x400 + x.toNat * 0x100 + b.toNat * 0x4 + y.toNat)
  | .vsel k g d a x b y => BitVec.ofNat 32 (0x68000000 + k.toNat * 0x800000 + g.toNat * 0x400000 + d.toNat * 0x10000 + a.toNat * 0x400 + x.toNat * 0x100 + b.toNat * 0x4 + y.toNat)
  | .vcvt k g d a x => BitVec.ofNat 32 (0x6c000003 + k.toNat * 0x800000 + g.toNat * 0x400000 + d.toNat * 0x10000 + a.toNat * 0x400 + x.toNat * 0x100)
  | .vpack k g d a x => BitVec.ofNat 32 (0x70000003 + k.toNat * 0x800000 + g.toNat * 0x400000 + d.toNat * 0x10000 + a.toNat * 0x400 + x.toNat * 0x100)
  | .vunpack k g d a x => BitVec.ofNat 32 (0x74000003 + k.toNat * 0x800000 + g.toNat * 0x400000 + d.toNat * 0x10000 + a.toNat * 0x400 + x.toNat * 0x100)
  | .vsum k g d a x => BitVec.ofNat 32 (0x78000003 + k.toNat * 0x800000 + g.toNat * 0x400000 + d.toNat * 0x10000 + a.toNat * 0x400 + x.toNat * 0x100)
  | .vdot k g d a x b y => BitVec.ofNat 32 (0x7c000000 + k.toNat * 0x800000 + g.toNat * 0x400000 + d.toNat * 0x10000 + a.toNat * 0x400 + x.toNat * 0x100 + b.toNat * 0x4 + y.toNat)
  | .vperm k g d a x b y => BitVec.ofNat 32 (0x80000000 + k.toNat * 0x800000 + g.toNat * 0x400000 + d.toNat * 0x10000 + a.toNat * 0x400 + x.toNat * 0x100 + b.toNat * 0x4 + y.toNat)
  | .vbcast k g d s => BitVec.ofNat 32 (0x84000303 + k.toNat * 0x800000 + g.toNat * 0x400000 + d.toNat * 0x10000 + s.toNat * 0x400)
  | .vmov k g d a x => BitVec.ofNat 32 (0x88000003 + k.toNat * 0x800000 + g.toNat * 0x400000 + d.toNat * 0x10000 + a.toNat * 0x400 + x.toNat * 0x100)
  | .vld k g d a p m => BitVec.ofNat 32 (0x8c000000 + k.toNat * 0x800000 + g.toNat * 0x400000 + d.toNat * 0x10000 + a.toNat * 0x800 + p.toNat * 0x400 + m.toNat * 0x40)
  | .vseedSet k g a x => BitVec.ofNat 32 (0x90000003 + k.toNat * 0x800000 + g.toNat * 0x400000 + a.toNat * 0x400 + x.toNat * 0x100)
  | .vseedGet k g d => BitVec.ofNat 32 (0x94000303 + k.toNat * 0x800000 + g.toNat * 0x400000 + d.toNat * 0x10000)
  | .vdecay k g d a x => BitVec.ofNat 32 (0x98000003 + k.toNat * 0x800000 + g.toNat * 0x400000 + d.toNat * 0x10000 + a.toNat * 0x400 + x.toNat * 0x100)
  | .vfwadd k g d a x b y => BitVec.ofNat 32 (0x9c000000 + k.toNat * 0x800000 + g.toNat * 0x400000 + d.toNat * 0x10000 + a.toNat * 0x400 + x.toNat * 0x100 + b.toNat * 0x4 + y.toNat)
  | .mmul d a b l => BitVec.ofNat 32 (0x4000000 + d.toNat * 0x100000 + a.toNat * 0x4000 + b.toNat * 0x100 + l.toNat * 0x20)
  | .mmulWt d a l => BitVec.ofNat 32 (0x4000001 + d.toNat * 0x100000 + a.toNat * 0x4000 + l.toNat * 0x20)
  | .mmula d a b l => BitVec.ofNat 32 (0x8000000 + d.toNat * 0x100000 + a.toNat * 0x4000 + b.toNat * 0x100 + l.toNat * 0x20)
  | .mmulaWt d a l => BitVec.ofNat 32 (0x8000001 + d.toNat * 0x100000 + a.toNat * 0x4000 + l.toNat * 0x20)
  | .mmulSp d a b l => BitVec.ofNat 32 (0xc000000 + d.toNat * 0x100000 + a.toNat * 0x4000 + b.toNat * 0x100 + l.toNat * 0x20)
  | .mmulSpWt d a l => BitVec.ofNat 32 (0xc000001 + d.toNat * 0x100000 + a.toNat * 0x4000 + l.toNat * 0x20)
  | .mconv d a b l => BitVec.ofNat 32 (0x10000000 + d.toNat * 0x100000 + a.toNat * 0x4000 + b.toNat * 0x100 + l.toNat * 0x20)
  | .mconvWt d a l => BitVec.ofNat 32 (0x10000001 + d.toNat * 0x100000 + a.toNat * 0x4000 + l.toNat * 0x20)
  | .mconva d a b l => BitVec.ofNat 32 (0x14000000 + d.toNat * 0x100000 + a.toNat * 0x4000 + b.toNat * 0x100 + l.toNat * 0x20)
  | .mconvaWt d a l => BitVec.ofNat 32 (0x14000001 + d.toNat * 0x100000 + a.toNat * 0x4000 + l.toNat * 0x20)
  | .mwld b l => BitVec.ofNat 32 (0x18000000 + b.toNat * 0x100 + l.toNat * 0x20)
  | .mdrain d a l z => BitVec.ofNat 32 (0x1c000000 + d.toNat * 0x100000 + a.toNat * 0x4000 + l.toNat * 0x20 + z.toNat)
  | .mzero d l => BitVec.ofNat 32 (0x20000000 + d.toNat * 0x100000 + l.toNat * 0x20)
  | .mlu d l => BitVec.ofNat 32 (0x24000000 + d.toNat * 0x100000 + l.toNat * 0x20)
  | .mchol d l => BitVec.ofNat 32 (0x28000000 + d.toNat * 0x100000 + l.toNat * 0x20)
  | .mtri d l => BitVec.ofNat 32 (0x2c000000 + d.toNat * 0x100000 + l.toNat * 0x20)
  | .mtrs d a b l f => BitVec.ofNat 32 (0x30000000 + d.toNat * 0x100000 + a.toNat * 0x4000 + b.toNat * 0x100 + l.toNat * 0x20 + f.toNat)
  | .mqr d b l => BitVec.ofNat 32 (0x34000000 + d.toNat * 0x100000 + b.toNat * 0x100 + l.toNat * 0x20)
  | .mqapply d a l t => BitVec.ofNat 32 (0x38000000 + d.toNat * 0x100000 + a.toNat * 0x4000 + l.toNat * 0x20 + t.toNat)
  | .mperm d l i => BitVec.ofNat 32 (0x3c000000 + d.toNat * 0x100000 + l.toNat * 0x20 + i.toNat)
  | .mres d l => BitVec.ofNat 32 (0x40000000 + d.toNat * 0x100000 + l.toNat * 0x20)
  | .cp l t d s n => BitVec.ofNat 32 (0x4000000 + l.toNat * 0x800000 + t.toNat * 0x20000 + d.toNat * 0x1000 + s.toNat * 0x80 + n.toNat * 0x2)
  | .cpT l t d s n => BitVec.ofNat 32 (0x8000000 + l.toNat * 0x800000 + t.toNat * 0x20000 + d.toNat * 0x1000 + s.toNat * 0x80 + n.toNat * 0x2)
  | .cpf l t s n => BitVec.ofNat 32 (0xc000000 + l.toNat * 0x800000 + t.toNat * 0x20000 + s.toNat * 0x80 + n.toNat * 0x2)
  | .efrSet s => BitVec.ofNat 32 (0x10000000 + s.toNat * 0x20000)
  | .vdSet s k => BitVec.ofNat 32 (0x14000000 + s.toNat * 0x20000 + k.toNat * 0x1000)
  | .rotSet k l r => BitVec.ofNat 32 (0x18000000 + k.toNat * 0x1000 + l.toNat * 0x40 + r.toNat)
  | .mlpSet a => BitVec.ofNat 32 (0x1c000000 + a.toNat * 0x1000)
  | .swPermit l t a p => BitVec.ofNat 32 (0x20000000 + l.toNat * 0x800000 + t.toNat * 0x20000 + a.toNat * 0x1000 + p.toNat)
  | .nmRadd l n p a t o f => BitVec.ofNat 32 (0x24000000 + l.toNat * 0x800000 + n.toNat * 0x20000 + p.toNat * 0x8000 + a.toNat * 0x400 + t.toNat * 0x10 + o.toNat * 0x2 + f.toNat)
  | .nmFwadd l n p a t f => BitVec.ofNat 32 (0x28000000 + l.toNat * 0x800000 + n.toNat * 0x20000 + p.toNat * 0x8000 + a.toNat * 0x400 + t.toNat * 0x10 + f.toNat)
  | .nmRed l n p a t o => BitVec.ofNat 32 (0x2c000000 + l.toNat * 0x800000 + n.toNat * 0x20000 + p.toNat * 0x8000 + a.toNat * 0x400 + t.toNat * 0x10 + o.toNat)
  | .nmOpt l n p a t => BitVec.ofNat 32 (0x30000000 + l.toNat * 0x800000 + n.toNat * 0x20000 + p.toNat * 0x8000 + a.toNat * 0x400 + t.toNat * 0x10)
  | .nmSweepReg l a t => BitVec.ofNat 32 (0x34018000 + l.toNat * 0x800000 + a.toNat * 0x400 + t.toNat * 0x10)
  | .nmSweepUnreg l a t => BitVec.ofNat 32 (0x34018001 + l.toNat * 0x800000 + a.toNat * 0x400 + t.toNat * 0x10)
  | .tspawn l t a => BitVec.ofNat 32 (0x38000000 + l.toNat * 0x800000 + t.toNat * 0x20000 + a.toNat * 0x1000)
  | .tjoin l a => BitVec.ofNat 32 (0x3c000000 + l.toNat * 0x800000 + a.toNat * 0x1000)
  | .gstepAdv i => BitVec.ofNat 32 (0x40000000 + i.toNat)
  | .annulledBundle _ => 0#32
  | .stallCountExpiry _ => 0#32
  | .bundleComplete _ => 0#32
  | .landing _ => 0#32
  | .engineLaunch _ => 0#32
  | .loadDataArrival _ _ => 0#32
  | .vldDataArrival _ _ => 0#32
  | .atomicReturn _ _ => 0#32
  | .positionHoldEnd _ => 0#32
  | .blockClear _ => 0#32
  | .strandSwitch _ => 0#32
  | .taskAbort _ => 0#32
  | .copyStart _ => 0#32
  | .copyCompletion _ _ => 0#32
  | .matrixCommandStart _ => 0#32
  | .matrixResultProduced _ => 0#32
  | .familyCommandDone _ => 0#32
  | .factorisationBreakdown _ => 0#32
  | .taskRegistration _ => 0#32
  | .dependenceEntryGrant _ => 0#32
  | .dispatch _ => 0#32
  | .startOfTaskActions _ => 0#32
  | .endOfTaskActions _ => 0#32
  | .permitStart _ _ => 0#32
  | .permitCompletion _ _ => 0#32
  | .nmCommandExecute _ _ => 0#32
  | .nmCommandCompletion _ _ => 0#32
  | .streamNop _ _ => 0#32
  | .launch _ _ _ => 0#32
  | .launchn _ _ _ _ _ => 0#32
  | .streamLoop _ _ _ _ _ => 0#32
  | .streamSkip _ _ _ _ _ _ => 0#32
  | .waitv _ _ _ _ _ => 0#32
  | .waitvSatisfied _ _ => 0#32
  | .waitg _ _ _ => 0#32
  | .waitgDone _ _ => 0#32
  | .streamWrite _ _ _ _ => 0#32
  | .streamJoin _ _ _ => 0#32
  | .disposeTakedown _ _ _ => 0#32
  | .disposeRelease _ _ _ => 0#32
  | .cswrDoorbell _ _ _ => 0#32
  | .dbell _ => 0#32
  | .csstHaltClear _ _ => 0#32
  | .faultRecordAppend _ => 0#32
  | .msixUnmask _ => 0#32
  | .tictlGo _ => 0#32
  | .translationInvalidationDone => 0#32
  | .layoutBind _ _ => 0#32
  | .layoutUnbind _ _ => 0#32
  | .fabricHandleBind _ _ => 0#32
  | .fabricHandleUnbind _ _ => 0#32
  | .gstepWrite _ => 0#32
  | .pctlWrite _ _ => 0#32
  | .ppreStop _ => 0#32
  | .ppreResume _ => 0#32
  | .rowChange _ => 0#32
  | .cadenceSwitch _ => 0#32
  | .priorityPreemption _ _ => 0#32
  | .stopSequence _ => 0#32
  | .partitionSwap _ => 0#32
  | .debugFreeze => 0#32
  | .freezeComplete => 0#32
  | .debugResume => 0#32
  | .debugStep => 0#32
  | .daReadState => 0#32
  | .daWriteState => 0#32
  | .daReadUrs => 0#32
  | .daWriteUrs => 0#32
  | .daReadMemory => 0#32
  | .daWriteMemory => 0#32
  | .trctlWrite _ _ => 0#32
  | .traceSample _ => 0#32
  | .replayArm _ _ _ => 0#32
  | .replayPassEnd _ => 0#32
  | .coldReset => 0#32
  | .rstctlWarm _ => 0#32
  | .hbmRetrainDone _ => 0#32
  | .thermalTrip => 0#32
  | .pwrcapWrite _ => 0#32
  | .pkgidWrite _ => 0#32
  | .dmaWindowWrite _ _ _ => 0#32
  | .vlPortStateChange _ _ _ => 0#32
  | .flitReceive _ _ => 0#32
  | .pathLost _ => 0#32
  | .jobCardRegister _ _ _ => 0#32
  | .stagingFetch _ _ => 0#32
  | .pciePowerState _ => 0#32
  | .registerWrite _ _ _ => 0#32
  | .illegalEncoding _ _ => 0#32
  | .bundleFetchFault _ => 0#32
  | .governorThrottle _ => 0#32
  | .uliquinWarmReset => 0#32
  | .translationCacheDrop _ _ => 0#32
  | .storageError _ _ _ _ => 0#32


end Sys2Proof
end

