-- ==== Sys2Proof/Machine/Control.lean ====
section
/-! DEFINITION. The C slot (05 R116-R132, 08 R189-R195): branches, jumps, the end of a task, traps and their return,
segment ends, system-register moves, instruction synchronisation, fences and drains. The slot's outcome is kept until
CompleteBundle. -/

namespace Sys2Proof.Machine

/-- The outcome of the C slot changed. -/
def setCout (f : COut → COut) (s : State) : State :=
  s.modMe (fun t => { t with ctx := { t.ctx with cout := f t.ctx.cout } })

/-- The stall count of the bundle, which holds whatever the guard (03 R73). -/
def withSc (sc : BitVec 4) (c : COut) : COut := { c with sc := sc.toNat }

/-- A C operation with an outcome when its guard is true; its stall count holds in either case. -/
def cSem (t : Strand) (k : BitVec 3) (g : BitVec 1) (sc : BitVec 4) (f : COut → COut) : SlotSem :=
  { guard := t.guard k g, guarded := isGuarded k g,
    post := setCout (fun c => withSc sc (f c)), missed := setCout (withSc sc) }

/-- `nop` (03 R69). -/
def semNop (sc : BitVec 4) (_s : State) : SlotSem := { post := setCout (withSc sc) }

/-- Target of a branch: a signed count of bundles from the bundle's own address (05 R121, R122). -/
def target (pc w disp : Nat) : Nat := (((pc : Int) + 32 * sInt w disp) % 2 ^ 57).toNat

/-- A conditional branch (05 R121): `az` annuls when taken, `an` when not taken. -/
def semBranch (an az : Bool) (k : BitVec 3) (g r : BitVec 1) (d : BitVec 16) (sc : BitVec 4) (s : State) : SlotSem :=
  let t := s.me
  { guard := t.guard k g, guarded := isGuarded k g,
    lands := if r = 1#1 then [(1, .rotate)] else [],
    post := fun s => (setCout (fun c => { withSc sc c with
      redirect := some (target t.ctx.pc 16 d.toNat, r == 1#1), annul := az }) s).event s.cur.g 0x04 1,
    missed := setCout (fun c => { withSc sc c with annul := an }) }

/-- `br` (05 R121). -/
def semBr (k : BitVec 3) (g r : BitVec 1) (d : BitVec 16) (s : BitVec 4) (st : State) : SlotSem :=
  semBranch false false k g r d s st
/-- `br.a` (05 R121): its delay bundles are annulled when it is not taken. -/
def semBrA (k : BitVec 3) (g r : BitVec 1) (d : BitVec 16) (s : BitVec 4) (st : State) : SlotSem :=
  semBranch true false k g r d s st
/-- `br.z` (05 R121): its delay bundles are annulled when it is taken. -/
def semBrZ (k : BitVec 3) (g r : BitVec 1) (d : BitVec 16) (s : BitVec 4) (st : State) : SlotSem :=
  semBranch false true k g r d s st

/-- A jump to an address (05 R122). -/
def cJump (t : Strand) (k : BitVec 3) (g : BitVec 1) (sc : BitVec 4) (a : Nat) : SlotSem :=
  { guard := t.guard k g, guarded := isGuarded k g,
    post := fun s => (setCout (fun c => { withSc sc c with redirect := some (a, false) }) s).event s.cur.g 0x04 1,
    missed := setCout (withSc sc) }

/-- `jmp` (05 R122). -/
def semJmp (k : BitVec 3) (g : BitVec 1) (d : BitVec 18) (s : BitVec 4) (st : State) : SlotSem :=
  cJump st.me k g s (target st.me.ctx.pc 18 d.toNat)

/-- `call` (05 R122): the link is the bundle after the two delay bundles. -/
def semCall (k : BitVec 3) (g : BitVec 1) (d : BitVec 18) (s : BitVec 4) (st : State) : SlotSem :=
  { cJump st.me k g s (target st.me.ctx.pc 18 d.toNat) with
    dsts := [.a 31], lands := [(1, .areg 31 (BitVec.ofNat 64 (st.me.ctx.pc + 96)))] }

/-- A jump to an address register (05 R122): the value is a bundle address or the operation faults. -/
def semJumpReg (a : Nat) (k : BitVec 3) (g : BitVec 1) (s : BitVec 4) (st : State) : SlotSem :=
  let t := st.me
  let v := (t.ra a).toNat
  { cJump t k g s v with
    srcs := [.a a], fault := if v % 32 ≠ 0 ∨ 2 ^ 57 ≤ v then some t.illegal else none }

/-- `ret` (05 R122). -/
def semRet (k : BitVec 3) (g : BitVec 1) (s : BitVec 4) (st : State) : SlotSem := semJumpReg 31 k g s st
/-- `jr` (05 R122). -/
def semJr (k : BitVec 3) (g : BitVec 1) (a : BitVec 5) (s : BitVec 4) (st : State) : SlotSem :=
  semJumpReg a.toNat k g s st

/-- `rot` (05 R123). -/
def semRot (k : BitVec 3) (g : BitVec 1) (s : BitVec 4) (st : State) : SlotSem :=
  { cSem st.me k g s id with lands := [(1, .rotate)] }

/-- `done` (05 R124): the strand waits for its commands and the task ends. -/
def semDoneTask (k : BitVec 3) (g : BitVec 1) (s : BitVec 4) (st : State) : SlotSem :=
  cSem st.me k g s (fun c => { c with after := .done })

/-- `trap` (05 R125). -/
def semTrap (k : BitVec 3) (g : BitVec 1) (c : BitVec 8) (s : BitVec 4) (st : State) : SlotSem :=
  cSem st.me k g s (fun o => { o with after := .trap 0x08 c.toNat })

/-- `sys` (05 R125). -/
def semSys (k : BitVec 3) (g : BitVec 1) (v : BitVec 16) (s : BitVec 4) (st : State) : SlotSem :=
  cSem st.me k g s (fun o => { o with after := .trap 0x09 v.toNat })

/-- `brk` (05 R125, R126): a trap, or a freeze after slot 0 when breakpoint-instruction stops are armed. -/
def semBrk (k : BitVec 3) (g : BitVec 1) (c : BitVec 8) (s : BitVec 4) (st : State) : SlotSem :=
  if bit (st.reg 0 0x60000) 8 then
    { cSem st.me k g s id with post := fun st => (setCout (withSc s) st).debugStop st.cur.g 1 3 0 }
  else cSem st.me k g s (fun o => { o with after := .trap 0x0A c.toNat })

/-- `rfe` (05 R127): illegal outside a handler. -/
def semRfe (k : BitVec 3) (g : BitVec 1) (s : BitVec 4) (st : State) : SlotSem :=
  { cSem st.me k g s (fun c => { c with after := .rfe }) with
    fault := if st.me.hmode then none else some st.me.illegal }

/-- `segend` (05 R128, 18 R371). -/
def semSegend (k : BitVec 3) (g : BitVec 1) (c : BitVec 18) (s : BitVec 4) (st : State) : SlotSem :=
  cSem st.me k g s (fun o => { o with after := .segend c.toNat })

/-- A factor register: FSR, GFR, PVR0–PVR7 (05 R130). -/
def isFactorSr (r : Nat) : Bool := decide (6 ≤ r) && decide (r ≤ 15)

/-- A matrix command of the strand is in the array or its queue (12 R260). -/
def State.inArray (s : State) (g : Nat) : Bool := (s.core (coreOf g)).mq.any (fun x => x.strand == g)

/-- A matrix result of the running context waits to land (11 R238, 12 R260). One in the landing queue that a trap has frozen is
not waited for: its count stands until the return (DESIGN CHOICE, log 74). -/
def Strand.resultDue (t : Strand) : Bool := t.ctx.lq.any (fun e => match e.what with | .result _ _ => true | _ => false)

/-- The two phases of 12 R260: blocked while a command of the strand is in the array, then a hold until every result
has landed. -/
def factorBar (s : State) : Option Bar :=
  if s.inArray s.cur.g then some (.block .factor) else if s.me.resultDue then some .hold else none

/-- `mfsr` (05 R129, R130). -/
def semMfsr (k : BitVec 3) (g : BitVec 1) (d : BitVec 6) (r : BitVec 8) (s : BitVec 4) (st : State) : SlotSem :=
  let t := st.me
  { cSem t k g s (fun c => { c with seen := c.seen ||| (if r.toNat = 0x10 then 1 else if r.toNat = 0x11 then 2 else 0) }) with
    wait := if isFactorSr r.toNat then factorBar st else none
    srcs := [.sr r.toNat]
    dsts := [.s d.toNat]
    lands := [(1, .sreg d.toNat (readSr (st.fxd (coreOf st.cur.g)) t r.toNat))] }

/-- `mtsr` (05 R129, R130, 01 R32): a reserved RM faults, and EFR changes three bundles later. -/
def semMtsr (k : BitVec 3) (g : BitVec 1) (a : BitVec 6) (r : BitVec 8) (s : BitVec 4) (st : State) : SlotSem :=
  let t := st.me
  let v := t.rs a.toNat
  { cSem t k g s id with
    wait := if isFactorSr r.toNat then factorBar st else none
    srcs := [.s a.toNat]
    fault := if r.toNat = 1 ∧ 5 ≤ v.toNat % 8 then some t.illegal else none
    dsts := if r.toNat = 1 then [.efr] else [.sr r.toNat]
    lands := if r.toNat = 1 then [(1, .efr v)] else [(1, .sys r.toNat v)] }

/-- A command waiting in the landing queue for its start delay. -/
def Strand.waiting (t : Strand) (p : Cmd → Bool) : Bool :=
  t.ctx.lq.any (fun e => match e.what with | .launch c => p c | _ => false)

/-- The command is a copy. -/
def Cmd.isCopy : Cmd → Bool
  | .copy _ => true
  | _ => false

/-- A line of a strand's partition: those of a swapped-out partition its fences and drains leave as they are (14 R309). -/
def DLine.isOf (l : DLine) (t : Strand) : Bool := l.part == t.part

/-- The strand has written bytes of a line of its partition since it was last clean. -/
def DLine.wroteBy (l : DLine) (t : Strand) (g : Nat) : Bool := l.isOf t && l.wrote.testBit (g % 4)

/-- `isync` (05 R131): the strand's stores and copies performed, then everything fetched ahead is discarded. In a handler it does
not wait for copies whose start delay stands in the frozen landing queue, which counts only after the return: DESIGN CHOICE,
log 74. -/
def semIsync (k : BitVec 3) (g : BitVec 1) (s : BitVec 4) (st : State) : SlotSem :=
  let t := st.me
  let c := st.core (coreOf st.cur.g)
  { cSem t k g s id with
    wait := if t.outs.isEmpty && !c.copies.any (fun x => x.strand == st.cur.g) && !t.waiting Cmd.isCopy then none
      else some .hold
    post := fun st => ((setCout (withSc s) st).wbLines (coreOf st.cur.g) (fun l => l.wroteBy t st.cur.g) false).modMe
      (fun t => { t with ahead := [] }) }

/-- `yield` (05 R132). -/
def semYield (k : BitVec 3) (g : BitVec 1) (s : BitVec 4) (st : State) : SlotSem :=
  cSem st.me k g s (fun c => { c with after := .yield })

/-- A near-memory command that is a whole-row operation: `nm.radd`, `nm.fwadd`, `nm.opt` (17 R363). -/
def nmRow (n : NmCmd) : Bool := n.op == 0 || n.op == 1 || n.op == 3

/-- A whole-row operation of the strand is not yet performed at its row (08 R195, 17 R364). -/
def State.rowBusy (s : State) (g : Nat) : Bool :=
  (s.core (coreOf g)).nmq.any (fun n => n.strand == g && nmRow n && decide (n.phase < 2)) ||
  (s.strand g).waiting (fun c => match c with | .nm n => nmRow n | _ => false)

/-- GSTEP.STEP (17 R343). -/
def State.gstep (s : State) : Nat := s.reg 0 0x36000 % 65536

/-- The step view refreshed (17 R344). -/
def refresh (s : State) : State := s.modMe (fun t => { t with svr := BitVec.ofNat 64 s.gstep })

/-- An order that acquires, and one that releases (08 R189). -/
def ordAcq (o : BitVec 2) : Bool := o != 1#2
def ordRel (o : BitVec 2) : Bool := o != 0#2

/-- The cache actions of a fence (08 R193). -/
def fenceCache (o : BitVec 2) (e : BitVec 3) (s : State) : State :=
  let c := coreOf s.cur.g
  if e.toNat = 6 then s
  else if 2 ≤ e.toNat then s.wbLines c (fun l => l.isOf s.me) (ordAcq o)
  else if ordRel o then
    if e.toNat = 1 then s.wbLines c (fun l => l.isOf s.me) false else s.wbLines c (fun l => l.wroteBy s.me s.cur.g) false
  else s

/-- A load that reads a whole row (17 R363). -/
def PendKind.isRow : PendKind → Bool
  | .fw _ _ row _ _ _ _ => row
  | _ => false

/-- The strand's `ld.row` reads are performed now (08 R195, 17 R364). -/
def fixRows (s : State) : State := (s.me.pends.filter (fun p => p.kind.isRow)).foldl (fun s p => s.fixPend s.cur.g p) s

/-- A fence or drain of a scope concerns a store or an atomic to these pieces (08 R192, R195): memory behind windows, of the host or
of a peer, is ordered at `.sys` alone (21 R415). -/
def scopeHas (e : Nat) (pcs : List Piece) : Bool := e == 5 || pcs.all Piece.near

/-- An outstanding store or atomic is not performed for the observers of a scope; a store through a window is, for the strands
of its core (08 R188). -/
def Out.openAt (o : Out) (e : Nat) : Bool := scopeHas e o.op.pcs && (decide (2 ≤ e) || !o.isWindow)

/-- The loads before a fence have their values fixed for its observers (08 R189, R192): at cluster scope and wider now; at `.strand`
and `.core` what other observers store may still be seen, so the loads are only marked. Below `.sys` what a load reads behind windows
stays open (21 R415). -/
def fixScope (e : Nat) (s : State) : State :=
  if 2 ≤ e then s.me.pends.foldl (fun s p => if e = 5 then s.fixPend s.cur.g p else s.fixNear s.cur.g p) s
  else s.modMe (fun t => { t with pends := t.pends.map (fun p => { p with fence := max p.fence (e + 1) }) })

/-- What a fence does when its conditions are met (08 R189, R193, 17 R344, R364): every order fixes earlier loads, which a
release performs before later stores and an acquire before every later access; at row scope only reads of whole rows. -/
def fenceDo (o : BitVec 2) (e : BitVec 3) (s : State) : State :=
  let s1 := if e.toNat = 6 then fixRows s else fixScope e.toNat s
  let s2 := fenceCache o e s1
  if ordAcq o && decide (4 ≤ e.toNat) then refresh s2 else s2

/-- What a fence waits for (08 R189, R191, 17 R364): a release for outstanding stores and atomics of the strand, and for stores
that its core's other strands have made through windows, which it may have observed; an acquire for atomics, posted ones included;
at system scope either for the requests of loads to be sent (21 R418); at row scope, a release for whole-row operations. -/
def fenceBar (o : BitVec 2) (e : BitVec 3) (s : State) : Bool :=
  if e.toNat = 6 then ordRel o && s.rowBusy s.cur.g
  else (s.seenOuts s.cur.g).any (fun x => x.openAt e.toNat && (ordRel o || x.op.atom.isSome)) ||
    (e.toNat == 5 && s.me.pends.any (fun p => p.err.isNone && !p.pcs.isEmpty && !s.ready p.id))

/-- `fence` (08 R189-R193). -/
def semFence (k : BitVec 3) (g : BitVec 1) (o : BitVec 2) (e : BitVec 3) (s : BitVec 4) (st : State) : SlotSem :=
  { cSem st.me k g s id with
    wait := if fenceBar o e st then some .hold else none
    post := fun st => fenceDo o e (setCout (withSc s) st) }

/-- `drain` (08 R195). -/
def semDrain (k : BitVec 3) (g : BitVec 1) (e : BitVec 3) (s : BitVec 4) (st : State) : SlotSem :=
  let t := st.me
  let busy := if e.toNat = 6 then st.rowBusy st.cur.g
    else decide (2 ≤ e.toNat) && st.me.outs.any (fun x => x.openAt e.toNat)
  { cSem t k g s id with
    wait := if busy then some .hold else none
    post := fun st =>
      let s1 := setCout (withSc s) (if e.toNat = 6 then fixRows st else st)
      if 2 ≤ e.toNat ∧ e.toNat ≠ 6 then s1.wbLines (coreOf st.cur.g) (fun l => l.wroteBy t st.cur.g) false else s1 }

/-- NOP in slot 0 (R69). -/
def execNop (s : BitVec 4) (st : State) : Host.Outcome State Fault Refusal :=
  .next (runSlot 0 (semNop s st) st)

/-- BR in slot 0 (R121). -/
def execBr (k : BitVec 3) (g : BitVec 1) (r : BitVec 1) (d : BitVec 16) (s : BitVec 4) (st : State) : Host.Outcome State Fault Refusal :=
  .next (runSlot 0 (semBr k g r d s st) st)

/-- BR_A in slot 0 (R121). -/
def execBrA (k : BitVec 3) (g : BitVec 1) (r : BitVec 1) (d : BitVec 16) (s : BitVec 4) (st : State) : Host.Outcome State Fault Refusal :=
  .next (runSlot 0 (semBrA k g r d s st) st)

/-- BR_Z in slot 0 (R121). -/
def execBrZ (k : BitVec 3) (g : BitVec 1) (r : BitVec 1) (d : BitVec 16) (s : BitVec 4) (st : State) : Host.Outcome State Fault Refusal :=
  .next (runSlot 0 (semBrZ k g r d s st) st)

/-- JMP in slot 0 (R122). -/
def execJmp (k : BitVec 3) (g : BitVec 1) (d : BitVec 18) (s : BitVec 4) (st : State) : Host.Outcome State Fault Refusal :=
  .next (runSlot 0 (semJmp k g d s st) st)

/-- CALL in slot 0 (R122). -/
def execCall (k : BitVec 3) (g : BitVec 1) (d : BitVec 18) (s : BitVec 4) (st : State) : Host.Outcome State Fault Refusal :=
  .next (runSlot 0 (semCall k g d s st) st)

/-- RET in slot 0 (R122). -/
def execRet (k : BitVec 3) (g : BitVec 1) (s : BitVec 4) (st : State) : Host.Outcome State Fault Refusal :=
  .next (runSlot 0 (semRet k g s st) st)

/-- JR in slot 0 (R122). -/
def execJr (k : BitVec 3) (g : BitVec 1) (a : BitVec 5) (s : BitVec 4) (st : State) : Host.Outcome State Fault Refusal :=
  .next (runSlot 0 (semJr k g a s st) st)

/-- ROT in slot 0 (R123). -/
def execRot (k : BitVec 3) (g : BitVec 1) (s : BitVec 4) (st : State) : Host.Outcome State Fault Refusal :=
  .next (runSlot 0 (semRot k g s st) st)

/-- DONE in slot 0 (R124). -/
def execDoneTask (k : BitVec 3) (g : BitVec 1) (s : BitVec 4) (st : State) : Host.Outcome State Fault Refusal :=
  .next (runSlot 0 (semDoneTask k g s st) st)

/-- TRAP in slot 0 (R125). -/
def execTrap (k : BitVec 3) (g : BitVec 1) (c : BitVec 8) (s : BitVec 4) (st : State) : Host.Outcome State Fault Refusal :=
  .next (runSlot 0 (semTrap k g c s st) st)

/-- SYS in slot 0 (R125). -/
def execSys (k : BitVec 3) (g : BitVec 1) (v : BitVec 16) (s : BitVec 4) (st : State) : Host.Outcome State Fault Refusal :=
  .next (runSlot 0 (semSys k g v s st) st)

/-- RFE in slot 0 (R127). -/
def execRfe (k : BitVec 3) (g : BitVec 1) (s : BitVec 4) (st : State) : Host.Outcome State Fault Refusal :=
  .next (runSlot 0 (semRfe k g s st) st)

/-- BRK in slot 0 (R126). -/
def execBrk (k : BitVec 3) (g : BitVec 1) (c : BitVec 8) (s : BitVec 4) (st : State) : Host.Outcome State Fault Refusal :=
  .next (runSlot 0 (semBrk k g c s st) st)

/-- SEGEND in slot 0 (R128). -/
def execSegend (k : BitVec 3) (g : BitVec 1) (c : BitVec 18) (s : BitVec 4) (st : State) : Host.Outcome State Fault Refusal :=
  .next (runSlot 0 (semSegend k g c s st) st)

/-- MFSR in slot 0 (R129). -/
def execMfsr (k : BitVec 3) (g : BitVec 1) (d : BitVec 6) (r : BitVec 8) (s : BitVec 4) (st : State) : Host.Outcome State Fault Refusal :=
  .next (runSlot 0 (semMfsr k g d r s st) st)

/-- MTSR in slot 0 (R129). -/
def execMtsr (k : BitVec 3) (g : BitVec 1) (a : BitVec 6) (r : BitVec 8) (s : BitVec 4) (st : State) : Host.Outcome State Fault Refusal :=
  .next (runSlot 0 (semMtsr k g a r s st) st)

/-- ISYNC in slot 0 (R131). -/
def execIsync (k : BitVec 3) (g : BitVec 1) (s : BitVec 4) (st : State) : Host.Outcome State Fault Refusal :=
  .next (runSlot 0 (semIsync k g s st) st)

/-- YIELD in slot 0 (R132). -/
def execYield (k : BitVec 3) (g : BitVec 1) (s : BitVec 4) (st : State) : Host.Outcome State Fault Refusal :=
  .next (runSlot 0 (semYield k g s st) st)

/-- FENCE in slot 0 (R189). -/
def execFence (k : BitVec 3) (g : BitVec 1) (o : BitVec 2) (e : BitVec 3) (s : BitVec 4) (st : State) : Host.Outcome State Fault Refusal :=
  .next (runSlot 0 (semFence k g o e s st) st)

/-- DRAIN in slot 0 (R195). -/
def execDrain (k : BitVec 3) (g : BitVec 1) (e : BitVec 3) (s : BitVec 4) (st : State) : Host.Outcome State Fault Refusal :=
  .next (runSlot 0 (semDrain k g e s st) st)

end Sys2Proof.Machine
end

