-- ==== Sys2Proof/Machine/Vector.lean ====
section
/-! DEFINITION. The V slot (07): 256 lanes over 1 KiB operands of the URS; conversion, packing, reductions, lane moves,
the loads from the vault, the lane seeds, and the freewheel images of 17 R358-R360. -/

namespace Sys2Proof.Machine

-- Blocks (02 R48-R53).

/-- The floating format of a plain or stamped element type (02 R47). -/
def typeFmt : Nat → Option Fmt
  | 0 => some .fp32 | 1 => some .bf16 | 2 => some .fp16 | 3 => some .e4m3 | 4 => some .e5m2
  | 10 => some .fp32 | 11 => some .bf16 | 12 => some .fp16 | _ => none

/-- A narrow integer as read under EFR (02 R45): `w` 8 or 4. -/
def narrowInt (efr w c : Nat) : Int :=
  let sg := if w = 8 then bit efr 3 else bit efr 4
  if sg then
    if c = 2 ^ (w - 1) then sInt w (bits efr 15 8 % 2 ^ w) else sInt w c
  else c

/-- The value of a dense element of a type 0x0–0x6 (02 R40, R45). -/
def denseVal (efr ty c : Nat) : Num :=
  match typeFmt ty with
  | some f => f.decode c
  | none => Num.ofInt (narrowInt efr (if ty = 5 then 8 else 4) c)

/-- Element `k` of width `w` of a little-endian string (02 R46, R48). -/
def elemAt (v w k : Nat) : Nat := v / 2 ^ (w * k) % 2 ^ w

/-- A block is malformed in a container of `p` elements per block (02 R50). -/
def malformed (p : Nat) (blk : List Byte) : Bool :=
  let fc := leNat (blk.take 1)
  let ea := leNat ((blk.drop 1).take 1)
  let aux := leNat ((blk.drop 2).take 2)
  !fcBlock fc || fcPer fc != p || ea == 255 || (fcStamped fc && ea != 127) ||
  ((fcType fc == 7 || fcType fc == 8) &&
    (aux / 256 != 0 || decide (ea < fcParam fc) || aux % 256 != ea - fcParam fc))

/-- The value of element `k` of a well-formed block (02 R51, R52). -/
def blockElem (efr : Nat) (blk : List Byte) (k : Nat) : Num :=
  let fc := leNat (blk.take 1)
  let ea := leNat ((blk.drop 1).take 1)
  let eb := leNat ((blk.drop 2).take 1)
  let c := elemAt (leNat (blk.drop 4)) (fcWidth fc) k
  match fcType fc with
  | 7 => .fin (c.testBit 6) (c % 64) ((if c.testBit 7 then eb else ea : Int) - 127 - 5)
  | 8 => .fin (c.testBit 13) (c % 8192) ((if c.testBit 14 then eb else ea : Int) - 127 - 12)
  | ty => (denseVal efr ty c).scale ((ea : Int) - 127)

/-- EncodeDX (02 R53): `fb` 12 or 5. -/
def encodeDx (x : Num) (ea eb fb : Nat) (rm : Rm) (rb kb : Nat) : Nat :=
  match x with
  | .nan => 0
  | .inf s => (if s then 2 ^ (fb + 1) else 0) + (2 ^ (fb + 1) - 1)
  | .fin s m e =>
    let mag (ex : Nat) : Nat :=
      if m = 0 then 0
      else if (m.log2 : Int) + e + 127 + fb - ex > fb + 2 then 2 ^ (fb + 2)
      else roundMag rm s rb kb m (e + 127 + fb - ex)
    let sb := if s then 2 ^ (fb + 1) else 0
    if mag eb ≤ 2 ^ (fb + 1) - 1 then 2 ^ (fb + 2) + sb + mag eb
    else if mag ea ≤ 2 ^ (fb + 1) - 1 then sb + mag ea
    else sb + (2 ^ (fb + 1) - 1)

-- Lanes.

/-- Act (07 R149): the lanes that the mask of a guard selects. -/
def actMask (t : Strand) (k : BitVec 3) : Mask := t.rq k.toNat

/-- The bytes of 32-bit lanes as a URS effect: inactive lanes are not written (07 R149). -/
def laneBytes (act : Mask) : Nat → List Nat → List (Option (Byte × Byte))
  | _, [] => []
  | i, v :: l =>
    let m : Byte := if act.getLsbD i then 0xFF#8 else 0#8
    (leBytes 4 v).map (fun b => some (m, b)) ++ laneBytes act (i + 1) l

/-- The lanes that hold a rounding, for the reservation of LFSR states. -/
def activeLanes (act : Mask) (n : Nat) : List (Nat × Nat) :=
  (List.range n).filterMap (fun i => if act.getLsbD i then some (i, 1) else none)

/-- One RSTO rounding in each of the listed lanes (02 R61). -/
def vStep (l : List (Nat × Nat)) (s : State) : State :=
  if s.me.rmode = .rsto then s.modMe (fun t => t.reserve l) else s

/-- The LFSR bits of a lane for a rounding. -/
def laneBits (t : Strand) (i kb : Nat) : Nat := if t.rmode = .rsto then (t.seed i).toNat / 2 ^ (32 - kb) else 0

/-- A mask register is read when a guard names it (07 R149). -/
def maskSrc (k : BitVec 3) : List Dst := [.q k.toNat]

/-- The frame of a V operation. -/
def vSem (t : Strand) (k : BitVec 3) (g : BitVec 1) : SlotSem :=
  { guard := t.guard k g, guarded := isGuarded k g, srcs := maskSrc k }

/-- A range of the URS as a source or destination. -/
def ursR (r : Res) (n : Nat) : Dst := .urs r.addr n

/-- One source, lane by lane (07 R149, R153). -/
def semV1 (f : Strand → Nat → Nat → Nat) (l : Nat) (rounds : Bool) (k : BitVec 3) (g : BitVec 1) (d a : BitVec 6)
    (s : State) : SlotSem :=
  let t := s.me
  let m := vSem t k g
  match vecOperand t d.toNat, vecOperand t a.toNat with
  | .ok rd, .ok ra =>
    let act := actMask t k
    let va := t.lanesAt ra.addr
    { m with
      srcs := m.srcs ++ [ursR ra 1024]
      dsts := [ursR rd 1024]
      lands := if m.guard then
        [(l, .urs rd.addr (laneBytes act 0 ((List.range 256).zipWith (fun i x => if act.getLsbD i then f t i x else 0) va)))]
        else []
      post := if rounds then vStep (activeLanes act 256) else id }
  | x, y => { m with fault := byCode [fltOf x, fltOf y], dsts := okDst x 1024 }

/-- Two sources, lane by lane. -/
def semV2 (f : Strand → Nat → Nat → Nat → Nat) (l : Nat) (rounds : Bool) (k : BitVec 3) (g : BitVec 1)
    (d a b : BitVec 6) (s : State) : SlotSem :=
  let t := s.me
  let m := vSem t k g
  match vecOperand t d.toNat, vecOperand t a.toNat, vecOperand t b.toNat with
  | .ok rd, .ok ra, .ok rb =>
    let act := actMask t k
    let vab := (t.lanesAt ra.addr).zip (t.lanesAt rb.addr)
    { m with
      srcs := m.srcs ++ [ursR ra 1024, ursR rb 1024]
      dsts := [ursR rd 1024]
      lands := if m.guard then
        [(l, .urs rd.addr (laneBytes act 0 ((List.range 256).zipWith
          (fun i x => if act.getLsbD i then f t i x.1 x.2 else 0) vab)))] else []
      post := if rounds then vStep (activeLanes act 256) else id }
  | x, y, z => { m with fault := byCode [fltOf x, fltOf y, fltOf z], dsts := okDst x 1024 }

/-- Two sources and the destination read through the third port (03 R85). -/
def semV3 (f : Strand → Nat → Nat → Nat → Nat → Nat) (l : Nat) (k : BitVec 3) (g : BitVec 1)
    (d a b : BitVec 6) (s : State) : SlotSem :=
  let t := s.me
  let m := vSem t k g
  match vecOperand t d.toNat, vecOperand t a.toNat, vecOperand t b.toNat with
  | .ok rd, .ok ra, .ok rb =>
    let act := actMask t k
    let vabd := ((t.lanesAt ra.addr).zip (t.lanesAt rb.addr)).zip (t.lanesAt rd.addr)
    { m with
      srcs := m.srcs ++ [ursR ra 1024, ursR rb 1024, ursR rd 1024]
      dsts := [ursR rd 1024]
      lands := if m.guard then
        [(l, .urs rd.addr (laneBytes act 0 ((List.range 256).zipWith
          (fun i x => if act.getLsbD i then f t i x.1.1 x.1.2 x.2 else 0) vabd)))] else []
      post := vStep (activeLanes act 256) }
  | x, y, z => { m with fault := byCode [fltOf x, fltOf y, fltOf z], dsts := okDst x 1024 }

/-- A lane's FP32 value. -/
def f32 (x : Nat) : Num := Fmt.fp32.decode x

/-- A lane rounded to FP32 under the mode in force. -/
def vRound (t : Strand) (i : Nat) (x : Num) : Nat := roundFloat .fp32 t.rmode t.e4s (laneBits t i 16) x

/-- Sign of an exact zero sum under the mode in force (02 R42). -/
def vRdn (t : Strand) : Bool := t.rmode == .rdn

/-- The smaller value, −0 below +0, a NaN canonical (07 R153). -/
def vmin32 (x y : Nat) : Nat :=
  if (f32 x).isNan || (f32 y).isNan then Fmt.fp32.canonNan
  else if (f32 x).lt (f32 y) then x
  else if (f32 y).lt (f32 x) then y
  else if (f32 x).sign then x else y

/-- The larger value, +0 above −0, a NaN canonical (07 R153). -/
def vmax32 (x y : Nat) : Nat :=
  if (f32 x).isNan || (f32 y).isNan then Fmt.fp32.canonNan
  else if (f32 x).lt (f32 y) then y
  else if (f32 y).lt (f32 x) then x
  else if (f32 x).sign then y else x

/-- 1 / a (07 R155). -/
def rcpVal (x : Num) : Num := Num.div (.fin false 1 0) x

/-- 1 / √a (07 R155). -/
def rsqVal : Num → Num
  | .nan => .nan
  | .inf s => if s then .nan else .fin false 0 0
  | .fin s m e => if m = 0 then .inf s else if s then .nan else rsqrtMag m e

/-- 2^a (07 R155). -/
def exp2Val : Num → Num
  | .nan => .nan
  | .inf s => if s then .fin false 0 0 else .inf false
  | .fin s m e => exp2Fin s m e

/-- log₂ a (07 R155). -/
def log2Val : Num → Num
  | .nan => .nan
  | .inf s => if s then .nan else .inf false
  | .fin s m e => if m = 0 then .inf true else if s then .nan else log2Fin m e

/-- A lane as a 32-bit vector. -/
def w32 (x : Nat) : W32 := BitVec.ofNat 32 x

/-- `vadd.f` (07 R153). -/
def semVaddF (k : BitVec 3) (g : BitVec 1) (d a : BitVec 6) (_x : BitVec 2) (b : BitVec 6) (_y : BitVec 2) (s : State) : SlotSem :=
  semV2 (fun t i x y => vRound t i (Num.add (vRdn t) (f32 x) (f32 y))) 3 true k g d a b s

/-- `vsub.f` (07 R153). -/
def semVsubF (k : BitVec 3) (g : BitVec 1) (d a : BitVec 6) (_x : BitVec 2) (b : BitVec 6) (_y : BitVec 2) (s : State) : SlotSem :=
  semV2 (fun t i x y => vRound t i (Num.sub (vRdn t) (f32 x) (f32 y))) 3 true k g d a b s

/-- `vmul.f` (07 R153). -/
def semVmulF (k : BitVec 3) (g : BitVec 1) (d a : BitVec 6) (_x : BitVec 2) (b : BitVec 6) (_y : BitVec 2) (s : State) : SlotSem :=
  semV2 (fun t i x y => vRound t i (Num.mul (f32 x) (f32 y))) 5 true k g d a b s

/-- `vfma.f` (07 R154): one rounding. -/
def semVfmaF (k : BitVec 3) (g : BitVec 1) (d a : BitVec 6) (_x : BitVec 2) (b : BitVec 6) (_y : BitVec 2) (s : State) : SlotSem :=
  semV3 (fun t i x y z => vRound t i (Num.add (vRdn t) (Num.mul (f32 x) (f32 y)) (f32 z))) 5 k g d a b s

/-- `vmin.f` (07 R153). -/
def semVminF (k : BitVec 3) (g : BitVec 1) (d a : BitVec 6) (_x : BitVec 2) (b : BitVec 6) (_y : BitVec 2) (s : State) : SlotSem :=
  semV2 (fun _ _ x y => vmin32 x y) 3 false k g d a b s

/-- `vmax.f` (07 R153). -/
def semVmaxF (k : BitVec 3) (g : BitVec 1) (d a : BitVec 6) (_x : BitVec 2) (b : BitVec 6) (_y : BitVec 2) (s : State) : SlotSem :=
  semV2 (fun _ _ x y => vmax32 x y) 3 false k g d a b s

/-- `vabs.f` (07 R153). -/
def semVabsF (k : BitVec 3) (g : BitVec 1) (d a : BitVec 6) (_x : BitVec 2) (s : State) : SlotSem :=
  semV1 (fun _ _ x => if (f32 x).isNan then Fmt.fp32.canonNan else x % 2 ^ 31) 3 false k g d a s

/-- `vneg.f` (07 R153). -/
def semVnegF (k : BitVec 3) (g : BitVec 1) (d a : BitVec 6) (_x : BitVec 2) (s : State) : SlotSem :=
  semV1 (fun _ _ x => if (f32 x).isNan then Fmt.fp32.canonNan else (x + 2 ^ 31) % 2 ^ 32) 3 false k g d a s

/-- `vrcp` (07 R155). -/
def semVrcp (k : BitVec 3) (g : BitVec 1) (d a : BitVec 6) (_x : BitVec 2) (s : State) : SlotSem :=
  semV1 (fun t i x => vRound t i (rcpVal (f32 x))) 12 true k g d a s

/-- `vrsq` (07 R155). -/
def semVrsq (k : BitVec 3) (g : BitVec 1) (d a : BitVec 6) (_x : BitVec 2) (s : State) : SlotSem :=
  semV1 (fun t i x => vRound t i (rsqVal (f32 x))) 12 true k g d a s

/-- `vexp2` (07 R155). -/
def semVexp2 (k : BitVec 3) (g : BitVec 1) (d a : BitVec 6) (_x : BitVec 2) (s : State) : SlotSem :=
  semV1 (fun t i x => vRound t i (exp2Val (f32 x))) 12 true k g d a s

/-- `vlog2` (07 R155). -/
def semVlog2 (k : BitVec 3) (g : BitVec 1) (d a : BitVec 6) (_x : BitVec 2) (s : State) : SlotSem :=
  semV1 (fun t i x => vRound t i (log2Val (f32 x))) 12 true k g d a s

/-- `vadd.i` (07 R156). -/
def semVaddI (k : BitVec 3) (g : BitVec 1) (d a : BitVec 6) (_x : BitVec 2) (b : BitVec 6) (_y : BitVec 2) (s : State) : SlotSem :=
  semV2 (fun _ _ x y => (w32 x + w32 y).toNat) 3 false k g d a b s

/-- `vsub.i` (07 R156). -/
def semVsubI (k : BitVec 3) (g : BitVec 1) (d a : BitVec 6) (_x : BitVec 2) (b : BitVec 6) (_y : BitVec 2) (s : State) : SlotSem :=
  semV2 (fun _ _ x y => (w32 x - w32 y).toNat) 3 false k g d a b s

/-- `vmul.i` (07 R156). -/
def semVmulI (k : BitVec 3) (g : BitVec 1) (d a : BitVec 6) (_x : BitVec 2) (b : BitVec 6) (_y : BitVec 2) (s : State) : SlotSem :=
  semV2 (fun _ _ x y => (w32 x * w32 y).toNat) 5 false k g d a b s

/-- `vmin.i` (07 R156). -/
def semVminI (k : BitVec 3) (g : BitVec 1) (d a : BitVec 6) (_x : BitVec 2) (b : BitVec 6) (_y : BitVec 2) (s : State) : SlotSem :=
  semV2 (fun _ _ x y => (if (w32 y).slt (w32 x) then w32 y else w32 x).toNat) 3 false k g d a b s

/-- `vmax.i` (07 R156). -/
def semVmaxI (k : BitVec 3) (g : BitVec 1) (d a : BitVec 6) (_x : BitVec 2) (b : BitVec 6) (_y : BitVec 2) (s : State) : SlotSem :=
  semV2 (fun _ _ x y => (if (w32 x).slt (w32 y) then w32 y else w32 x).toNat) 3 false k g d a b s

/-- `vand` (07 R156). -/
def semVand (k : BitVec 3) (g : BitVec 1) (d a : BitVec 6) (_x : BitVec 2) (b : BitVec 6) (_y : BitVec 2) (s : State) : SlotSem :=
  semV2 (fun _ _ x y => (w32 x &&& w32 y).toNat) 3 false k g d a b s

/-- `vor` (07 R156). -/
def semVor (k : BitVec 3) (g : BitVec 1) (d a : BitVec 6) (_x : BitVec 2) (b : BitVec 6) (_y : BitVec 2) (s : State) : SlotSem :=
  semV2 (fun _ _ x y => (w32 x ||| w32 y).toNat) 3 false k g d a b s

/-- `vxor` (07 R156). -/
def semVxor (k : BitVec 3) (g : BitVec 1) (d a : BitVec 6) (_x : BitVec 2) (b : BitVec 6) (_y : BitVec 2) (s : State) : SlotSem :=
  semV2 (fun _ _ x y => (w32 x ^^^ w32 y).toNat) 3 false k g d a b s

/-- `vshl` (07 R156). -/
def semVshl (k : BitVec 3) (g : BitVec 1) (d a : BitVec 6) (_x : BitVec 2) (b : BitVec 6) (_y : BitVec 2) (s : State) : SlotSem :=
  semV2 (fun _ _ x y => (w32 x <<< (y % 32)).toNat) 3 false k g d a b s

/-- `vshr.s` (07 R156). -/
def semVshrS (k : BitVec 3) (g : BitVec 1) (d a : BitVec 6) (_x : BitVec 2) (b : BitVec 6) (_y : BitVec 2) (s : State) : SlotSem :=
  semV2 (fun _ _ x y => ((w32 x).sshiftRight (y % 32)).toNat) 3 false k g d a b s

/-- `vshr.z` (07 R156). -/
def semVshrZ (k : BitVec 3) (g : BitVec 1) (d a : BitVec 6) (_x : BitVec 2) (b : BitVec 6) (_y : BitVec 2) (s : State) : SlotSem :=
  semV2 (fun _ _ x y => (w32 x >>> (y % 32)).toNat) 3 false k g d a b s

/-- A mask from its bits, bit 0 first. -/
def maskOf : List Bool → Nat
  | [] => 0
  | b :: l => (if b then 1 else 0) + 2 * maskOf l

/-- A compare of lanes into a mask (07 R157): bits of inactive lanes keep their values. -/
def semVcmp (f : Nat → Nat → Bool) (k : BitVec 3) (g : BitVec 1) (q : BitVec 3) (a b : BitVec 6) (s : State) : SlotSem :=
  let t := s.me
  let m := vSem t k g
  match vecOperand t a.toNat, vecOperand t b.toNat with
  | .ok ra, .ok rb =>
    { m with
      srcs := m.srcs ++ [ursR ra 1024, ursR rb 1024]
      dsts := [.q q.toNat]
      lands := [(3, .qreg q.toNat (actMask t k)
        (BitVec.ofNat 256 (maskOf ((t.lanesAt ra.addr).zipWith f (t.lanesAt rb.addr)))))] }
  | x, y => { m with fault := byCode [fltOf x, fltOf y], dsts := [.q q.toNat] }

/-- `vcmp.f` (07 R157). -/
def semVcmpF (k : BitVec 3) (g : BitVec 1) (c q : BitVec 3) (a : BitVec 6) (_x : BitVec 2) (b : BitVec 6) (_y : BitVec 2)
    (s : State) : SlotSem :=
  semVcmp (fun x y => condF (relF c.toNat) (f32 x) (f32 y)) k g q a b s

/-- `vcmp.i` (07 R157): signed. -/
def semVcmpI (k : BitVec 3) (g : BitVec 1) (c q : BitVec 3) (a : BitVec 6) (_x : BitVec 2) (b : BitVec 6) (_y : BitVec 2)
    (s : State) : SlotSem :=
  semVcmp (fun x y => cond (relI c.toNat) (w32 x) (w32 y)) k g q a b s

/-- `vsel` (07 R158): the mask selects the value, and every lane is written. -/
def semVsel (k : BitVec 3) (g : BitVec 1) (d a : BitVec 6) (_x : BitVec 2) (b : BitVec 6) (_y : BitVec 2) (s : State) :
    SlotSem :=
  let t := s.me
  let m := vSem t k g
  match vecOperand t d.toNat, vecOperand t a.toNat, vecOperand t b.toNat with
  | .ok rd, .ok ra, .ok rb =>
    let act := actMask t k
    { m with
      srcs := m.srcs ++ [ursR ra 1024, ursR rb 1024]
      dsts := [ursR rd 1024]
      lands := [(3, .urs rd.addr (laneBytes (BitVec.allOnes 256) 0
        ((List.range 256).zipWith (fun i x => if act.getLsbD i then x.1 else x.2)
          ((t.lanesAt ra.addr).zip (t.lanesAt rb.addr)))))] }
  | x, y, z => { m with fault := byCode [fltOf x, fltOf y, fltOf z], dsts := okDst x 1024 }

/-- The bytes of elements of `w` bits as a URS effect, with the bits of inactive elements not written (07 R159): INT4
elements pair into bytes. -/
def elemBytes (act : Mask) (w : Nat) (els : List Nat) : List (Option (Byte × Byte)) :=
  let n := els.length * w / 8
  let put (f : Nat → Nat) : Nat :=
    ((List.range els.length).zipWith (fun i e => f e * (if act.getLsbD i then 1 else 0) * 2 ^ (w * i)) els).foldl (· + ·) 0
  ((leBytes n (put (fun _ => 2 ^ w - 1))).zip (leBytes n (put id))).map some

/-- The code of a value in a dense target format, one rounding (07 R159). -/
def denseCode (t : Strand) (ty i : Nat) (x : Num) : Nat :=
  match typeFmt ty with
  | some f => roundFloat f t.rmode t.e4s (laneBits t i f.kbits) x
  | none =>
    let w := if ty = 5 then 8 else 4
    intCode w (roundInt w (if ty = 5 then t.s8 else t.s4) t.rmode (laneBits t i 8) x)

/-- `vcvt` (07 R159). -/
def semVcvt (k : BitVec 3) (g : BitVec 1) (d a : BitVec 6) (_x : BitVec 2) (s : State) : SlotSem :=
  let t := s.me
  let m := vSem t k g
  match vecOperand t d.toNat, vecOperand t a.toNat with
  | .ok rd, .ok ra =>
    let fs := vdFmt ra.d
    let fd := vdFmt rd.d
    if !fcDense fs || !fcDense fd then
      { m with fault := some t.illegal, dsts := if fcDense fd then [ursR rd (32 * fcWidth fd)] else [] }
    else
      let act := actMask t k
      let ws := fcWidth fs
      let wd := fcWidth fd
      let src := leNat (t.ursRead ra.addr (32 * ws))
      let els := (List.range 256).map (fun i =>
        if act.getLsbD i then denseCode t (fcType fd) i (denseVal t.efr.toNat (fcType fs) (elemAt src ws i)) else 0)
      { m with
        srcs := m.srcs ++ [ursR ra (32 * ws)]
        dsts := [ursR rd (32 * wd)]
        lands := if m.guard then [(5, .urs rd.addr (elemBytes act wd els))] else []
        post := vStep (activeLanes act 256) }
  | x, y =>
    { m with
      fault := byCode [fltOf x, fltOf y]
      dsts := match x with
        | .ok rd => if fcDense (vdFmt rd.d) then [ursR rd (32 * fcWidth (vdFmt rd.d))] else []
        | .error _ => [] }

/-- Blocks of a run of 256 elements (07 R160). -/
def runBlocks (p : Nat) : Nat := min (ceilDiv 256 p) 16

/-- m × 2^k is at most `top`, for a finite magnitude and an integer or scaled top m' × 2^e'. -/
def fitsTop (m : Num) (k : Int) (top : Num) : Bool := !(top.lt (m.scale k))

/-- The smallest of the scales `lo`, `lo + 1`, … for which a magnitude fits, 254 if none does. -/
def findScale (fits : Nat → Bool) : Nat → Nat → Nat
  | 0, _ => 254
  | f + 1, ea => if fits ea then ea else findScale fits f (ea + 1)

/-- ChooseScale (07 R161) for a block code and the largest finite magnitude of the block. -/
def chooseScale (t : Strand) (fc : Nat) (m : Num) : Nat :=
  let ty := fcType fc
  if ty = 0 ∨ ty = 1 ∨ m.isZero then 127
  else if ty = 7 ∨ ty = 8 then
    let fb : Nat := if ty = 8 then 12 else 5
    findScale (fun ea => fitsTop m (127 + fb - (ea : Int)) (Num.fin false (2 ^ (fb + 1) - 1) 0)) (255 - fcParam fc) (fcParam fc)
  else
    let top : Num := match typeFmt ty with
      | some f => f.decode f.maxCode
      | none => Num.ofInt (intRange (if ty = 5 then 8 else 4) (if ty = 5 then t.s8 else t.s4)).2
    findScale (fun ea => fitsTop m (127 - (ea : Int)) top) 255 0

/-- Enc (07 R161). -/
def encElem (t : Strand) (fc ea i : Nat) (x : Num) : Nat :=
  let ty := fcType fc
  if ty = 7 ∨ ty = 8 then
    let fb : Nat := if ty = 8 then 12 else 5
    let kb := if ty = 8 then 16 else 8
    encodeDx x ea (ea - fcParam fc) fb t.rmode (laneBits t i kb) kb
  else denseCode t ty i (if ty = 0 ∨ ty = 1 then x else x.scale (127 - (ea : Int)))

/-- The larger magnitude of two, finite values only. -/
def maxFin (m x : Num) : Num := if x.isFin && m.lt x.abs then x.abs else m

/-- Elements packed from bit 0 of a payload. -/
def packElems (w : Nat) : List Nat → Nat
  | [] => 0
  | e :: l => e + 2 ^ w * packElems w l

/-- One block of `vpack` from its lanes: pairs of lane number and value, with the mask (07 R160). -/
def packBlock (t : Strand) (act : Mask) (fc : Nat) (l : List (Nat × Num)) : List Byte :=
  let xs := l.map (fun e => (e.1, if act.getLsbD e.1 then e.2 else Num.fin false 0 0))
  let ea := chooseScale t fc (xs.foldl (fun m e => maxFin m e.2) (.fin false 0 0))
  let els := xs.map (fun e => if act.getLsbD e.1 then encElem t fc ea e.1 e.2 else 0)
  let aux := if fcType fc = 7 ∨ fcType fc = 8 then ea - fcParam fc else 0
  leBytes 1 fc ++ leBytes 1 ea ++ leBytes 2 aux ++ leBytes 60 (packElems (fcWidth fc) els)

/-- `vpack` (07 R160, R161): only the lanes that fill whole blocks are read. -/
def semVpack (k : BitVec 3) (g : BitVec 1) (d a : BitVec 6) (_x : BitVec 2) (s : State) : SlotSem :=
  let t := s.me
  let m := vSem t k g
  match vecOperand t d.toNat, vecOperand t a.toNat with
  | .ok rd, .ok ra =>
    let fd := vdFmt rd.d
    if !fcBlock fd || fcStamped fd then { m with fault := some t.illegal }
    else
      let act := actMask t k
      let p := fcPer fd
      let nb := runBlocks p
      let ls := ((List.range 256).zip ((t.lanesAt ra.addr).map f32)).take (min (nb * p) 256)
      let bytes := (List.range nb).flatMap (fun b => packBlock t act fd ((ls.drop (b * p)).take p))
      { m with
        srcs := m.srcs ++ [ursR ra (4 * min (nb * p) 256)]
        dsts := [ursR rd (64 * nb)]
        lands := if m.guard then [(12, .urs rd.addr (wholeBytes bytes))] else []
        post := vStep (activeLanes act (min (nb * p) 256)) }
  | x, y =>
    { m with
      fault := byCode [fltOf x, fltOf y]
      dsts := match x with
        | .ok rd => if fcBlock (vdFmt rd.d) then [ursR rd (64 * runBlocks (fcPer (vdFmt rd.d)))] else []
        | .error _ => [] }

/-- `vunpack` (07 R162): malformed blocks give +0 and count one event for each lane decoded from them. -/
def semVunpack (k : BitVec 3) (g : BitVec 1) (d a : BitVec 6) (_x : BitVec 2) (s : State) : SlotSem :=
  let t := s.me
  let m := vSem t k g
  match vecOperand t d.toNat, vecOperand t a.toNat with
  | .ok rd, .ok ra =>
    let fa := vdFmt ra.d
    if !fcBlock fa then { m with fault := some t.illegal }
    else
      let act := actMask t k
      let p := fcPer fa
      let nb := runBlocks p
      let n := min (nb * p) 256
      let blks := (List.range nb).map (fun b => t.ursRead (ra.addr + 64 * b) 64)
      let bad := blks.map (malformed p)
      let val (i : Nat) : Num :=
        if bad.getD (i / p) true then .fin false 0 0 else blockElem t.efr.toNat (blks.getD (i / p) []) (i % p)
      let vs := (List.range n).map (fun i => if act.getLsbD i then vRound t i (val i) else 0)
      let nbad := ((List.range n).filter (fun i => act.getLsbD i && bad.getD (i / p) true)).length
      { m with
        srcs := m.srcs ++ [ursR ra (64 * nb)]
        dsts := [ursR rd (4 * n)]
        lands := if m.guard then [(5, .urs rd.addr (laneBytes act 0 vs))] else []
        post := fun s => (vStep (activeLanes act n) s).event s.cur.g 0x19 nbad }
  | x, y => { m with fault := byCode [fltOf x, fltOf y] }

/-- The tree of an integer reduction, modulo 2^32 (02 R64): its order does not matter. -/
def sumInt (l : List Nat) : Nat := l.foldl (· + ·) 0 % 2 ^ 32

/-- The element type of the view of A makes a reduction an integer one (07 R163). -/
def intReduce (r : Res) : Bool := fcType (vdFmt r.d) == 5 || fcType (vdFmt r.d) == 6

/-- A floating leaf: an inactive lane contributes −0 (02 R64). -/
def leaf (act : Mask) (i : Nat) (x : Num) : Num := if act.getLsbD i then x else .fin true 0 0

/-- `vsum` (07 R163). -/
def semVsum (k : BitVec 3) (g : BitVec 1) (d a : BitVec 6) (_x : BitVec 2) (s : State) : SlotSem :=
  let t := s.me
  let m := vSem t k g
  match vecOperand t d.toNat, vecOperand t a.toNat with
  | .ok rd, .ok ra =>
    let act := actMask t k
    let va := t.lanesAt ra.addr
    let r := if intReduce ra then
        sumInt ((List.range 256).zipWith (fun i x => if act.getLsbD i then x else 0) va)
      else rne32 (treeSum ((List.range 256).zipWith (fun i x => leaf act i (f32 x)) va))
    { m with
      srcs := m.srcs ++ [ursR ra 1024]
      dsts := [ursR rd 4]
      lands := if m.guard then [(12, .urs rd.addr (wholeBytes (leBytes 4 r)))] else [] }
  | x, y => { m with fault := byCode [fltOf x, fltOf y], dsts := okDst x 4 }

/-- `vdot` (07 R163): the exact products are the leaves. -/
def semVdot (k : BitVec 3) (g : BitVec 1) (d a : BitVec 6) (_x : BitVec 2) (b : BitVec 6) (_y : BitVec 2) (s : State) :
    SlotSem :=
  let t := s.me
  let m := vSem t k g
  match vecOperand t d.toNat, vecOperand t a.toNat, vecOperand t b.toNat with
  | .ok rd, .ok ra, .ok rb =>
    let act := actMask t k
    let vab := (t.lanesAt ra.addr).zip (t.lanesAt rb.addr)
    let r := if intReduce ra then
        sumInt ((List.range 256).zipWith (fun i x => if act.getLsbD i then x.1 * x.2 % 2 ^ 32 else 0) vab)
      else rne32 (treeSum ((List.range 256).zipWith (fun i x => leaf act i (Num.mul (f32 x.1) (f32 x.2))) vab))
    { m with
      srcs := m.srcs ++ [ursR ra 1024, ursR rb 1024]
      dsts := [ursR rd 4]
      lands := if m.guard then [(12, .urs rd.addr (wholeBytes (leBytes 4 r)))] else [] }
  | x, y, z => { m with fault := byCode [fltOf x, fltOf y, fltOf z], dsts := okDst x 4 }

/-- `vperm` (07 R164): bits [7:0] of a lane of B index A. -/
def semVperm (k : BitVec 3) (g : BitVec 1) (d a : BitVec 6) (_x : BitVec 2) (b : BitVec 6) (_y : BitVec 2) (s : State) :
    SlotSem :=
  let t := s.me
  let m := vSem t k g
  match vecOperand t d.toNat, vecOperand t a.toNat, vecOperand t b.toNat with
  | .ok rd, .ok ra, .ok rb =>
    let va := t.lanesAt ra.addr
    { m with
      srcs := m.srcs ++ [ursR ra 1024, ursR rb 1024]
      dsts := [ursR rd 1024]
      lands := [(3, .urs rd.addr (laneBytes (actMask t k) 0 ((t.lanesAt rb.addr).map (fun x => va.getD (x % 256) 0))))] }
  | x, y, z => { m with fault := byCode [fltOf x, fltOf y, fltOf z], dsts := okDst x 1024 }

/-- `vbcast` (07 R164). -/
def semVbcast (k : BitVec 3) (g : BitVec 1) (d s : BitVec 6) (st : State) : SlotSem :=
  let t := st.me
  let m := vSem t k g
  match vecOperand t d.toNat with
  | .ok rd =>
    { m with
      srcs := m.srcs ++ [.s s.toNat]
      dsts := [ursR rd 1024]
      lands := [(3, .urs rd.addr (laneBytes (actMask t k) 0 (List.replicate 256 ((t.rs s.toNat).toNat % 2 ^ 32))))] }
  | .error f => { m with fault := some f }

/-- `vmov` (07 R164). -/
def semVmov (k : BitVec 3) (g : BitVec 1) (d a : BitVec 6) (_x : BitVec 2) (s : State) : SlotSem :=
  semV1 (fun _ _ x => x) 3 false k g d a s

/-- The mask bytes of a pending write of lanes (07 R165). -/
def laneMaskBytes (act : Mask) : List (Option Byte) :=
  (List.range 256).flatMap (fun i => List.replicate 4 (some (if act.getLsbD i then 0xFF#8 else 0#8)))

/-- A pending write of bytes of the URS, less those a higher slot writes over (03 R87). -/
def pendUrs (a : Nat) (ms : List (Option Byte)) (pcs : List Piece) (vld : Bool) (s : State) : State :=
  let r := pendBytes s.cur.cancel a ms
  pendAdd (.urs a r.1) r.2 pcs vld s

/-- `vld` (07 R165, R166): 1024 bytes of a vault into the active lanes of D. The hold for an unlanded write of D comes before its memory
faults, as the holds of loads do (log 37). -/
def semVld (k : BitVec 3) (g : BitVec 1) (d : BitVec 6) (a : BitVec 5) (p : BitVec 1) (m : BitVec 4) (s : State) :
    SlotSem :=
  let t := s.me
  let v := vSem t k g
  let ea := (t.ra a.toNat).toNat
  let at? := if ea < 2 ^ 57 ∧ inAperture ea then vaultAt (cluOf s.cur.g) ea 1024 else none
  let chk : Option Flt := match at? with
    | none => some ⟨0x06, 0, ea % 2 ^ 57⟩
    | some _ =>
      if ea % 64 ≠ 0 then some ⟨0x07, 0, ea⟩
      else (undeclared t s.cur.g ea 1024 1).map (fun x => ⟨0x20, 0, x⟩)
  let base : SlotSem := { v with
    srcs := v.srcs ++ [.a a.toNat] ++ (if p = 1#1 then [.m m.toNat 0, .m m.toNat 1, .m m.toNat 2, .m m.toNat 3] else [])
    acc := [(ea, 1024, false)] }
  match vecOperand t d.toNat, postMod t p a.toNat m.toNat with
  | .ok rd, .ok pm =>
    { base with
      wait := if destDue t [ursR rd 1024] then some .hold else none
      fault := chk
      dsts := ursR rd 1024 :: postDst p a.toNat
      lands := pm
      post := match at? with
        | none => id
        | some (vn, o) => pendUrs rd.addr (laneMaskBytes (actMask t k))
          [⟨ea, vaultKey vn o, 1024, if vn = cluOf s.cur.g then .own else .lateral⟩] true }
  | x, y => { base with fault := byCode [fltOf x, fltOf y], dsts := okDst x 1024 ++ postDst p a.toNat }

/-- `vseed.set` (07 R168): lands at completion, for the active lanes. -/
def semVseedSet (k : BitVec 3) (g : BitVec 1) (a : BitVec 6) (_x : BitVec 2) (s : State) : SlotSem :=
  let t := s.me
  let m := vSem t k g
  match vecOperand t a.toNat with
  | .ok ra =>
    let act := actMask t k
    { m with
      srcs := m.srcs ++ [ursR ra 1024]
      dsts := [.seeds]
      lands := [(1, .seeds (((List.range 256).zip (t.lanesAt ra.addr)).filterMap
        (fun e => if act.getLsbD e.1 then some (e.1, w32 e.2) else none)))] }
  | .error f => { m with fault := some f, dsts := [.seeds] }

/-- `vseed.get` (07 R168): the seeds after the reservations of every earlier operation. -/
def semVseedGet (k : BitVec 3) (g : BitVec 1) (d : BitVec 6) (s : State) : SlotSem :=
  let t := s.me
  let m := vSem t k g
  match vecOperand t d.toNat with
  | .ok rd =>
    { m with
      dsts := [ursR rd 1024]
      lands := [(1, .urs rd.addr (laneBytes (actMask t k) 0 ((List.range 256).map (fun i => (t.seed i).toNat))))] }
  | .error f => { m with fault := some f }

-- Freewheel images (17 R346-R360).

/-- Classify (17 R346). -/
inductive Stamp where
  | elapsed (n : Nat) | early (n : Nat) | horizon
  deriving DecidableEq, Repr

/-- Classify a stamp against a step (17 R346). -/
def classify (s t : Nat) : Stamp :=
  let n := (s + 65536 - t % 65536) % 65536
  if n < 32768 then .elapsed n else if 61440 ≤ n then .early (65536 - n) else .horizon

/-- A stamped block malformed for freewheel use in a container of code `fc` (17 R439). -/
def fwMalformed (fc : Nat) (blk : List Byte) : Bool := malformed (fcPer fc) blk || leNat (blk.take 1) != fc

/-- The stamp of a block (02 R48). -/
def blkStamp (blk : List Byte) : Nat := leNat ((blk.drop 2).take 2)

/-- The element codes of a block of a stamped code. -/
def blkElems (fc : Nat) (blk : List Byte) : List Nat :=
  (List.range (fcPer fc)).map (fun k => elemAt (leNat (blk.drop 4)) (fcWidth fc) k)

/-- A stamped block from its element codes. -/
def mkStamped (fc stamp : Nat) (els : List Nat) : List Byte :=
  leBytes 1 fc ++ leBytes 1 127 ++ leBytes 2 stamp ++ leBytes 60 (packElems (fcWidth fc) els)

/-- Element format of a stamped code. -/
def stampFmt (fc : Nat) : Fmt := (typeFmt (fcType fc)).getD .fp32

/-- The outcome of a freewheel read of a block (17 R347). -/
inductive FwRead where
  | ok (blk : List Byte) | early (blk : List Byte) | horizon
  deriving DecidableEq, Repr

/-- The freewheel read of a well-formed block at view `now` under decay code `dc` (17 R347). -/
def fwReadBlock (fc dc now : Nat) (blk : List Byte) : FwRead :=
  match classify now (blkStamp blk) with
  | .elapsed n => .ok (mkStamped fc now ((blkElems fc blk).map (decay (stampFmt fc) dc n)))
  | .early _ => .early blk
  | .horizon => .horizon

/-- Events counted on the strand's die: stale rows and early stamps (17 R343). -/
def State.countDie (s : State) (o n : Nat) : State :=
  if n = 0 then s else s.setReg (dieOf s.cur.g) o (s.reg (dieOf s.cur.g) o + n)

/-- The header of a freewheel image is well formed (17 R358). -/
def imageOk (img : List Byte) : Bool :=
  let fc := leNat ((img.drop 2).take 1)
  (fc == 0xA0 || fc == 0xB0 || fc == 0xC0) && ((img.drop 3).take 61).all (fun b => b == 0#8)

/-- The fifteen blocks of an image. -/
def imageBlocks (img : List Byte) : List (List Byte) := (List.range 15).map (fun j => (img.drop (64 + 64 * j)).take 64)

/-- `vdecay` (17 R359). -/
def semVdecay (k : BitVec 3) (g : BitVec 1) (d a : BitVec 6) (_x : BitVec 2) (s : State) : SlotSem :=
  let t := s.me
  let m := vSem t k g
  match vecOperand t d.toNat, vecOperand t a.toNat with
  | .ok rd, .ok ra =>
    let img := t.ursRead ra.addr 1024
    let fc := leNat ((img.drop 2).take 1)
    let dc := leNat (img.take 2)
    let blks := imageBlocks img
    let bad := blks.map (fwMalformed fc)
    let res := blks.map (fun b => if fwMalformed fc b then .ok b else fwReadBlock fc dc t.svr.toNat b)
    let out := res.map (fun r => match r with | .ok b => b | .early b => b | .horizon => [])
    { m with
      srcs := m.srcs ++ [ursR ra 1024]
      dsts := [ursR rd 1024]
      fault := if !imageOk img || res.any (fun r => decide (r = .horizon)) then some t.illegal else none
      lands := if m.guard then [(12, .urs rd.addr (wholeBytes (img.take 64 ++ out.flatten)))] else []
      post := fun s => (s.countDie 0x36020 ((res.filter (fun r => match r with | .early _ => true | _ => false)).length)).event
        s.cur.g 0x19 (bad.filter id).length }
  | x, y => { m with fault := byCode [fltOf x, fltOf y], dsts := okDst x 1024 }

/-- One block of `vfwadd` (17 R360): a governed, well-formed block merged with its deltas; `none` beyond the horizon. -/
def fwAddBlock (fc dc now : Nat) (blk : List Byte) (xs : List Num) : Option (List Byte) :=
  let t := blkStamp blk
  let f := stampFmt fc
  match classify now t with
  | .horizon => none
  | .elapsed n =>
    some (mkStamped fc now ((blkElems fc blk).zipWith
      (fun v x => roundFloat f .rne false 0 (Num.add false (f.decode (decay f dc n v)) x)) xs))
  | .early n =>
    -- the delta is decayed to the block's stamp (17 R347): −0 and exact deltas are decayed without a first rounding
    some (mkStamped fc t ((blkElems fc blk).zipWith
      (fun v x => roundFloat f .rne false 0 (Num.add false (f.decode v) (decayNum f dc n x))) xs))
where
  /-- Decay of an exact delta, rounded once to the element format (02 R66). -/
  decayNum (f : Fmt) (dc n : Nat) (x : Num) : Num :=
    if n = 0 ∨ dc = 0 then x
    else rneVal f ((Num.mul x (decayMul (n * dc % 2 ^ 20))).scale (-((n * dc / 2 ^ 20 : Nat) : Int)))

/-- `vfwadd` (17 R360). -/
def semVfwadd (k : BitVec 3) (g : BitVec 1) (d a : BitVec 6) (_x : BitVec 2) (b : BitVec 6) (_y : BitVec 2) (s : State) :
    SlotSem :=
  let t := s.me
  let m := vSem t k g
  match vecOperand t d.toNat, vecOperand t a.toNat, vecOperand t b.toNat with
  | .ok rd, .ok ra, .ok rb =>
    let act := actMask t k
    let img := t.ursRead rd.addr 1024
    let fc := leNat ((img.drop 2).take 1)
    let dc := leNat (img.take 2)
    let p := fcPer fc
    let vab := (t.lanesAt ra.addr).zipWith (fun x y => Num.mul (f32 x) (f32 y)) (t.lanesAt rb.addr)
    let x (e : Nat) : Num := if e < 256 ∧ act.getLsbD e then vab.getD e .nan else .fin true 0 0
    let one (j : Nat) (blk : List Byte) : Option (Option (List Byte)) :=
      let gov := (List.range p).any (fun i => decide (j * p + i < 256) && act.getLsbD (j * p + i))
      if !gov || fwMalformed fc blk then some none
      else (fwAddBlock fc dc t.svr.toNat blk ((List.range p).map (fun i => x (j * p + i)))).map some
    let blks := imageBlocks img
    let res := (List.range 15).zipWith one blks
    let early := ((List.range 15).zip blks).filter (fun e =>
      (match res.getD e.1 none with | some (some _) => true | _ => false) &&
      (match classify t.svr.toNat (blkStamp e.2) with | .early _ => true | _ => false))
    let bad := blks.filter (fwMalformed fc)
    { m with
      srcs := m.srcs ++ [ursR ra 1024, ursR rb 1024, ursR rd 1024]
      dsts := [ursR rd 1024]
      fault := if !imageOk img || res.any Option.isNone then some t.illegal else none
      lands := if m.guard then [(12, .urs rd.addr (List.replicate 64 (some (0#8, 0#8)) ++
        res.flatMap (fun r => match r with
          | some (some blk) => wholeBytes blk
          | _ => List.replicate 64 (some (0#8, 0#8)))))] else []
      post := fun s => (s.countDie 0x36020 early.length).event s.cur.g 0x19 bad.length }
  | x, y, z => { m with fault := byCode [fltOf x, fltOf y, fltOf z], dsts := okDst x 1024 }

/-- VADD_F in slot 5 (R153). -/
def execVaddF (k : BitVec 3) (g : BitVec 1) (d : BitVec 6) (a : BitVec 6) (x : BitVec 2) (b : BitVec 6) (y : BitVec 2) (s : State) : Host.Outcome State Fault Refusal :=
  .next (runSlot 5 (semVaddF k g d a x b y s) s)

/-- VSUB_F in slot 5 (R153). -/
def execVsubF (k : BitVec 3) (g : BitVec 1) (d : BitVec 6) (a : BitVec 6) (x : BitVec 2) (b : BitVec 6) (y : BitVec 2) (s : State) : Host.Outcome State Fault Refusal :=
  .next (runSlot 5 (semVsubF k g d a x b y s) s)

/-- VMUL_F in slot 5 (R153). -/
def execVmulF (k : BitVec 3) (g : BitVec 1) (d : BitVec 6) (a : BitVec 6) (x : BitVec 2) (b : BitVec 6) (y : BitVec 2) (s : State) : Host.Outcome State Fault Refusal :=
  .next (runSlot 5 (semVmulF k g d a x b y s) s)

/-- VFMA_F in slot 5 (R154). -/
def execVfmaF (k : BitVec 3) (g : BitVec 1) (d : BitVec 6) (a : BitVec 6) (x : BitVec 2) (b : BitVec 6) (y : BitVec 2) (s : State) : Host.Outcome State Fault Refusal :=
  .next (runSlot 5 (semVfmaF k g d a x b y s) s)

/-- VMIN_F in slot 5 (R153). -/
def execVminF (k : BitVec 3) (g : BitVec 1) (d : BitVec 6) (a : BitVec 6) (x : BitVec 2) (b : BitVec 6) (y : BitVec 2) (s : State) : Host.Outcome State Fault Refusal :=
  .next (runSlot 5 (semVminF k g d a x b y s) s)

/-- VMAX_F in slot 5 (R153). -/
def execVmaxF (k : BitVec 3) (g : BitVec 1) (d : BitVec 6) (a : BitVec 6) (x : BitVec 2) (b : BitVec 6) (y : BitVec 2) (s : State) : Host.Outcome State Fault Refusal :=
  .next (runSlot 5 (semVmaxF k g d a x b y s) s)

/-- VABS_F in slot 5 (R153). -/
def execVabsF (k : BitVec 3) (g : BitVec 1) (d : BitVec 6) (a : BitVec 6) (x : BitVec 2) (s : State) : Host.Outcome State Fault Refusal :=
  .next (runSlot 5 (semVabsF k g d a x s) s)

/-- VNEG_F in slot 5 (R153). -/
def execVnegF (k : BitVec 3) (g : BitVec 1) (d : BitVec 6) (a : BitVec 6) (x : BitVec 2) (s : State) : Host.Outcome State Fault Refusal :=
  .next (runSlot 5 (semVnegF k g d a x s) s)

/-- VRCP in slot 5 (R155). -/
def execVrcp (k : BitVec 3) (g : BitVec 1) (d : BitVec 6) (a : BitVec 6) (x : BitVec 2) (s : State) : Host.Outcome State Fault Refusal :=
  .next (runSlot 5 (semVrcp k g d a x s) s)

/-- VRSQ in slot 5 (R155). -/
def execVrsq (k : BitVec 3) (g : BitVec 1) (d : BitVec 6) (a : BitVec 6) (x : BitVec 2) (s : State) : Host.Outcome State Fault Refusal :=
  .next (runSlot 5 (semVrsq k g d a x s) s)

/-- VEXP2 in slot 5 (R155). -/
def execVexp2 (k : BitVec 3) (g : BitVec 1) (d : BitVec 6) (a : BitVec 6) (x : BitVec 2) (s : State) : Host.Outcome State Fault Refusal :=
  .next (runSlot 5 (semVexp2 k g d a x s) s)

/-- VLOG2 in slot 5 (R155). -/
def execVlog2 (k : BitVec 3) (g : BitVec 1) (d : BitVec 6) (a : BitVec 6) (x : BitVec 2) (s : State) : Host.Outcome State Fault Refusal :=
  .next (runSlot 5 (semVlog2 k g d a x s) s)

/-- VADD_I in slot 5 (R156). -/
def execVaddI (k : BitVec 3) (g : BitVec 1) (d : BitVec 6) (a : BitVec 6) (x : BitVec 2) (b : BitVec 6) (y : BitVec 2) (s : State) : Host.Outcome State Fault Refusal :=
  .next (runSlot 5 (semVaddI k g d a x b y s) s)

/-- VSUB_I in slot 5 (R156). -/
def execVsubI (k : BitVec 3) (g : BitVec 1) (d : BitVec 6) (a : BitVec 6) (x : BitVec 2) (b : BitVec 6) (y : BitVec 2) (s : State) : Host.Outcome State Fault Refusal :=
  .next (runSlot 5 (semVsubI k g d a x b y s) s)

/-- VMUL_I in slot 5 (R156). -/
def execVmulI (k : BitVec 3) (g : BitVec 1) (d : BitVec 6) (a : BitVec 6) (x : BitVec 2) (b : BitVec 6) (y : BitVec 2) (s : State) : Host.Outcome State Fault Refusal :=
  .next (runSlot 5 (semVmulI k g d a x b y s) s)

/-- VMIN_I in slot 5 (R156). -/
def execVminI (k : BitVec 3) (g : BitVec 1) (d : BitVec 6) (a : BitVec 6) (x : BitVec 2) (b : BitVec 6) (y : BitVec 2) (s : State) : Host.Outcome State Fault Refusal :=
  .next (runSlot 5 (semVminI k g d a x b y s) s)

/-- VMAX_I in slot 5 (R156). -/
def execVmaxI (k : BitVec 3) (g : BitVec 1) (d : BitVec 6) (a : BitVec 6) (x : BitVec 2) (b : BitVec 6) (y : BitVec 2) (s : State) : Host.Outcome State Fault Refusal :=
  .next (runSlot 5 (semVmaxI k g d a x b y s) s)

/-- VAND in slot 5 (R156). -/
def execVand (k : BitVec 3) (g : BitVec 1) (d : BitVec 6) (a : BitVec 6) (x : BitVec 2) (b : BitVec 6) (y : BitVec 2) (s : State) : Host.Outcome State Fault Refusal :=
  .next (runSlot 5 (semVand k g d a x b y s) s)

/-- VOR in slot 5 (R156). -/
def execVor (k : BitVec 3) (g : BitVec 1) (d : BitVec 6) (a : BitVec 6) (x : BitVec 2) (b : BitVec 6) (y : BitVec 2) (s : State) : Host.Outcome State Fault Refusal :=
  .next (runSlot 5 (semVor k g d a x b y s) s)

/-- VXOR in slot 5 (R156). -/
def execVxor (k : BitVec 3) (g : BitVec 1) (d : BitVec 6) (a : BitVec 6) (x : BitVec 2) (b : BitVec 6) (y : BitVec 2) (s : State) : Host.Outcome State Fault Refusal :=
  .next (runSlot 5 (semVxor k g d a x b y s) s)

/-- VSHL in slot 5 (R156). -/
def execVshl (k : BitVec 3) (g : BitVec 1) (d : BitVec 6) (a : BitVec 6) (x : BitVec 2) (b : BitVec 6) (y : BitVec 2) (s : State) : Host.Outcome State Fault Refusal :=
  .next (runSlot 5 (semVshl k g d a x b y s) s)

/-- VSHR_S in slot 5 (R156). -/
def execVshrS (k : BitVec 3) (g : BitVec 1) (d : BitVec 6) (a : BitVec 6) (x : BitVec 2) (b : BitVec 6) (y : BitVec 2) (s : State) : Host.Outcome State Fault Refusal :=
  .next (runSlot 5 (semVshrS k g d a x b y s) s)

/-- VSHR_Z in slot 5 (R156). -/
def execVshrZ (k : BitVec 3) (g : BitVec 1) (d : BitVec 6) (a : BitVec 6) (x : BitVec 2) (b : BitVec 6) (y : BitVec 2) (s : State) : Host.Outcome State Fault Refusal :=
  .next (runSlot 5 (semVshrZ k g d a x b y s) s)

/-- VCMP_F in slot 5 (R157). -/
def execVcmpF (k : BitVec 3) (g : BitVec 1) (c : BitVec 3) (q : BitVec 3) (a : BitVec 6) (x : BitVec 2) (b : BitVec 6) (y : BitVec 2) (s : State) : Host.Outcome State Fault Refusal :=
  .next (runSlot 5 (semVcmpF k g c q a x b y s) s)

/-- VCMP_I in slot 5 (R157). -/
def execVcmpI (k : BitVec 3) (g : BitVec 1) (c : BitVec 3) (q : BitVec 3) (a : BitVec 6) (x : BitVec 2) (b : BitVec 6) (y : BitVec 2) (s : State) : Host.Outcome State Fault Refusal :=
  .next (runSlot 5 (semVcmpI k g c q a x b y s) s)

/-- VSEL in slot 5 (R158). -/
def execVsel (k : BitVec 3) (g : BitVec 1) (d : BitVec 6) (a : BitVec 6) (x : BitVec 2) (b : BitVec 6) (y : BitVec 2) (s : State) : Host.Outcome State Fault Refusal :=
  .next (runSlot 5 (semVsel k g d a x b y s) s)

/-- VCVT in slot 5 (R159). -/
def execVcvt (k : BitVec 3) (g : BitVec 1) (d : BitVec 6) (a : BitVec 6) (x : BitVec 2) (s : State) : Host.Outcome State Fault Refusal :=
  .next (runSlot 5 (semVcvt k g d a x s) s)

/-- VPACK in slot 5 (R160). -/
def execVpack (k : BitVec 3) (g : BitVec 1) (d : BitVec 6) (a : BitVec 6) (x : BitVec 2) (s : State) : Host.Outcome State Fault Refusal :=
  .next (runSlot 5 (semVpack k g d a x s) s)

/-- VUNPACK in slot 5 (R162). -/
def execVunpack (k : BitVec 3) (g : BitVec 1) (d : BitVec 6) (a : BitVec 6) (x : BitVec 2) (s : State) : Host.Outcome State Fault Refusal :=
  .next (runSlot 5 (semVunpack k g d a x s) s)

/-- VSUM in slot 5 (R163). -/
def execVsum (k : BitVec 3) (g : BitVec 1) (d : BitVec 6) (a : BitVec 6) (x : BitVec 2) (s : State) : Host.Outcome State Fault Refusal :=
  .next (runSlot 5 (semVsum k g d a x s) s)

/-- VDOT in slot 5 (R163). -/
def execVdot (k : BitVec 3) (g : BitVec 1) (d : BitVec 6) (a : BitVec 6) (x : BitVec 2) (b : BitVec 6) (y : BitVec 2) (s : State) : Host.Outcome State Fault Refusal :=
  .next (runSlot 5 (semVdot k g d a x b y s) s)

/-- VPERM in slot 5 (R164). -/
def execVperm (k : BitVec 3) (g : BitVec 1) (d : BitVec 6) (a : BitVec 6) (x : BitVec 2) (b : BitVec 6) (y : BitVec 2) (s : State) : Host.Outcome State Fault Refusal :=
  .next (runSlot 5 (semVperm k g d a x b y s) s)

/-- VBCAST in slot 5 (R164). -/
def execVbcast (k : BitVec 3) (g : BitVec 1) (d : BitVec 6) (s : BitVec 6) (st : State) : Host.Outcome State Fault Refusal :=
  .next (runSlot 5 (semVbcast k g d s st) st)

/-- VMOV in slot 5 (R164). -/
def execVmov (k : BitVec 3) (g : BitVec 1) (d : BitVec 6) (a : BitVec 6) (x : BitVec 2) (s : State) : Host.Outcome State Fault Refusal :=
  .next (runSlot 5 (semVmov k g d a x s) s)

/-- VLD in slot 5 (R165). -/
def execVld (k : BitVec 3) (g : BitVec 1) (d : BitVec 6) (a : BitVec 5) (p : BitVec 1) (m : BitVec 4) (s : State) : Host.Outcome State Fault Refusal :=
  .next (runSlot 5 (semVld k g d a p m s) s)

/-- VSEED_SET in slot 5 (R168). -/
def execVseedSet (k : BitVec 3) (g : BitVec 1) (a : BitVec 6) (x : BitVec 2) (s : State) : Host.Outcome State Fault Refusal :=
  .next (runSlot 5 (semVseedSet k g a x s) s)

/-- VSEED_GET in slot 5 (R168). -/
def execVseedGet (k : BitVec 3) (g : BitVec 1) (d : BitVec 6) (s : State) : Host.Outcome State Fault Refusal :=
  .next (runSlot 5 (semVseedGet k g d s) s)

/-- VDECAY in slot 5 (R359). -/
def execVdecay (k : BitVec 3) (g : BitVec 1) (d : BitVec 6) (a : BitVec 6) (x : BitVec 2) (s : State) : Host.Outcome State Fault Refusal :=
  .next (runSlot 5 (semVdecay k g d a x s) s)

/-- VFWADD in slot 5 (R360). -/
def execVfwadd (k : BitVec 3) (g : BitVec 1) (d : BitVec 6) (a : BitVec 6) (x : BitVec 2) (b : BitVec 6) (y : BitVec 2) (s : State) : Host.Outcome State Fault Refusal :=
  .next (runSlot 5 (semVfwadd k g d a x b y s) s)

end Sys2Proof.Machine
end

