-- ==== Sys2Proof/Machine/MemSlot.lean ====
section
/-! DEFINITION. The L slot (08 R169-R183, 17 R353-R357): loads, stores, URS block moves, prefetch, atomics, and the
freewheel and whole-row forms. -/

namespace Sys2Proof.Machine

/-- The frame of an L operation: guard, and the registers its address comes from. -/
def lSem (t : Strand) (k : BitVec 3) (g : BitVec 1) (a : BitVec 5) (p : BitVec 1) (m : BitVec 4) : SlotSem :=
  { guard := t.guard k g, guarded := isGuarded k g,
    srcs := [.a a.toNat] ++ (if p = 1#1 then [.m m.toNat 0, .m m.toNat 1, .m m.toNat 2, .m m.toNat 3] else []),
    dsts := postDst p a.toNat }

/-- Address of an L operation (08 R177). -/
def lea (t : Strand) (a : BitVec 5) (off : Nat) : Nat := ((t.ra a.toNat).toNat + off) % 2 ^ 64

/-- The faults of an access (08 R176): translation and permission, alignment, regions. `kind` is the access kind, `perm` the
permission and the region access it needs. Of an access of several bytes the data address reported is that of the first byte
that fails, for 0x06 and 0x20 alike: DESIGN CHOICE, log 75. -/
def memFlt (s : State) (ea n kind perm align : Nat) : Option Flt :=
  match s.pieces s.cur.g ea n perm (kind == 2) with
  | .error x => some (s.transFlt kind ea x n perm align (kind == 2) true)
  | .ok _ =>
    if ea % align ≠ 0 then some ⟨0x07, kind, ea⟩
    else (undeclared s.me s.cur.g ea n perm).map (fun x => ⟨0x20, kind, x⟩)

/-- The pieces of an access that raises no fault. -/
def memPieces (s : State) (ea n perm : Nat) (atomic : Bool) : List Piece × List Tlb :=
  match s.pieces s.cur.g ea n perm atomic with
  | .ok r => r
  | .error _ => ([], [])

/-- The translations of an access kept in the translation caches (08 R173). -/
def keepTlbs (ts : List Tlb) (s : State) : State := ts.foldl (fun s t => s.keepTlb (coreOf s.cur.g) t) s

/-- A register destination less a write that a higher slot makes over it (03 R87). -/
def destReg (cancel : List Dst) (d : Nat) : Nat := if dstsMeet [.s d] cancel then 0 else d

/-- The destination list of a register. -/
def destS (d : Nat) : List Dst := if d = 0 then [] else [.s d]

/-- Scalar loads (08 R178). -/
def semLd (size : Nat) (signed : Bool) (k : BitVec 3) (g : BitVec 1) (d : BitVec 6) (a : BitVec 5) (p : BitVec 1)
    (m : BitVec 4) (o : BitVec 6) (s : State) : SlotSem :=
  let t := s.me
  let f := lSem t k g a p m
  let ea := lea t a (o.toNat * size)
  match postMod t p a.toNat m.toNat with
  | .error e => { f with fault := some e, dsts := .s d.toNat :: f.dsts }
  | .ok pm =>
    let r := memPieces s ea size 1 false
    { f with
      wait := if destDue t [.s d.toNat] || s.loadHeld s.cur.g r.1 then some .hold else none
      fault := memFlt s ea size 0 1 size
      dsts := .s d.toNat :: postDst p a.toNat
      lands := pm
      acc := [(ea, size, false)]
      evts := [(0x08, 1), (0x0B, size)]
      post := fun s =>
        let d' := destReg s.cur.cancel d.toNat
        syncErr (pendAdd (.scalar d' size signed) (destS d') r.1 false (keepTlbs r.2 s)) }
where
  /-- An error in own-vault data is met before slot 4 commits (06 R135, 08 R183). -/
  syncErr (s : State) : State :=
    match s.me.pends.getLast? with
    | some p => match p.err with
      | some va => abortMe va s
      | none => s
    | none => s

/-- Scalar stores (08 R178): a held result until the bundle completes. -/
def semSt (size : Nat) (k : BitVec 3) (g : BitVec 1) (v : BitVec 6) (a : BitVec 5) (p : BitVec 1) (m : BitVec 4)
    (o : BitVec 6) (s : State) : SlotSem :=
  let t := s.me
  let f := lSem t k g a p m
  let ea := lea t a (o.toNat * size)
  match postMod t p a.toNat m.toNat with
  | .error e => { f with fault := some e }
  | .ok pm =>
    let r := memPieces s ea size 2 false
    { f with
      srcs := .s v.toNat :: f.srcs
      fault := memFlt s ea size 1 2 size
      dsts := postDst p a.toNat
      lands := pm ++ [(1, .mem ⟨r.1, leBytes size (t.rs v.toNat).toNat, none⟩)]
      acc := [(ea, size, true)]
      evts := [(0x09, 1), (0x0C, size)]
      post := keepTlbs r.2 }

/-- `ld.b.s`, `ld.b.z`, `ld.h.s`, `ld.h.z`, `ld.w.s`, `ld.w.z`, `ld.d` (08 R178). -/
def semLdBS := semLd 1 true
/-- `ld.b.z` (08 R178). -/
def semLdBZ := semLd 1 false
/-- `ld.h.s` (08 R178). -/
def semLdHS := semLd 2 true
/-- `ld.h.z` (08 R178). -/
def semLdHZ := semLd 2 false
/-- `ld.w.s` (08 R178). -/
def semLdWS := semLd 4 true
/-- `ld.w.z` (08 R178). -/
def semLdWZ := semLd 4 false
/-- `ld.d` (08 R178). -/
def semLdD := semLd 8 false
/-- `st.b` (08 R178). -/
def semStB := semSt 1
/-- `st.h` (08 R178). -/
def semStH := semSt 2
/-- `st.w` (08 R178). -/
def semStW := semSt 4
/-- `st.d` (08 R178). -/
def semStD := semSt 8

/-- The operand of a block move (08 R179). -/
def moveOperand (t : Strand) (n size : Nat) : Except Flt Res := if size = 1024 then vecOperand t n else blkOperand t n

/-- `ld.v` and `ld.blk` (08 R179). -/
def semLdU (size : Nat) (k : BitVec 3) (g : BitVec 1) (n : BitVec 6) (a : BitVec 5) (p : BitVec 1) (m : BitVec 4)
    (o : BitVec 4) (s : State) : SlotSem :=
  let t := s.me
  let f := lSem t k g a p m
  let ea := lea t a (o.toNat * size)
  match moveOperand t n.toNat size, postMod t p a.toNat m.toNat with
  | .ok rd, .ok pm =>
    let r := memPieces s ea size 1 false
    { f with
      wait := if destDue t [.urs rd.addr size] || s.loadHeld s.cur.g r.1 then some .hold else none
      fault := memFlt s ea size 0 1 64
      dsts := .urs rd.addr size :: postDst p a.toNat
      lands := pm
      acc := [(ea, size, false)]
      evts := [(0x08, 1), (0x0B, size)]
      post := fun s => semLd.syncErr (pendUrs rd.addr (List.replicate size (some 0xFF#8)) r.1 false (keepTlbs r.2 s)) }
  | x, y => { f with fault := byCode [fltOf x, fltOf y], dsts := okDst x size ++ f.dsts }

/-- `st.v` and `st.blk` (08 R179). -/
def semStU (size : Nat) (k : BitVec 3) (g : BitVec 1) (n : BitVec 6) (a : BitVec 5) (p : BitVec 1) (m : BitVec 4)
    (_t : BitVec 2) (o : BitVec 4) (s : State) : SlotSem :=
  let t := s.me
  let f := lSem t k g a p m
  let ea := lea t a (o.toNat * size)
  match moveOperand t n.toNat size, postMod t p a.toNat m.toNat with
  | .ok rn, .ok pm =>
    let r := memPieces s ea size 2 false
    { f with
      srcs := .urs rn.addr size :: f.srcs
      fault := memFlt s ea size 1 2 64
      dsts := postDst p a.toNat
      lands := pm ++ [(1, .mem ⟨r.1, t.ursRead rn.addr size, none⟩)]
      acc := [(ea, size, true)]
      evts := [(0x09, 1), (0x0C, size)]
      post := keepTlbs r.2 }
  | x, y => { f with fault := byCode [fltOf x, fltOf y] }

/-- `ld.v` (08 R179). -/
def semLdV := semLdU 1024
/-- `ld.blk` (08 R179). -/
def semLdBlk := semLdU 64
/-- `st.v` (08 R179). -/
def semStV := semStU 1024
/-- `st.blk` (08 R179). -/
def semStBlk := semStU 64

/-- `pf` (08 R180): the line that holds `ea` is filled, or the prefetch is dropped and counted. An address in the aperture is a
vault address whatever its other bits, and does nothing: DESIGN CHOICE for one that names no vault, log 76. -/
def semPf (k : BitVec 3) (g : BitVec 1) (a : BitVec 5) (p : BitVec 1) (m : BitVec 4) (o : BitVec 6) (s : State) :
    SlotSem :=
  let t := s.me
  let f := lSem t k g a p m
  let ea := lea t a (o.toNat * 64)
  match postMod t p a.toNat m.toNat with
  | .error e => { f with fault := some e }
  | .ok pm =>
    { f with
      dsts := postDst p a.toNat
      lands := pm
      post := fun s =>
        if ea < 2 ^ 57 ∧ inAperture ea then s
        else
          let r := memPieces s ea 1 1 false
          if (memPieces s ea 1 0 false).1.any (fun q => q.cls == .ms) then s
          else match memFlt s ea 1 0 1 1, r.1 with
          | none, q :: _ =>
            if q.cls != .cached then s
            else if (s.pieceBad (coreOf s.cur.g) t.part q).isSome then s.event s.cur.g 0x1A 1
            else ((keepTlbs r.2 (s.event s.cur.g 0x1E (s.misses (coreOf s.cur.g) t.part [q]))).fill (coreOf s.cur.g) t.part q).1
          | _, _ => s.event s.cur.g 0x1A 1 }

/-- The index of an atomic return in a replayed pass (19 R397). -/
def State.retIndex (s : State) (g : Nat) : Nat := match s.replayOf g with | some (_, r) => r.nret | none => 0

/-- One more atomic return to come in a replayed pass. -/
def countRet (s : State) : State :=
  match s.replayOf s.cur.g with
  | some (k, r) => { s with replays := SMap.put s.replays k { r with nret := r.nret + 1 } }
  | none => s

/-- `atom` (08 R181). -/
def semAtom (k : BitVec 3) (g : BitVec 1) (d : BitVec 6) (a : BitVec 5) (b : BitVec 6) (z : BitVec 1) (o : BitVec 4)
    (s : State) : SlotSem :=
  let t := s.me
  let f := lSem t k g a 0#1 0#4
  let size := if z = 1#1 then 8 else 4
  let ea := lea t a 0
  let r := memPieces s ea size 3 true
  let pend := if d = 0#6 then none else some s.nid
  { f with
    srcs := [.s b.toNat, .s d.toNat] ++ f.srcs
    wait := if destDue t [.s d.toNat] then some .hold else none
    fault := memFlt s ea size 2 3 size
    dsts := [.s d.toNat]
    lands := [(1, .mem ⟨r.1, [], some ⟨o.toNat, size, (t.rs b.toNat).toNat, (t.rs d.toNat).toNat, pend⟩⟩)]
    acc := [(ea, size, false), (ea, size, true)]
    evts := [(0x0A, 1)]
    post := fun s =>
      let s1 := keepTlbs r.2 s
      if d = 0#6 then s1
      else
        let d' := destReg s.cur.cancel d.toNat
        let p : Pend :=
          { id := s.nid, kind := .atom d' size (s.retIndex s.cur.g), dsts := destS d', pcs := [], val := none, vld := false,
            err := none }
        countRet (({ s1 with nid := s1.nid + 1 } : State).modMe (fun t => { t with pends := t.pends ++ [p] })) }

-- Freewheel and whole-row access (17 R353-R357).

/-- Codes that a whole-row operation accepts (16 R338). -/
def rowCode (fc : Nat) : Bool := [0x00, 0x01, 0x10, 0x11, 0x20, 0x21].contains fc

/-- The layout record of a row or block endpoint of a memory-side tensor, if its endpoint bits are right and its code is
accepted (17 R354, step 2). -/
def rowEnd (s : State) (e : Nat) (ok : Nat → Bool) : Option Lay :=
  if bits e 63 60 ≠ 2 ∨ bits e 59 56 ≠ 0 then none
  else match s.lay s.me.part (bits e 55 32) with
    | some l => if l.ms && l.peer.isNone && ok l.fc then some l else none
    | none => none

/-- The URS operand of a freewheel access: `n` bytes at the address of a name (17 R354, step 3). -/
def runOperand (t : Strand) (n len : Nat) : Except Flt Res :=
  match resolve t n with
  | none => .error (t.unmapped n)
  | some r =>
    if vdKind r.d = 2 then .error t.illegal
    else if r.addr + len > 65536 then .error (t.unmapped n)
    else .ok r

/-- The faults of a block endpoint (17 R354, steps 4 and 5): `x` is X + offset. -/
def blockFlt (t : Strand) (l : Lay) (e x kind acc : Nat) : Option Flt :=
  let f := x / 2 ^ l.rslot
  let b := x % 2 ^ l.rslot
  let p := fcPer l.fc
  if x % 64 ≠ 0 then some ⟨0x07, kind, e % 2 ^ 57⟩
  else if l.flatRows ≤ f ∨ l.rowBytes ≤ b then some t.illegal
  else if rowOut t l (bits e 55 32) acc f (b / 64 * p) p then some ⟨0x20, kind, e % 2 ^ 57⟩
  else none

/-- The piece of a block or row of a memory-side tensor. -/
def rowPiece (l : Lay) (e f b n : Nat) : Piece := ⟨e % 2 ^ 57, l.rowKey f + b, n, .ms⟩

/-- `ld.fw` (17 R355). -/
def semLdFw (k : BitVec 3) (g : BitVec 1) (n : BitVec 6) (a : BitVec 5) (p : BitVec 1) (m : BitVec 4) (o : BitVec 4)
    (s : State) : SlotSem :=
  let t := s.me
  let f := lSem t k g a p m
  let e := (t.ra a.toNat).toNat
  let x := (bits e 31 0 + o.toNat * 64) % 2 ^ 32
  match postMod t p a.toNat m.toNat, rowEnd s e fcStamped, runOperand t n.toNat 64 with
  | .ok pm, some l, .ok rd =>
    { f with
      wait := if destDue t [.urs rd.addr 64] then some .hold else none
      fault := blockFlt t l e x 0 1
      dsts := .urs rd.addr 64 :: postDst p a.toNat
      lands := pm
      evts := [(0x08, 1), (0x0B, 64)]
      post := fun s =>
        let r := pendBytes s.cur.cancel rd.addr (List.replicate 64 (some 0xFF#8))
        pendAdd (.fw rd.addr r.1 false l.fc l.decay (t.svr.toNat % 65536) 0) r.2
          [rowPiece l e (x / 2 ^ l.rslot) (x % 2 ^ l.rslot) 64] false s }
  | pm, l, r =>
    { f with
      fault := firstFlt [fltOf pm, if l.isNone then some t.illegal else none, fltOf r]
      dsts := okDst r 64 ++ f.dsts }

/-- `st.fw` (17 R356). The 0x05 of its block stands in no numbered step of 17 R354, so it comes before the memory faults of the steps
(03 R93). -/
def semStFw (k : BitVec 3) (g : BitVec 1) (n : BitVec 6) (a : BitVec 5) (p : BitVec 1) (m : BitVec 4) (_t : BitVec 2)
    (o : BitVec 4) (s : State) : SlotSem :=
  let t := s.me
  let f := lSem t k g a p m
  let e := (t.ra a.toNat).toNat
  let x := (bits e 31 0 + o.toNat * 64) % 2 ^ 32
  match postMod t p a.toNat m.toNat, rowEnd s e fcStamped, runOperand t n.toNat 64 with
  | .ok pm, some l, .ok rn =>
    let blk := t.ursRead rn.addr 64
    let now := t.svr.toNat % 65536
    let out := fwReadBlock l.fc l.decay now blk
    let bad := fwMalformed l.fc blk || decide (out = .horizon)
    let bs := match out with | .ok b => b | .early b => b | .horizon => blk
    { f with
      srcs := .urs rn.addr 64 :: f.srcs
      fault := byCode [blockFlt t l e x 1 2, if bad then some t.illegal else none]
      dsts := postDst p a.toNat
      lands := pm ++ [(1, .mem ⟨[rowPiece l e (x / 2 ^ l.rslot) (x % 2 ^ l.rslot) 64], bs, none⟩)]
      evts := [(0x09, 1), (0x0C, 64)]
      post := fun s => s.countDie 0x36020 (match out with | .early _ => 1 | _ => 0) }
  | pm, l, r => { f with fault := firstFlt [fltOf pm, if l.isNone then some t.illegal else none, fltOf r] }

/-- `ld.row` (17 R357). -/
def semLdRow (k : BitVec 3) (g : BitVec 1) (n : BitVec 6) (a : BitVec 5) (p : BitVec 1) (m : BitVec 4) (h : BitVec 4)
    (s : State) : SlotSem :=
  let t := s.me
  let f := lSem t k g a p m
  let e := (t.ra a.toNat).toNat
  let row := bits e 31 0
  match postMod t p a.toNat m.toNat, rowEnd s e (fun c => rowCode c || fcStamped c) with
  | .ok pm, some l =>
    match runOperand t n.toNat l.rowBytes with
    | .error x => { f with fault := some x }
    | .ok rd =>
      { f with
        wait := if destDue t [.urs rd.addr l.rowBytes] then some .hold else none
        fault := if l.flatRows ≤ row then some t.illegal
          else if rowOut t l (bits e 55 32) 1 row 0 l.cols then some ⟨0x20, 0, e % 2 ^ 57⟩ else none
        dsts := .urs rd.addr l.rowBytes :: postDst p a.toNat
        lands := pm
        evts := [(0x08, 1), (0x0B, l.rowBytes)]
        post := fun s =>
          let r := pendBytes s.cur.cancel rd.addr (List.replicate l.rowBytes (some 0xFF#8))
          pendAdd (.fw rd.addr r.1 true (if fcStamped l.fc then l.fc else 0) l.decay (t.svr.toNat % 65536) h.toNat) r.2
            [rowPiece l e row 0 l.rowBytes] false s }
  | pm, l =>
    { f with
      fault := firstFlt [fltOf pm, if l.isNone then some t.illegal else none]
      dsts := (match l with | some l => okDst (runOperand t n.toNat l.rowBytes) l.rowBytes | none => []) ++ f.dsts }

/-- LD_B_S in slot 4 (R178). -/
def execLdBS (k : BitVec 3) (g : BitVec 1) (s : BitVec 6) (a : BitVec 5) (p : BitVec 1) (m : BitVec 4) (o : BitVec 6) (st : State) : Host.Outcome State Fault Refusal :=
  .next (runSlot 4 (semLdBS k g s a p m o st) st)

/-- LD_B_Z in slot 4 (R178). -/
def execLdBZ (k : BitVec 3) (g : BitVec 1) (s : BitVec 6) (a : BitVec 5) (p : BitVec 1) (m : BitVec 4) (o : BitVec 6) (st : State) : Host.Outcome State Fault Refusal :=
  .next (runSlot 4 (semLdBZ k g s a p m o st) st)

/-- LD_H_S in slot 4 (R178). -/
def execLdHS (k : BitVec 3) (g : BitVec 1) (s : BitVec 6) (a : BitVec 5) (p : BitVec 1) (m : BitVec 4) (o : BitVec 6) (st : State) : Host.Outcome State Fault Refusal :=
  .next (runSlot 4 (semLdHS k g s a p m o st) st)

/-- LD_H_Z in slot 4 (R178). -/
def execLdHZ (k : BitVec 3) (g : BitVec 1) (s : BitVec 6) (a : BitVec 5) (p : BitVec 1) (m : BitVec 4) (o : BitVec 6) (st : State) : Host.Outcome State Fault Refusal :=
  .next (runSlot 4 (semLdHZ k g s a p m o st) st)

/-- LD_W_S in slot 4 (R178). -/
def execLdWS (k : BitVec 3) (g : BitVec 1) (s : BitVec 6) (a : BitVec 5) (p : BitVec 1) (m : BitVec 4) (o : BitVec 6) (st : State) : Host.Outcome State Fault Refusal :=
  .next (runSlot 4 (semLdWS k g s a p m o st) st)

/-- LD_W_Z in slot 4 (R178). -/
def execLdWZ (k : BitVec 3) (g : BitVec 1) (s : BitVec 6) (a : BitVec 5) (p : BitVec 1) (m : BitVec 4) (o : BitVec 6) (st : State) : Host.Outcome State Fault Refusal :=
  .next (runSlot 4 (semLdWZ k g s a p m o st) st)

/-- LD_D in slot 4 (R178). -/
def execLdD (k : BitVec 3) (g : BitVec 1) (s : BitVec 6) (a : BitVec 5) (p : BitVec 1) (m : BitVec 4) (o : BitVec 6) (st : State) : Host.Outcome State Fault Refusal :=
  .next (runSlot 4 (semLdD k g s a p m o st) st)

/-- ST_B in slot 4 (R178). -/
def execStB (k : BitVec 3) (g : BitVec 1) (s : BitVec 6) (a : BitVec 5) (p : BitVec 1) (m : BitVec 4) (o : BitVec 6) (st : State) : Host.Outcome State Fault Refusal :=
  .next (runSlot 4 (semStB k g s a p m o st) st)

/-- ST_H in slot 4 (R178). -/
def execStH (k : BitVec 3) (g : BitVec 1) (s : BitVec 6) (a : BitVec 5) (p : BitVec 1) (m : BitVec 4) (o : BitVec 6) (st : State) : Host.Outcome State Fault Refusal :=
  .next (runSlot 4 (semStH k g s a p m o st) st)

/-- ST_W in slot 4 (R178). -/
def execStW (k : BitVec 3) (g : BitVec 1) (s : BitVec 6) (a : BitVec 5) (p : BitVec 1) (m : BitVec 4) (o : BitVec 6) (st : State) : Host.Outcome State Fault Refusal :=
  .next (runSlot 4 (semStW k g s a p m o st) st)

/-- ST_D in slot 4 (R178). -/
def execStD (k : BitVec 3) (g : BitVec 1) (s : BitVec 6) (a : BitVec 5) (p : BitVec 1) (m : BitVec 4) (o : BitVec 6) (st : State) : Host.Outcome State Fault Refusal :=
  .next (runSlot 4 (semStD k g s a p m o st) st)

/-- LD_V in slot 4 (R179). -/
def execLdV (k : BitVec 3) (g : BitVec 1) (n : BitVec 6) (a : BitVec 5) (p : BitVec 1) (m : BitVec 4) (o : BitVec 4) (s : State) : Host.Outcome State Fault Refusal :=
  .next (runSlot 4 (semLdV k g n a p m o s) s)

/-- ST_V in slot 4 (R179). -/
def execStV (k : BitVec 3) (g : BitVec 1) (n : BitVec 6) (a : BitVec 5) (p : BitVec 1) (m : BitVec 4) (t : BitVec 2) (o : BitVec 4) (s : State) : Host.Outcome State Fault Refusal :=
  .next (runSlot 4 (semStV k g n a p m t o s) s)

/-- LD_BLK in slot 4 (R179). -/
def execLdBlk (k : BitVec 3) (g : BitVec 1) (n : BitVec 6) (a : BitVec 5) (p : BitVec 1) (m : BitVec 4) (o : BitVec 4) (s : State) : Host.Outcome State Fault Refusal :=
  .next (runSlot 4 (semLdBlk k g n a p m o s) s)

/-- ST_BLK in slot 4 (R179). -/
def execStBlk (k : BitVec 3) (g : BitVec 1) (n : BitVec 6) (a : BitVec 5) (p : BitVec 1) (m : BitVec 4) (t : BitVec 2) (o : BitVec 4) (s : State) : Host.Outcome State Fault Refusal :=
  .next (runSlot 4 (semStBlk k g n a p m t o s) s)

/-- PF in slot 4 (R180). -/
def execPf (k : BitVec 3) (g : BitVec 1) (a : BitVec 5) (p : BitVec 1) (m : BitVec 4) (o : BitVec 6) (s : State) : Host.Outcome State Fault Refusal :=
  .next (runSlot 4 (semPf k g a p m o s) s)

/-- ATOM in slot 4 (R181). -/
def execAtom (k : BitVec 3) (g : BitVec 1) (d : BitVec 6) (a : BitVec 5) (b : BitVec 6) (z : BitVec 1) (o : BitVec 4) (s : State) : Host.Outcome State Fault Refusal :=
  .next (runSlot 4 (semAtom k g d a b z o s) s)

/-- LD_ROW in slot 4 (R357). -/
def execLdRow (k : BitVec 3) (g : BitVec 1) (n : BitVec 6) (a : BitVec 5) (p : BitVec 1) (m : BitVec 4) (h : BitVec 4) (s : State) : Host.Outcome State Fault Refusal :=
  .next (runSlot 4 (semLdRow k g n a p m h s) s)

/-- LD_FW in slot 4 (R355). -/
def execLdFw (k : BitVec 3) (g : BitVec 1) (n : BitVec 6) (a : BitVec 5) (p : BitVec 1) (m : BitVec 4) (o : BitVec 4) (s : State) : Host.Outcome State Fault Refusal :=
  .next (runSlot 4 (semLdFw k g n a p m o s) s)

/-- ST_FW in slot 4 (R356). -/
def execStFw (k : BitVec 3) (g : BitVec 1) (n : BitVec 6) (a : BitVec 5) (p : BitVec 1) (m : BitVec 4) (t : BitVec 2) (o : BitVec 4) (s : State) : Host.Outcome State Fault Refusal :=
  .next (runSlot 4 (semStFw k g n a p m t o s) s)

end Sys2Proof.Machine
end

