-- ==== Sys2Proof/Machine/Engine.lean ====
section
/-! DEFINITION. The E slot (09 R197-R214, 13 R276-R280, 15 R311-R316, 16 R336-R342, 17 R350-R352, R361): configuration
writes, and the commands that it hands to the copy engine, the sprockets, the near-memory units and the derailleur. -/

namespace Sys2Proof.Machine

-- Configuration writes (09 R198-R202).

/-- `efr.set` (09 R198). -/
def semEfrSet (v : BitVec 6) (s : State) : SlotSem :=
  let t := s.me
  let x := t.rs v.toNat
  { srcs := [.s v.toNat], dsts := [.efr], lands := [(1, .efr x)],
    fault := if 5 ≤ x.toNat % 8 then some t.illegal else none }

/-- `vd.set` (09 R200). -/
def semVdSet (v : BitVec 6) (k : BitVec 3) (s : State) : SlotSem :=
  let t := s.me
  let x := (t.rs v.toNat).toNat
  let bad := vdEn x && vdRot x && (if vdLo x ≤ vdHi x then decide (vdCount x ≤ vdRrb x) else vdRrb x != 0)
  { srcs := [.s v.toNat], dsts := [.vd k.toNat], lands := [(1, .vd k.toNat (BitVec.ofNat 64 x))],
    fault := if bad then some t.illegal else none }

/-- `rot.set` (09 R201). -/
def semRotSet (k : BitVec 3) (l r : BitVec 6) (s : State) : SlotSem :=
  let t := s.me
  let c := vdCount (t.rvd k.toNat)
  { dsts := [.vd k.toNat], lands := [(1, .rotSet k.toNat l.toNat r.toNat)],
    fault := if r.toNat ≠ 0 ∧ c ≤ r.toNat then some t.illegal else none }

/-- `mlp.set` (09 R202). -/
def semMlpSet (a : BitVec 5) (s : State) : SlotSem :=
  let t := s.me
  let x := t.ra a.toNat
  { srcs := [.a a.toNat], lands := [(1, .mlp x)],
    fault := if x.toNat % 4 ≠ 0 ∨ 2 ^ 57 ≤ x.toNat then some t.illegal else none }

-- Launching (09 R197).

/-- The commands of a strand that wait for their start delay and satisfy a test, the interrupted context's among them. -/
def Strand.delayed (t : Strand) (p : Cmd → Bool) : Nat :=
  let all := t.ctx.lq ++ (match t.frozen with | some (x, _, _) => x.lq | none => [])
  (all.filter (fun e => match e.what with | .launch x => p x | _ => false)).length

/-- The commands of a core's strands that wait for their start delay and satisfy a test. -/
def State.waitingOn (s : State) (c : Nat) (p : Cmd → Bool) : Nat :=
  [0, 1, 2, 3].foldl (fun n k => n + (s.strand (4 * c + k)).delayed p) 0

/-- The strand in issue launches a command, at once or after its start delay. -/
def launchE (l : Nat) (c : Cmd) (s : State) : State :=
  if l = 0 then
    let r := s.launchCmd s.cur.g c
    match r.2 with
    | none => r.1
    | some (n, w) => r.1.modMe (fun t => { t with ctx := { t.ctx with lq := t.ctx.lq ++ [⟨n, t.ctx.pc, s.cur.slot, w⟩] } })
  else s.modMe (fun t => { t with ctx := { t.ctx with lq := t.ctx.lq ++ [⟨l, t.ctx.pc, s.cur.slot, .launch c⟩] } })

/-- A token register made pending for command `id` (09 R210). -/
def pendToken (id tok : Nat) (s : State) : State :=
  if tok = 0 then s
  else
    let p : Pend := { id, kind := .token tok, dsts := [.s tok], pcs := [], val := none, vld := false, err := none }
    s.modMe (fun t => { t with pends := t.pends ++ [p] })

/-- A command takes the next number. -/
def takeId (s : State) : State := { s with nid := s.nid + 1 }

/-- A token as a destination (03 R86). -/
def tokDst (tok : Nat) : List Dst := if tok = 0 then [] else [.s tok]

-- Copies (09 R203-R209).

/-- Bytes of a rectangle under a format code; `none` where the code or the shape breaks 09 R205. -/
def shapeSize (fc rows cols : Nat) : Option Nat :=
  if rows = 0 ∨ cols = 0 then none
  else if fcDense fc then (if rows * cols * fcWidth fc % 8 = 0 then some (rows * cols * fcWidth fc / 8) else none)
  else if fcBlock fc then (if cols % fcPer fc = 0 then some (rows * cols / fcPer fc * 64) else none)
  else none

/-- The size of a tensor copy whose rectangle keeps the limits of 09 R205. -/
def rectSize (e v : Nat) : Option Nat :=
  match shapeSize (shFc v) (shRows v) (shCols v) with
  | none => none
  | some n =>
    if n % 64 ≠ 0 ∨ 4194304 < n ∨ 65536 < epRow e + shRows v ∨ 65536 < epCol e + shCols v ∨
       (fcBlock (shFc v) && epCol e % fcPer (shFc v) != 0) then none
    else some n

/-- An address with `VAULT` = 127 resolved (08 R170). -/
def resolveVault (clu va : Nat) : Nat :=
  if inAperture va && bits va 30 24 == 127 then va - bits va 30 24 * 2 ^ 24 + clu * 2 ^ 24 else va

/-- The length of a copy, or that it breaks a limit that involves the shape, the length or both endpoints (09 R205-R207,
R209). -/
def copyLen (clu : Nat) (transpose : Bool) (d e v : Nat) : Option Nat :=
  let kd := epKind d
  let ks := epKind e
  if kd = 2 ∧ ks = 2 then none
  else if kd = 2 ∨ ks = 2 then
    let x := if kd = 2 then d else e
    let y := if kd = 2 then e else d
    let w := fcWidth (shFc v)
    let gr := if w = 32 then 8 else if w = 4 then 32 else 16
    let gc := if w ≤ 8 then 32 else 16
    if transpose && (!fcDense (shFc v) || !(epKind y == 1 || (epKind y == 0 && inAperture y)) ||
        epRow x % gr != 0 || shRows v % gr != 0 || epCol x % gc != 0 || shCols v % gc != 0) then none
    else rectSize x v
  else if transpose || v % 64 != 0 || decide (4194304 < v) then none
  else
    let meet := if kd = 0 ∧ ks = 0 then rangesMeet (resolveVault clu d) v (resolveVault clu e) v
      else if kd = 1 ∧ ks = 1 then rangesMeet d v e v else false
    if meet && v != 0 then none else some v

/-- The checks of one endpoint (09 R204, R209), with what it resolves to; `acc` 1 for the source, 2 for the
destination. -/
def endpoint (s : State) (e len v acc : Nat) : Except Flt (Endp × List Tlb) :=
  let t := s.me
  match epKind e with
  | 0 =>
    if bits e 59 57 ≠ 0 then .error t.illegal
    else
      match s.pieces s.cur.g e len acc false with
      | .error x => .error (s.transFlt 3 e x len acc 64 false true)
      | .ok (ps, ts) =>
        if e % 64 ≠ 0 then .error ⟨0x07, 3, e⟩
        else match (if len = 0 then none else undeclared t s.cur.g e len acc) with
          | some x => .error ⟨0x20, 3, x⟩
          | none => .ok (.mem e ps, ts)
  | 1 =>
    if bits e 59 16 ≠ 0 ∨ 65536 < bits e 15 0 + len then .error t.illegal
    else if e % 64 ≠ 0 then .error ⟨0x07, 3, e % 2 ^ 57⟩
    else .ok (.urs (bits e 15 0), [])
  | 2 =>
    if bits e 59 56 ≠ 0 then .error t.illegal
    else match tensorOut t (epHandle e) acc (epRow e) (shRows v) (epCol e) (shCols v) (shI2 v) 1 (shI3 v) 1 with
      | some _ => .error ⟨0x20, 3, e % 2 ^ 57⟩
      | none => .ok (.tens (epHandle e) (epRow e) (epCol e), [])
  | _ => .error t.illegal

/-- A memory endpoint as a watchpoint compares it. -/
def epAcc (e len : Nat) (w : Bool) : List (Nat × Nat × Bool) := if epKind e = 0 then [(e % 2 ^ 57, len, w)] else []

/-- The URS bytes of an endpoint. -/
def epTouch (e len : Nat) : List Dst := if epKind e = 1 then [.urs (bits e 15 0) len] else []

/-- The copy engine's queue has no free entry (09 R203). -/
def copyBar (s : State) : Option Bar :=
  let c := coreOf s.cur.g
  if 16 ≤ (s.core c).copies.length + s.waitingOn c Cmd.isCopy then some (.block .copyQueue) else none

/-- A copy from its resolved endpoints. -/
def mkCopy (s : State) (op tok : Nat) (d e : Endp) (len v : Nat) : CopyCmd :=
  { id := s.nid, strand := s.cur.g, op, tok, dst := d, src := e, len, fc := shFc v, rows := shRows v, cols := shCols v,
    i2 := shI2 v, i3 := shI3 v, started := false, data := [], word := 0#64 }

/-- `cp` and `cp.t` (09 R206, R207, R209). A landing-queue entry for the token register does not hold the copy at issue, as it holds
a load (08 R177): the spec says so of loads, and is silent of copies (DESIGN CHOICE, log 100). The source's faults come before the destination's whatever their codes (09 R209), though 03 R93 keeps the
order of codes where no numbered steps are listed: DESIGN CHOICE, log 108; an error in the tables comes last (06 R140). -/
def semCopy (op : Nat) (l : BitVec 3) (k : BitVec 6) (d e : BitVec 5) (n : BitVec 6) (s : State) : SlotSem :=
  let t := s.me
  let vd := (t.ra d.toNat).toNat
  let vs := (t.ra e.toNat).toNat
  let v := (t.rs n.toNat).toNat
  let base : SlotSem := {
    srcs := [.a d.toNat, .a e.toNat, .s n.toNat]
    dsts := tokDst k.toNat
    wait := copyBar s
    ents := if l = 0#3 then 0 else 1 }
  match copyLen (cluOf s.cur.g) (op == 1) vd vs v with
  | none => { base with fault := some t.illegal }
  | some len =>
    let b := { base with acc := epAcc vs len false ++ epAcc vd len true, touches := epTouch vs len ++ epTouch vd len,
                         reads := epTouch vs len }
    match endpoint s vs len v 1, endpoint s vd len v 2 with
    | .ok (es, ts), .ok (ed, td) =>
      { b with
        post := fun s =>
          let c := mkCopy s op k.toNat ed es len v
          launchE l.toNat (.copy c) (pendToken c.id k.toNat (takeId (keepTlbs (ts ++ td) s))) }
    | x, y => { b with fault := errLast [fltOf x, fltOf y] }

/-- `cp` (09 R206). -/
def semCp := semCopy 0
/-- `cp.t` (09 R207). -/
def semCpT := semCopy 1

/-- `cpf` (09 R208): it raises no fault; one that is found at issue ends the prefetch and is counted. -/
def semCpf (l : BitVec 3) (k : BitVec 6) (e : BitVec 5) (n : BitVec 6) (s : State) : SlotSem :=
  let t := s.me
  let vs := (t.ra e.toNat).toNat
  let v := (t.rs n.toNat).toNat
  let len? := if epKind vs = 2 then rectSize vs v else if v % 64 ≠ 0 ∨ 4194304 < v then none else some v
  let go : Option (Endp × List Tlb × Nat) := match len? with
    | none => none
    | some len => match endpoint s vs len v 1 with
      | .ok (es, ts) => some (es, ts, len)
      | .error _ => none
  { srcs := [.a e.toNat, .s n.toNat], dsts := tokDst k.toNat, wait := copyBar s,
    ents := if l = 0#3 then 0 else 1
    touches := match go with | some (_, _, len) => epTouch vs len | none => []
    post := fun s =>
      let (es, ts, len) := go.getD (.none, [], 0)
      let c := mkCopy s 2 k.toNat .none es len v
      let s1 := if go.isNone then s.event s.cur.g 0x1A 1 else s
      launchE l.toNat (.copy c) (pendToken c.id k.toNat (takeId (keepTlbs ts s1))) }

-- Near-memory commands (16 R336-R341, 17 R352, R361).

/-- A near-memory command, as against a spawn, a join or a permit. -/
def Cmd.isNm : Cmd → Bool
  | .nm n => decide (n.op ≤ 5)
  | _ => false

/-- The core's near-memory queue has no free entry (16 R336). -/
def nmBar (s : State) : Option Bar :=
  let c := coreOf s.cur.g
  if 8 ≤ ((s.core c).nmq.filter (fun n => decide (n.op ≤ 5))).length + s.waitingOn c Cmd.isNm then some (.block .nmQueue)
  else none

/-- A near-memory, spawn, join or permit command. -/
def mkNm (s : State) (op tok : Nat) (par : List Nat) (pcs : List Piece) (data : List Byte) : NmCmd :=
  { id := s.nid, strand := s.cur.g, part := s.me.part, op, tok, par, pcs, data, phase := 0, word := 0#64 }

/-- What a near-memory, spawn, join or permit operation has in common. -/
def nmSem (l : BitVec 3) (tok : Nat) (srcs : List Dst) (bar : Option Bar) (fault : Option Flt) (par : List Nat)
    (pcs : List Piece) (data : List Byte) (ts : List Tlb) (op : Nat) : SlotSem :=
  { srcs, dsts := tokDst tok, wait := bar, fault, ents := if l = 0#3 then 0 else 1,
    post := fun s =>
      let c := mkNm s op tok par pcs data
      launchE l.toNat (.nm c) (pendToken c.id tok (takeId (keepTlbs ts s))) }

/-- Codes of stamped momentum or plain momentum (16 R338). -/
def momCode (fc : Nat) : Bool := [0x00, 0x10, 0x20, 0xA0, 0xB0, 0xC0].contains fc

/-- The momentum row of `nm.opt` (16 R338, step 5): its layout record, or the operand is illegal. -/
def momOf (s : State) (l : Lay) (f : Nat) (data : List Byte) : Option Lay :=
  if ((data.drop 11).take 53).any (fun b => b != 0#8) then none
  else match s.lay s.me.part (fieldAt data 8 3) with
    | none => none
    | some m =>
      if m.ms && m.peer.isNone && momCode m.fc && m.cols == l.cols && decide (f < m.flatRows) &&
         m.unitStack f == l.unitStack f && bits (m.unitOff f) 14 12 == bits (l.unitOff f) 14 12 then some m
      else none

/-- `nm.radd`, `nm.fwadd`, `nm.opt`: the checks of 16 R338, then the command. `len` gives the source bytes. -/
def semRow (op : Nat) (ok : Nat → Bool) (len : Lay → Nat) (fn : List Nat) (l : BitVec 3) (n : BitVec 6) (a : BitVec 5)
    (k : BitVec 6) (s : State) : SlotSem :=
  let t := s.me
  let e := (t.ra a.toNat).toNat
  let f := bits e 31 0
  let h := bits e 55 32
  let stop (x : Flt) : SlotSem :=
    { srcs := [.a a.toNat], dsts := tokDst k.toNat, wait := nmBar s, fault := some x }
  if epKind e ≠ 2 ∨ bits e 59 56 ≠ 0 then stop t.illegal
  else match runOperand t n.toNat 0 with
    | .error x => stop x
    | .ok r =>
      match rowEnd s e ok with
      | none => stop t.illegal
      | some y =>
        if y.flatRows ≤ f then stop t.illegal
        else if 65536 < r.addr + len y then stop (t.unmapped n.toNat)
        else if 4096 < len y then stop t.illegal
        else
          let data := t.ursRead r.addr (len y)
          let mom := if op = 3 then momOf s y f data else some y
          match mom with
          | none => { stop t.illegal with srcs := [.a a.toNat, .urs r.addr (len y)] }
          | some m =>
            let mh := if op = 3 then fieldAt data 8 3 else h
            let out := rowOut t y h 3 f 0 y.cols || (op == 3 && rowOut t m mh 3 f 0 m.cols)
            nmSem l k.toNat [.a a.toNat, .urs r.addr (len y)] (nmBar s)
              (if out then some ⟨0x20, 3, e % 2 ^ 57⟩ else none)
              ([h, f] ++ fn ++ [t.svr.toNat % 65536, mh, y.fc, y.cols, y.decay, m.fc, m.decay])
              ([rowPiece y e f 0 y.rowBytes] ++ (if op = 3 then [rowPiece m e f 0 m.rowBytes] else [])) data [] op

/-- `nm.radd` (16 R339): `par` holds handle, row, operation, SF, view, momentum handle, then code, columns and decay code of
the tensor and code and decay code of the momentum, as the layout unit read them at issue. -/
def semNmRadd (l : BitVec 3) (n : BitVec 6) (_p : BitVec 2) (a : BitVec 5) (k : BitVec 6) (o : BitVec 2) (f : BitVec 1)
    (s : State) : SlotSem :=
  semRow 0 rowCode (fun y => if f = 1#1 then 4 * y.cols else y.rowBytes) [o.toNat, f.toNat] l n a k s

/-- `nm.fwadd` (17 R361). -/
def semNmFwadd (l : BitVec 3) (n : BitVec 6) (_p : BitVec 2) (a : BitVec 5) (k : BitVec 6) (f : BitVec 1) (s : State) :
    SlotSem :=
  semRow 1 fcStamped (fun y => if f = 1#1 then 4 * y.cols else y.rowBytes) [0, f.toNat] l n a k s

/-- `nm.opt` (16 R341). -/
def semNmOpt (l : BitVec 3) (n : BitVec 6) (_p : BitVec 2) (a : BitVec 5) (k : BitVec 6) (s : State) : SlotSem :=
  semRow 3 rowCode (fun y => 64 + 4 * y.cols) [0, 1] l n a k s

/-- `nm.red` (16 R340). The checks of its name stand in no step of the list, so they come where 03 R93 puts their codes. -/
def semNmRed (l : BitVec 3) (n : BitVec 6) (_p : BitVec 2) (a : BitVec 5) (k : BitVec 6) (o : BitVec 2) (s : State) :
    SlotSem :=
  let t := s.me
  let e := (t.ra a.toNat).toNat
  let stop (x : Flt) : SlotSem := { srcs := [.a a.toNat], dsts := tokDst k.toNat, wait := nmBar s, fault := some x }
  let kind := if epKind e ≠ 0 ∨ bits e 59 57 ≠ 0 then some t.illegal else none
  let page (x : Tlb) : Bool := x.ms && x.win == 0
  match byCode [kind, fltOf (vecOperand t n.toNat)], vecOperand t n.toNat with
    | some x, _ => stop x
    | none, .error x => stop x
    | none, .ok r =>
      if inAperture e then stop ⟨0x06, 3, e⟩
      else match s.pieces s.cur.g e 1024 3 false with
        | .error x =>
          stop (match s.plainFail (coreOf s.cur.g) t.part 3 false page 2 e 1024 with
            | some y => ⟨0x06, 3, y⟩
            | none => s.transFlt 3 e x 1024 3 1024 false true)
        | .ok (ps, ts) =>
          match ps.find? (fun p => p.cls != .ms) with
          | some p => stop ⟨0x06, 3, p.va⟩
          | none =>
            let flt : Option Flt :=
              if e % 1024 ≠ 0 then some ⟨0x07, 3, e⟩ else (undeclared t s.cur.g e 1024 3).map (fun x => ⟨0x20, 3, x⟩)
            nmSem l k.toNat [.a a.toNat, .urs r.addr 1024] (nmBar s) flt [o.toNat] ps (t.ursRead r.addr 1024) ts 2

/-- `nm.sweep.reg` and `nm.sweep.unreg` (17 R352). -/
def semSweep (op : Nat) (l : BitVec 3) (a : BitVec 5) (k : BitVec 6) (s : State) : SlotSem :=
  let t := s.me
  let e := (t.ra a.toNat).toNat
  let h := bits e 55 32
  let lay := if bits e 31 0 = 0 then rowEnd s e fcStamped else none
  let flt : Option Flt := match lay with
    | none => some t.illegal
    | some y =>
      if (tensorOut t h 3 0 y.rows 0 y.cols 0 y.n2 0 y.n3).isSome then some ⟨0x20, 3, e % 2 ^ 57⟩ else none
  nmSem l k.toNat [.a a.toNat] (nmBar s) flt [h] [] [] [] op

/-- `nm.sweep.reg` (17 R352). -/
def semNmSweepReg := semSweep 4
/-- `nm.sweep.unreg` (17 R352). -/
def semNmSweepUnreg := semSweep 5

-- Tasks (13 R277-R280).

/-- The checks of a record slot (13 R277). -/
def recFlt (s : State) (e : Nat) : Option Flt :=
  match s.pieces s.cur.g e 1 3 true with
  | .error x => some (s.transFlt 3 e x 1 3 512 true false)
  | .ok _ => if e % 512 ≠ 0 then some ⟨0x07, 3, e⟩ else none

/-- The record slot as a piece, at its location. -/
def recPiece (s : State) (e : Nat) : List Piece × List Tlb :=
  match s.pieces s.cur.g e 1 3 true with
  | .error _ => ([], [])
  | .ok (ps, ts) => (ps.map (fun p => { p with len := 512, key := recLoc ((ts.head?.map Tlb.ppart).getD 0) p.key }), ts)

/-- `tspawn` (13 R277, R278). -/
def semTspawn (l : BitVec 3) (k : BitVec 6) (a : BitVec 5) (s : State) : SlotSem :=
  let e := (s.me.ra a.toNat).toNat
  let r := recPiece s e
  nmSem l k.toNat [.a a.toNat] none (recFlt s e) [s.me.ctx.pc] r.1 [] r.2 6

/-- A join of the strand waits for its start delay. -/
def isJoin : Cmd → Bool
  | .nm n => n.op == 7
  | _ => false

/-- `tjoin` (13 R280): the 33rd entry of a join list is an illegal operand. -/
def semTjoin (l : BitVec 3) (a : BitVec 5) (s : State) : SlotSem :=
  let t := s.me
  let e := (t.ra a.toNat).toNat
  let r := recPiece s e
  let n := t.joins.length + t.delayed isJoin
  nmSem l 0 [.a a.toNat] none (if 32 ≤ n then some t.illegal else recFlt s e) [] r.1 [] r.2 7

-- Permits (15 R311-R314).

/-- The permits of a port of a die that have an entry: those at the sprocket, those that wait for their start delay, on strands that
run and on strands that are saved, and those handed to the command processor (15 R314, 18 R373). -/
def State.permitsOf (s : State) (d port : Nat) : Nat :=
  let isP (c : Cmd) : Bool := match c with | .nm n => n.op == 8 && n.par.getD 0 0 == port | _ => false
  let live := (s.strands.filter (fun e => dieOf e.1 == d)).map Prod.snd
  let cores := (s.cores.filter (fun c => c.1 / 288 == d)).map Prod.snd
  let shadows := cores.flatMap (fun c => match c.shadow with | some (_, l) => l | none => [])
  let saved := (s.images.filter (fun i => dieOf i.2.1 == d)).map (fun i => i.2.2)
  (SMap.get [] s.permits (d * 32 + port)).length + (live ++ shadows ++ saved).foldl (fun n t => n + t.delayed isP) 0 +
    (cores.flatMap (fun c => c.parked.filter (fun e => isP e.2))).length

/-- The sprocket has no free entry (15 R314). -/
def permitBar (s : State) (port : Nat) : Option Bar :=
  if 8 ≤ s.permitsOf (dieOf s.cur.g) port then some (.block (.permitQueue port)) else none

/-- A partition's cluster set holds a cluster, numbered over the package (18 R367). -/
def State.inSet (s : State) (p clu : Nat) : Bool :=
  if clu < 64 then bit (s.preg p 32) clu else bit (s.preg p 40) (clu - 64)

/-- The clusters of a permit's mask. -/
def maskClusters (d m : Nat) : List Nat := ((List.range 18).filter (fun c => bit m c)).map (fun c => 18 * d + c)

/-- The limits of a permit descriptor (15 R312, R313, step 2): the size of its tiles. -/
def permitSize (s : State) (d part : Nat) (b : List Byte) : Option Nat :=
  let op := fieldAt b 0 1
  let nt := fieldAt b 2 2
  let vm := fieldAt b 4 4
  let ep := fieldAt b 8 8
  let sh := fieldAt b 16 8
  let vo := fieldAt b 24 4
  let vs := fieldAt b 28 4
  let rs := fieldAt b 32 2
  let cs := fieldAt b 34 2
  let cl := maskClusters d vm
  match rectSize ep sh with
  | none => none
  | some z =>
    if (op != 1 && op != 2) || fieldAt b 1 1 != 0 || nt == 0 || decide (4096 < nt) || decide (2 ^ 18 ≤ vm) || cl.isEmpty ||
       (op == 2 && cl.length != 1) || epKind ep != 2 || bits ep 59 56 != 0 || vo % 64 != 0 || vs % 64 != 0 ||
       (b.drop 36).any (fun x => x != 0#8) ||
       decide (65536 < epRow ep + (nt - 1) * rs + shRows sh) || decide (65536 < epCol ep + (nt - 1) * cs + shCols sh) ||
       (fcBlock (shFc sh) && decide (1 < nt) && cs % fcPer (shFc sh) != 0) ||
       decide (4194304 < nt * z) || decide (2 ^ 24 < vo + (nt - 1) * vs + z) || !cl.all (s.inSet part) then none
    else some z

/-- The region checks of a permit (15 R313, step 3): the first failing address. Its vault ranges are looked at tile by tile, and for
a tile by rising cluster (DESIGN CHOICE, log 101). -/
def permitOut (t : Strand) (d : Nat) (b : List Byte) (z : Nat) : Option Nat :=
  let op := fieldAt b 0 1
  let ep := fieldAt b 8 8
  let sh := fieldAt b 16 8
  let tacc := if op = 1 then 1 else 2
  let vacc := if op = 1 then 2 else 1
  let nt := fieldAt b 2 2
  match (List.range nt).findSome? (fun i =>
      tensorOut t (epHandle ep) tacc (epRow ep + i * fieldAt b 32 2) (shRows sh) (epCol ep + i * fieldAt b 34 2) (shCols sh)
        (shI2 sh) 1 (shI3 sh) 1) with
  | some (r, c, _, _) => some ((2 * 2 ^ 60 + epHandle ep * 2 ^ 32 + r * 2 ^ 16 + c) % 2 ^ 57)
  | none =>
    (List.range nt).findSome? (fun i =>
      (maskClusters d (fieldAt b 4 4)).findSome? (fun v =>
        let rs := vaultRanges t v vacc
        let o := fieldAt b 24 4 + i * fieldAt b 28 4
        (uncovered rs (rs.length + 1) o (o + z)).map (fun x => apBase + v * 2 ^ 24 + x)))

/-- `sw.permit` (15 R311-R313): the descriptor is read as a load reads it (08 R188), behind a fabric window once it has been asked of
its peer (21 R417); `par` holds port, operation, tiles, vault mask, endpoint, shape, vault offset and step, row
and column step, size. -/
def semSwPermit (l : BitVec 3) (k : BitVec 6) (a p : BitVec 5) (s : State) : SlotSem :=
  let t := s.me
  let d := dieOf s.cur.g
  let e := (t.ra a.toNat).toNat
  let wait (ps : List Piece) : Option Bar :=
    (permitBar s p.toNat).or (if !s.asked s.cur.g e ps then some (.ask e ps) else if s.loadHeld s.cur.g ps then some .hold else none)
  let stopAt (ps : List Piece) (x : Flt) : SlotSem :=
    { srcs := [.a a.toNat], dsts := tokDst k.toNat, wait := wait ps, fault := some x }
  let stop := stopAt []
  match s.pieces s.cur.g e 64 1 false with
  | .error x => stop { s.transFlt 3 e x 64 1 64 false false with addr := e % 2 ^ 57 }
  | .ok (ps, ts) =>
    if e % 64 ≠ 0 then stop ⟨0x07, 3, e⟩
    else match s.loadBad (coreOf s.cur.g) t.part 0 (ps.flatMap cutPiece) with
    | some x => stopAt ps ⟨0x21, 0, x.2⟩
    | none =>
      let b := s.forward s.cur.g ps ((s.flushOuts s.cur.g ps).load (coreOf s.cur.g) t.part ps).2
      match permitSize s d t.part b with
      | none => stopAt ps ⟨0x05, 0, e⟩
      | some z =>
        let m := nmSem l k.toNat [.a a.toNat] (wait ps) ((permitOut t d b z).map (fun x => ⟨0x20, 3, x⟩))
          [p.toNat, fieldAt b 0 1, fieldAt b 2 2, fieldAt b 4 4, fieldAt b 8 8, fieldAt b 16 8, fieldAt b 24 4,
            fieldAt b 28 4, fieldAt b 32 2, fieldAt b 34 2, z] [] [] ts 8
        { m with post := fun s =>
            m.post ((((s.fixLoads s.cur.g ps).flushOuts s.cur.g ps).load (coreOf s.cur.g) t.part ps).1.askOver s.cur.g e) }

-- The global step (17 R350, R351).

/-- One block of a sweep pass at reference step `o` (17 R351): the block as left, and whether it is beyond the horizon. -/
def sweepBlock (fc d o : Nat) (blk : List Byte) : List Byte × Bool :=
  if fwMalformed fc blk then (blk, false)
  else match classify o (blkStamp blk) with
    | .elapsed n =>
      if 2 ^ 13 ≤ n then (mkStamped fc o ((blkElems fc blk).map (decay (stampFmt fc) d n)), false) else (blk, false)
    | .early _ => (blk, false)
    | .horizon => (blk, true)

/-- What strand `g` has under way to the bytes of a row comes before a whole-row operation of its own (17 R365): its stores and
atomics are performed, and its loads have their values fixed. -/
def State.beforeRow (s : State) (g : Nat) (pcs : List Piece) : State :=
  ((s.flushIf g (fun _ => true) pcs).fixLoads g pcs).fixFenced g true pcs

/-- One row of a sweep pass of strand `g`, a whole-row operation of it (17 R363). One whose check is wrong is left as it is: no task
consumes its data, and the error is counted (20 R405; log 96). -/
def State.sweepRow (s0 : State) (g : Nat) (l : Lay) (o f : Nat) : State :=
  let k := l.rowKey f
  let s := s0.beforeRow g [⟨k, k, l.rowBytes, .ms⟩]
  if s.keyBad k l.rowBytes then s.ierrUnc
  else
  let r := (blocks64 (l.rowBytes / 64) (s.memRead k l.rowBytes)).map (sweepBlock l.fc l.decay o)
  let s1 := s.memWrite k (r.map Prod.fst).flatten
  if r.any Prod.snd then s1.setReg 0 0x36010 (s1.reg 0 0x36010 ||| 1) else s1

/-- One near-memory operation of the sweep pass in progress (17 R351): the next row of its first tensor, or the next tensor. A pass
that is over and whose advance has gone is forgotten. -/
def State.sweepStep (s : State) : State :=
  match s.sweep with
  | none => s
  | some w =>
    match w.todo with
    | [] => if (s.strand w.strand).adv then s else { s with sweep := none }
    | e :: l =>
      let next (s : State) : State := { s with sweep := some { w with todo := l, row := 0 } }
      match s.lay e.1 e.2 with
      | some y =>
        if y.ms && y.peer.isNone && fcStamped y.fc && decide (w.row < y.flatRows) then
          { s.sweepRow w.strand y w.ref w.row with sweep := some { w with row := w.row + 1 } }
        else next s
      | none => next s

/-- The strand runs a pass of a replay before the last (19 R397). -/
def State.dryRun (s : State) (g : Nat) : Bool :=
  match s.replayOf g with
  | some (k, r) => decide (r.pass < bits (s.rp k 8) 6 4)
  | none => false

/-- The phases of a `gstep.adv` (17 R350): the strand's whole-row operations are performed, an advance of another strand
completes, and a sweep pass runs when `cross` holds. Each clock of the hold keeps the strand to it; `none` once all are over. -/
def advHold (g : Nat) (cross : Bool) (s : State) : Option (State → State) :=
  let keep (s : State) : State := s.modStrand g (fun t => { t with adv := true })
  let begin (s : State) : State :=
    let s1 := fixRows s
    { s1 with sweep := some ⟨g, s1.gstep, s1.sweeps, 0⟩ }
  if s.rowBusy g then some keep
  else if s.dryRun g then none
  else match s.sweep with
    | some w => if w.strand = g && w.todo.isEmpty then none else some keep
    | none => if cross then some (fun s => keep (begin s)) else none

/-- `gstep.adv` (17 R350): its bundle's completion brings the new value into the view. -/
def semGstepAdv (i : BitVec 12) (s : State) : SlotSem :=
  let t := s.me
  let o := s.gstep
  let new := (o + i.toNat) % 65536
  let ctl := s.reg 0 0x36008
  let dry := s.dryRun s.cur.g
  { hold := advHold s.cur.g (decide (8192 ≤ o % 8192 + i.toNat)) s
    fault := if !bit ctl 8 || bits ctl 7 0 != t.part then some t.illegal else none
    lands := if dry then [] else [(1, .svr (BitVec.ofNat 64 new))]
    post := fun s =>
      let s1 := s.modMe (fun t => { t with adv := false })
      if dry then s1 else ({ fixRows s1 with sweep := none } : State).setReg 0 0x36000 new }

/-- CP in slot 7 (R206). -/
def execCp (l : BitVec 3) (t : BitVec 6) (d : BitVec 5) (s : BitVec 5) (n : BitVec 6) (st : State) : Host.Outcome State Fault Refusal :=
  .next (runSlot 7 (semCp l t d s n st) st)

/-- CP_T in slot 7 (R207). -/
def execCpT (l : BitVec 3) (t : BitVec 6) (d : BitVec 5) (s : BitVec 5) (n : BitVec 6) (st : State) : Host.Outcome State Fault Refusal :=
  .next (runSlot 7 (semCpT l t d s n st) st)

/-- CPF in slot 7 (R208). -/
def execCpf (l : BitVec 3) (t : BitVec 6) (s : BitVec 5) (n : BitVec 6) (st : State) : Host.Outcome State Fault Refusal :=
  .next (runSlot 7 (semCpf l t s n st) st)

/-- EFR_SET in slot 7 (R198). -/
def execEfrSet (s : BitVec 6) (st : State) : Host.Outcome State Fault Refusal :=
  .next (runSlot 7 (semEfrSet s st) st)

/-- VD_SET in slot 7 (R200). -/
def execVdSet (s : BitVec 6) (k : BitVec 3) (st : State) : Host.Outcome State Fault Refusal :=
  .next (runSlot 7 (semVdSet s k st) st)

/-- ROT_SET in slot 7 (R201). -/
def execRotSet (k : BitVec 3) (l : BitVec 6) (r : BitVec 6) (s : State) : Host.Outcome State Fault Refusal :=
  .next (runSlot 7 (semRotSet k l r s) s)

/-- MLP_SET in slot 7 (R202). -/
def execMlpSet (a : BitVec 5) (s : State) : Host.Outcome State Fault Refusal :=
  .next (runSlot 7 (semMlpSet a s) s)

/-- SW_PERMIT in slot 7 (R312). -/
def execSwPermit (l : BitVec 3) (t : BitVec 6) (a : BitVec 5) (p : BitVec 5) (s : State) : Host.Outcome State Fault Refusal :=
  .next (runSlot 7 (semSwPermit l t a p s) s)

/-- NM_RADD in slot 7 (R339). -/
def execNmRadd (l : BitVec 3) (n : BitVec 6) (p : BitVec 2) (a : BitVec 5) (t : BitVec 6) (o : BitVec 2) (f : BitVec 1) (s : State) : Host.Outcome State Fault Refusal :=
  .next (runSlot 7 (semNmRadd l n p a t o f s) s)

/-- NM_FWADD in slot 7 (R361). -/
def execNmFwadd (l : BitVec 3) (n : BitVec 6) (p : BitVec 2) (a : BitVec 5) (t : BitVec 6) (f : BitVec 1) (s : State) : Host.Outcome State Fault Refusal :=
  .next (runSlot 7 (semNmFwadd l n p a t f s) s)

/-- NM_RED in slot 7 (R340). -/
def execNmRed (l : BitVec 3) (n : BitVec 6) (p : BitVec 2) (a : BitVec 5) (t : BitVec 6) (o : BitVec 2) (s : State) : Host.Outcome State Fault Refusal :=
  .next (runSlot 7 (semNmRed l n p a t o s) s)

/-- NM_OPT in slot 7 (R341). -/
def execNmOpt (l : BitVec 3) (n : BitVec 6) (p : BitVec 2) (a : BitVec 5) (t : BitVec 6) (s : State) : Host.Outcome State Fault Refusal :=
  .next (runSlot 7 (semNmOpt l n p a t s) s)

/-- NM_SWEEP_REG in slot 7 (R352). -/
def execNmSweepReg (l : BitVec 3) (a : BitVec 5) (t : BitVec 6) (s : State) : Host.Outcome State Fault Refusal :=
  .next (runSlot 7 (semNmSweepReg l a t s) s)

/-- NM_SWEEP_UNREG in slot 7 (R352). -/
def execNmSweepUnreg (l : BitVec 3) (a : BitVec 5) (t : BitVec 6) (s : State) : Host.Outcome State Fault Refusal :=
  .next (runSlot 7 (semNmSweepUnreg l a t s) s)

/-- TSPAWN in slot 7 (R278). -/
def execTspawn (l : BitVec 3) (t : BitVec 6) (a : BitVec 5) (s : State) : Host.Outcome State Fault Refusal :=
  .next (runSlot 7 (semTspawn l t a s) s)

/-- TJOIN in slot 7 (R280). -/
def execTjoin (l : BitVec 3) (a : BitVec 5) (s : State) : Host.Outcome State Fault Refusal :=
  .next (runSlot 7 (semTjoin l a s) s)

/-- GSTEP_ADV in slot 7 (R350). -/
def execGstepAdv (i : BitVec 12) (s : State) : Host.Outcome State Fault Refusal :=
  .next (runSlot 7 (semGstepAdv i s) s)

end Sys2Proof.Machine
end

