-- ==== Sys2Proof/Machine/Matrix.lean ====
section
/-! DEFINITION. The X slot's multiplying, weight, drain and zero commands (10), the literal stream (03 R89-R91), and the
results that the array forms. -/

namespace Sys2Proof.Machine

-- The literal stream.

/-- The literal word at MLP with the translations used (03 R91); an error in its bytes or in the tables is 0x21 (20 R405). -/
def litAt (s : State) : Except Flt (Nat × List Tlb) :=
  let t := s.me
  let a := t.mlp.toNat
  match s.linPieces (coreOf s.cur.g) t.part 1 false 2 a 4 with
  | .error va => .error ⟨if s.xlateBad (coreOf s.cur.g) t.part va then 0x21 else 0x02, 0, a⟩
  | .ok (ps, ts) => if (s.badAt 0 ps).isSome then .error ⟨0x21, 0, a⟩ else .ok (leNat (s.loadBelow ps), ts)

/-- A literal word behind a fabric window is asked of its peer first (21 R417). -/
def litAsk (s : State) : Option Bar :=
  match s.linPieces (coreOf s.cur.g) s.me.part 1 false 2 s.me.mlp.toNat 4 with
  | .ok (ps, _) => if s.asked s.cur.g s.me.mlp.toNat ps then none else some (.ask s.me.mlp.toNat ps)
  | .error _ => none

/-- The slot consumes its literal word (03 R89). -/
def advance (ts : List Tlb) (s : State) : State :=
  (keepTlbs ts (s.askOver s.cur.g s.me.mlp.toNat)).modMe (fun t => { t with mlp := BitVec.ofNat 64 ((t.mlp.toNat + 4) % 2 ^ 57) })

/-- OPT of a literal word (03 R90). -/
def litOpt (w : Nat) : Nat := bits w 27 0

/-- An X operation: its literal word, whose guard it takes (03 R71, R90), and the operation itself. A slot 6 that commits only
with its command consumes the word then (03 R89, 06 R135). -/
def xSem (s : State) (f : Nat → SlotSem) : SlotSem :=
  match litAt s with
  | .error e => { guard := false, literal := some e, dsts := (f 0).dsts }
  | .ok (w, ts) =>
    let m := f w
    if (litAsk s).isSome then { wait := litAsk s, dsts := m.dsts }
    else if s.me.rp (bits w 31 29) != bit w 28 then
      { m with post := fun s => m.post (if m.commits then advance ts s else keepTlbs ts (s.askOver s.cur.g s.me.mlp.toNat)) }
    else { guard := false, dsts := m.dsts, missed := advance ts }

-- Queues and pending results (10 R230, 12 R440).

/-- A matrix command. -/
def Cmd.isMatrix : Cmd → Bool
  | .matrix _ => true
  | _ => false

/-- Every landing-queue entry of the strand, the frozen context's among them. -/
def Strand.allLq (t : Strand) : List Landing :=
  t.ctx.lq ++ (match t.frozen with | some (x, _, _) => x.lq | none => [])

/-- Pending matrix results of a strand (12 R440). -/
def Strand.pendingResults (t : Strand) : Nat :=
  (t.allLq.filter (fun e => match e.what with
    | .result _ _ => true | .launch (.matrix x) => x.lat.isSome | _ => false)).length

/-- What an X command waits for (10 R230, 12 R440): a queue entry, then room for its result. The spec does not say which comes
first when both are wanting: DESIGN CHOICE, log 95. -/
def matrixBar (s : State) (result : Bool) : Option Bar :=
  let c := coreOf s.cur.g
  if 4 ≤ ((s.core c).mq.filter (fun x => !x.started)).length + s.waitingOn c Cmd.isMatrix then some (.block .matrixQueue)
  else if result && decide (4 ≤ s.me.pendingResults) then some .hold
  else none

-- Operands (10 R217, R218).

/-- A tile operand's format (10 R217). -/
def tileFmt (fc : Nat) : Bool := (fcDense fc || fcBlock fc) && decide (fcType fc ≤ 8)

/-- The unmapped-operand fault of the first name that resolves to no view. -/
def unmappedOf (t : Strand) (ns : List Nat) : Option Flt :=
  (ns.find? (fun n => (resolve t n).isNone)).map (fun n => t.unmapped n)

/-- An accumulator operand. -/
def accOperand (t : Strand) (n : Nat) : Except Flt Res :=
  match resolve t n with
  | none => .error (t.unmapped n)
  | some r => if vdKind r.d = 2 then .ok r else .error t.illegal

/-- A tile operand. -/
def tileOperand (t : Strand) (n : Nat) : Except Flt Res :=
  match resolve t n with
  | none => .error (t.unmapped n)
  | some r => if vdKind r.d = 1 ∧ tileFmt (vdFmt r.d) then .ok r else .error t.illegal

/-- The type of a format is an integer type. -/
def intType (fc : Nat) : Bool := fcType fc == 5 || fcType fc == 6

/-- Lists cut into pieces of `w`. -/
def chunks {α : Type} (w : Nat) : Nat → List α → List (List α)
  | 0, _ => []
  | n + 1, l => l.take w :: chunks w n (l.drop w)

/-- Rows and columns exchanged, for 64 columns. -/
def transpose64 {α : Type} (d : α) (m : List (List α)) : List (List α) :=
  (List.range 64).map (fun j => m.map (fun r => r.getD j d))

/-- The elements of a tile as FX36 values (10 R218). -/
def tileNums (efr : Nat) (fxd : Bool) (fc : Nat) (bs : List Byte) : List Num :=
  if fcDense fc then
    (unpackItems fc 4096 bs).map (denseVal efr (fcType fc))
  else
    let p := fcPer fc
    ((blocks64 (ceilDiv 4096 p) bs).flatMap (fun b =>
      if malformed p b then List.replicate p (Num.fin false 0 0)
      else (List.range p).map (fun k => roundFx fxd (blockElem efr b k)))).take 4096

/-- The elements of a tile as integers (10 R218). A block of a floating code within an integer container gives free values
(log 31), numbered from `free`. -/
def tileInts (efr free : Nat) (fc : Nat) (bs : List Byte) : List Int :=
  if fcDense fc then
    (unpackItems fc 4096 bs).map (fun c => narrowInt efr (fcWidth fc) c)
  else
    let p := fcPer fc
    (((blocks64 (ceilDiv 4096 p) bs).zip (List.range (ceilDiv 4096 p))).flatMap (fun (e : List Byte × Nat) =>
      let own := leNat (e.1.take 1)
      if malformed p e.1 then List.replicate p (0 : Int)
      else if intType own then
        (List.range p).map (fun k => narrowInt efr (fcWidth own) (elemAt (leNat (e.1.drop 4)) (fcWidth own) k))
      else (List.range p).map (fun k => (Config.free64 (free + p * e.2 + k)).toInt))).take 4096

/-- Malformed blocks of a tile (02 R50). -/
def badBlocks (fc : Nat) (bs : List Byte) : Nat :=
  if fcBlock fc then ((blocks64 (tileBytes fc / 64) bs).filter (malformed (fcPer fc))).length else 0

/-- Whether some well-formed block of an integer container holds floating elements. -/
def mixedBlocks (fc : Nat) (bs : List Byte) : Bool :=
  fcBlock fc && (blocks64 (tileBytes fc / 64) bs).any (fun b => !malformed (fcPer fc) b && !intType (leNat (b.take 1)))

/-- Cells of an accumulator as codes, row by row (02 R44). -/
def accCells (bs : List Byte) : List Nat :=
  (chunks 36 512 bs).flatMap (fun g => (List.range 8).map (elemAt (leNat g) 36))

/-- Cells as the bytes of an accumulator. -/
def accBytes (cs : List Nat) : List Byte :=
  (chunks 8 512 cs).flatMap (fun l => leBytes 36 (packBits 36 l))

/-- The code of an FX36 cell. -/
def cellCode (x : Num) : Nat := roundFloat .fx36 .rne false 0 x

/-- Groups of four products of a row and a column (02 R65). -/
def dotGroups {α : Type} (a b : List α) : List (List (α × α)) := chunks 4 16 (a.zip b)

/-- The groups of a row held in 2:4 form (10 R221): `w` is the row's metadata. -/
def sparseGroups {α : Type} (d : α) (w : Nat) (a b : List α) : List (List (α × α)) :=
  (List.range 16).map (fun g =>
    [(a.getD (2 * g) d, b.getD (4 * g + bits w (4 * g + 1) (4 * g)) d),
     (a.getD (2 * g + 1) d, b.getD (4 * g + bits w (4 * g + 3) (4 * g + 2)) d)])

/-- A product (10 R219, R221): cells as codes from the rows of A, the columns of B, the accumulator's cells, and the rows'
metadata when A is in 2:4 form. -/
def product {α : Type} (d : α) (dot : Nat → List (List (α × α)) → Nat) (sp : Option (List Nat)) (a b : List α)
    (acc : List Nat) : List Nat :=
  let cols := transpose64 d (chunks 64 64 b)
  (((chunks 64 64 a).zip (chunks 64 64 acc)).zip (List.range 64)).flatMap (fun e =>
    (cols.zip e.1.2).map (fun c =>
      dot c.2 (match sp with
        | none => dotGroups e.1.1 c.1
        | some ws => sparseGroups d (ws.getD e.2 0) e.1.1 c.1)))

/-- The cells that a multiplying command forms (10 R219). Its parameters are the formats of A and B, the mode (0 floating,
1 integer), whether A is in 2:4 form, the number of the first free value, the start of D, and the number of the command it
is chained to plus one; its data are A, B, the accumulator and the metadata. -/
def mulCells (x : XCmd) : List Nat :=
  let fa := x.par.getD 0 0
  let fb := x.par.getD 1 0
  let da := x.data.getD 0 []
  let db := x.data.getD 1 []
  let acc := accCells (x.data.getD 2 [])
  let sp := if x.par.getD 3 0 = 1 then some ((chunks 8 64 (x.data.getD 3 [])).map leNat) else none
  let free := x.par.getD 4 0
  if x.par.getD 2 0 = 1 then
    product (0 : Int) (fun c g => intCode 36 (dotInt (sInt 36 c) g)) sp (tileInts x.efr free fa da)
      (tileInts x.efr (free + 4096) fb db) acc
  else
    product (Num.fin false 0 0) (fun c g => cellCode (dotFx x.fxd (Fmt.fx36.decode c) g)) sp (tileNums x.efr x.fxd fa da)
      (tileNums x.efr x.fxd fb db) acc

-- Chaining (10 R220).

/-- The command's result has not landed: it waits for its start delay or for its count. -/
def Strand.notLanded (t : Strand) (id : Nat) : Bool :=
  t.allLq.any (fun e => match e.what with
    | .result i _ => i == id | .launch (.matrix x) => x.id == id | _ => false)

/-- The command that a new multiplying command into `addr` with a mode is chained to. -/
def chainOf (t : Strand) (addr mode : Nat) : Option Nat :=
  match t.pred with
  | some (id, m, a) => if m = mode ∧ a = addr ∧ t.notLanded id then some id else none
  | none => none

/-- The bytes of an accumulator in produced effects. -/
def effBytes : List Eff → List Byte
  | .urs _ bs :: _ => bs.map (fun o => match o with | some (_, b) => b | none => 0#8)
  | _ :: l => effBytes l
  | [] => []

/-- The produced result of a command of the strand, as cell bytes. -/
def State.producedBytes (s : State) (g id : Nat) : Option (List Byte) := (s.resultOf g id).map effBytes

/-- A chained command takes its predecessor's result. -/
def XCmd.chained (x : XCmd) (id : Nat) (bs : List Byte) : XCmd :=
  if x.par.getD 6 0 = id + 1 then { x with data := x.data.set 2 bs, par := x.par.set 6 0 } else x

/-- The result of command `id` handed to every command of the strand chained to it (10 R220). -/
def State.chainFill (s : State) (g id : Nat) (bs : List Byte) : State :=
  let inLq (l : List Landing) : List Landing := l.map (fun e =>
    match e.what with | .launch (.matrix x) => { e with what := .launch (.matrix (x.chained id bs)) } | _ => e)
  (s.modCore (coreOf g) (fun k => { k with mq := k.mq.map (fun x => if x.strand = g then x.chained id bs else x) })).modStrand
    g (fun t =>
      { t with ctx := { t.ctx with lq := inLq t.ctx.lq },
               frozen := t.frozen.map (fun f => ({ f.1 with lq := inLq f.1.lq }, f.2)) })

-- Launching.

/-- A matrix command of the strand in issue. -/
def mkX (s : State) (op : Nat) (par : List Nat) (data : List (List Byte)) (lat : Option Nat) (dst : List Dst) : XCmd :=
  { id := s.nid, strand := s.cur.g, addr := s.me.ctx.pc, op, par, data, efr := s.me.efr.toNat,
    fxd := s.fxd (coreOf s.cur.g), lat, dst, started := false,
    cls := if op = 6 then 1 else if op = 7 ∨ op = 8 then 3 else 0 }

/-- The most recent X command whose guard was true (10 R220). -/
def setPred (p : Nat × Nat × Nat) (s : State) : State := s.modMe (fun t => { t with pred := some p })

/-- Landing-queue entries of a command: its launch or its result, one entry in either case (03 R74, 10 R229). -/
def xEnts (l : Nat) (lat : Option Nat) : Nat := if l ≠ 0 ∨ lat.isSome then 1 else 0

/-- The frame of an X command. -/
def xCmd (l : Nat) (srcs dsts : List Dst) (lat : Option Nat) (mode addr : Nat) (evts : List (Nat × Nat))
    (bar : Option Bar) (mk : State → XCmd) : SlotSem :=
  { wait := bar, srcs, dsts, ents := xEnts l lat, evts,
    post := fun s =>
      let x := mk s
      launchE l (.matrix x) (setPred (x.id, mode, addr) (takeId s)) }

-- The multiplying commands (10 R216-R226).

/-- The latency of a multiplying command from the widths of its sources (10 R229). -/
def mulLat (sp : Bool) (fa fb : Nat) : Nat :=
  let w (f : Nat) : Nat := match fcType f with | 0 => 32 | 1 => 16 | 2 => 16 | 8 => 16 | _ => 8
  let m := max (w fa) (w fb)
  if sp then (if m = 32 then 144 else if m = 16 then 48 else 32)
  else if m = 32 then 272 else if m = 16 then 80 else 48

/-- The range and format of the B operand: a tile, or the weight reference (10 R217, R226). -/
def bOperand (t : Strand) (b : Option Nat) : Except Flt (Nat × Nat) :=
  match b with
  | some n => (tileOperand t n).map (fun r => (r.addr, vdFmt r.d))
  | none => match t.wref with
    | some r => .ok r
    | none => .error t.illegal

/-- The frame of a multiplying command once its A operand is known: `opA` its bytes (none while they are to come from a
vault), `fa` its format, `extra` what else it captures. -/
def mulSem (s : State) (op : Nat) (l : Nat) (b : Option Nat) (sp acc : Bool) (fa : Nat) (opA : List Byte) (srcA : List Dst)
    (md : List Byte) (srcM : List Dst) (extra : List Nat) (flt : Option Flt) (rd : Res) (bad : Nat) : SlotSem :=
  let t := s.me
  match bOperand t b with
  | .error e => { wait := matrixBar s true, fault := some e, dsts := [.urs rd.addr 18432] }
  | .ok (ba, fb) =>
    if intType fa != intType fb then 
      { wait := matrixBar s true, fault := some t.illegal, dsts := [.urs rd.addr 18432] }
    else
      let mode := if intType fa then 1 else 0
      let chain := if acc then chainOf t rd.addr mode else none
      let opB := t.ursRead ba (tileBytes fb)
      let lat := mulLat sp fa fb
      let accIn := match chain with
        | some id => (s.producedBytes s.cur.g id).getD []
        | none => if acc then t.ursRead rd.addr 18432 else List.replicate 18432 0#8
      let ready := match chain with | some id => (s.producedBytes s.cur.g id).isSome | none => true
      let dst := [Dst.urs rd.addr 18432]
      let mixed := mode == 1 && (mixedBlocks fa opA || mixedBlocks fb opB)
      let m := xCmd l (srcA ++ [.urs ba (tileBytes fb)] ++ srcM ++ (if acc && chain.isNone then dst else [])) dst (some lat) mode
        rd.addr [(0x19, bad + badBlocks fb opB)] (matrixBar s true)
        (fun s => { mkX s op
          ([fa, fb, mode, if sp then 1 else 0, s.fresh, rd.addr, if ready then 0 else (chain.map (· + 1)).getD 0] ++ extra)
          [opA, opB, accIn, md] (some lat) dst with
            cls := if b.isNone && !t.wstale then 0 else 1, reuse := b.isNone && !t.wstale })
      { m with
        fault := flt
        post := fun s =>
          let s0 := m.post s
          let s1 := if b.isNone then s0.modMe (fun t => { t with wstale := false }) else s0
          if mixed then { s1 with fresh := s1.fresh + 8192 } else s1 }

/-- `mmul`, `mmula` and `mmul.sp` (10 R219, R221). The whole A tile of `mmul.sp` counts as read, as 10 R217 resolves it, though
columns 32–63 go into no product: DESIGN CHOICE, log 78. -/
def semMatMul (op : Nat) (d a : BitVec 6) (b : Option Nat) (l : BitVec 3) (s : State) : SlotSem :=
  xSem s (fun w =>
    let t := s.me
    let sp := op == 3
    let opt := litOpt w
    let stop (e : Flt) : SlotSem := 
      { wait := matrixBar s true, fault := some e, dsts := okDst (accOperand t d.toNat) 18432 }
    match unmappedOf t ([d.toNat, a.toNat] ++ b.toList) with
    | some e => stop e
    | none =>
      match accOperand t d.toNat, tileOperand t a.toNat with
      | .ok rd, .ok ra =>
        if (if sp then decide (2 ^ 11 ≤ opt) || decide (1016 < opt % 1024) else opt != 0) then stop t.illegal
        else
          let fa := vdFmt ra.d
          let n := tileBytes fa
          let opA := t.ursRead ra.addr n
          mulSem s op l.toNat b sp (op == 2 || (sp && bit opt 10)) fa opA [.urs ra.addr n]
            (if sp then t.ursRead (64 * (opt % 1024)) 512 else []) (if sp then [.urs (64 * (opt % 1024)) 512] else []) [] none rd
            (badBlocks fa opA)
      | _, _ => stop t.illegal)

/-- `mmul` (10 R219). -/
def semMmul (d a b : BitVec 6) (l : BitVec 3) (s : State) : SlotSem := semMatMul 1 d a (some b.toNat) l s
/-- `mmul` with the preloaded weights (10 R219, R226). -/
def semMmulWt (d a : BitVec 6) (l : BitVec 3) (s : State) : SlotSem := semMatMul 1 d a none l s
/-- `mmula` (10 R219, R220). -/
def semMmula (d a b : BitVec 6) (l : BitVec 3) (s : State) : SlotSem := semMatMul 2 d a (some b.toNat) l s
/-- `mmula` with the preloaded weights. -/
def semMmulaWt (d a : BitVec 6) (l : BitVec 3) (s : State) : SlotSem := semMatMul 2 d a none l s
/-- `mmul.sp` (10 R221). -/
def semMmulSp (d a b : BitVec 6) (l : BitVec 3) (s : State) : SlotSem := semMatMul 3 d a (some b.toNat) l s
/-- `mmul.sp` with the preloaded weights. -/
def semMmulSpWt (d a : BitVec 6) (l : BitVec 3) (s : State) : SlotSem := semMatMul 3 d a none l s

-- Convolution (10 R222-R225).

/-- A convolution descriptor (10 R222). -/
structure Conv where
  base : Nat
  fc : Nat
  cp : Nat
  h : Nat
  w : Nat
  c : Nat
  oh : Nat
  ow : Nat
  kh : Nat
  kw : Nat
  sh : Nat
  sw : Nat
  dh : Nat
  dw : Nat
  pt : Nat
  pl : Nat
  q0 : Nat
  k0 : Nat
  padv : Nat
  deriving DecidableEq, Repr

/-- The fields of a descriptor. -/
def convOf (b : List Byte) : Conv where
  base := fieldAt b 0 8
  fc := fieldAt b 8 1
  cp := fieldAt b 10 2
  h := fieldAt b 12 2
  w := fieldAt b 14 2
  c := fieldAt b 16 2
  oh := fieldAt b 18 2
  ow := fieldAt b 20 2
  kh := fieldAt b 22 1
  kw := fieldAt b 23 1
  sh := fieldAt b 24 1
  sw := fieldAt b 25 1
  dh := fieldAt b 26 1
  dw := fieldAt b 27 1
  pt := fieldAt b 28 1
  pl := fieldAt b 29 1
  q0 := fieldAt b 32 4
  k0 := fieldAt b 36 4
  padv := fieldAt b 40 4

/-- A field outside its limit, or a byte that must be zero (10 R222); the alignment of ABASE has a cause of its own. -/
def convBad (b : List Byte) : Bool :=
  let v := convOf b
  !fcDense v.fc || decide (2 ^ 57 ≤ v.base) || fieldAt b 9 1 != 0 || decide (v.cp < v.c) ||
  [v.h, v.w, v.c, v.oh, v.ow, v.kh, v.kw, v.sh, v.sw, v.dh, v.dw].any (· == 0) || fieldAt b 30 2 != 0 ||
  decide (2 ^ fcWidth v.fc ≤ v.padv) || (b.drop 44).any (fun x => x != 0#8)

/-- Bytes of the activation span (10 R224). -/
def Conv.span (v : Conv) : Nat := ceilDiv (v.h * v.w * v.cp * fcWidth v.fc) 8

/-- Which element of the activation tensor stands at (i, k) of the virtual operand (10 R223): `none` is zero, an inner
`none` the padding. -/
def Conv.elem (v : Conv) (i k : Nat) : Option (Option Nat) :=
  let q := v.q0 + i
  let oy := q / v.ow
  let ox := q % v.ow
  let t := v.k0 + k
  let c := t % v.c
  let kx := t / v.c % v.kw
  let ky := t / (v.c * v.kw)
  if v.oh ≤ oy ∨ v.kh ≤ ky then none
  else
    let y := oy * v.sh + ky * v.dh
    let x := ox * v.sw + kx * v.dw
    if y < v.pt ∨ v.h + v.pt ≤ y ∨ x < v.pl ∨ v.w + v.pl ≤ x then some none
    else some (some (((y - v.pt) * v.w + (x - v.pl)) * v.cp + c))

/-- The virtual operand as a dense tile, read from the vault at key `key` (10 R223). -/
def State.convTile (s : State) (v : Conv) (key : Nat) : List Byte :=
  packItems v.fc ((List.range 4096).map (fun j =>
    match v.elem (j / 64) (j % 64) with
    | none => 0
    | some none => v.padv
    | some (some e) =>
      let b := e * fcWidth v.fc
      itemFrom v.fc b (s.memRead (key + b / 8) (itemBytes v.fc))))

/-- The checks of `mconv` and `mconva` after those of the operands (10 R224), with the vault key of the span. -/
def convFlt (s : State) (b : List Byte) : Except Flt Nat :=
  let t := s.me
  let v := convOf b
  if convBad b then .error t.illegal
  else if !inAperture v.base then .error ⟨0x06, 3, v.base⟩
  else match vaultAt (cluOf s.cur.g) v.base v.span with
    | none => .error ⟨0x06, 3, v.base⟩
    | some (u, o) =>
      if v.base % 64 ≠ 0 then .error ⟨0x07, 3, v.base⟩
      else
        let rs := vaultRanges t u 1
        match uncovered rs (rs.length + 1) o (o + v.span) with
        | some _ => .error ⟨0x20, 3, v.base⟩
        | none => .ok (vaultKey u o)

/-- `mconv` and `mconva` (10 R222-R225): the descriptor and the span's key travel with the command, whose A operand is
read when the array starts it. -/
def semConv (op : Nat) (d a : BitVec 6) (b : Option Nat) (l : BitVec 3) (s : State) : SlotSem :=
  xSem s (fun w =>
    let t := s.me
    let stop (e : Flt) : SlotSem := 
      { wait := matrixBar s true, fault := some e, dsts := okDst (accOperand t d.toNat) 18432 }
    match unmappedOf t ([d.toNat, a.toNat] ++ b.toList) with
    | some e => stop e
    | none =>
      match accOperand t d.toNat, resolve t a.toNat, bOperand t b with
      | .ok rd, some ra, .ok (_, fb) =>
        if litOpt w ≠ 0 then stop t.illegal
        else
          let desc := t.ursRead ra.addr 64
          let fa := (convOf desc).fc
          if fcDense fa && intType fa != intType fb then stop t.illegal
          else match convFlt s desc with
            | .error e => stop e
            | .ok key =>
              mulSem s op l.toNat b false (op == 5) fa [] [.urs ra.addr 64] desc [] [key] none rd 0
      | _, _, _ => stop t.illegal)

/-- `mconv` (10 R223). -/
def semMconv (d a b : BitVec 6) (l : BitVec 3) (s : State) : SlotSem := semConv 4 d a (some b.toNat) l s
/-- `mconv` with the preloaded weights. -/
def semMconvWt (d a : BitVec 6) (l : BitVec 3) (s : State) : SlotSem := semConv 4 d a none l s
/-- `mconva` (10 R223). -/
def semMconva (d a b : BitVec 6) (l : BitVec 3) (s : State) : SlotSem := semConv 5 d a (some b.toNat) l s
/-- `mconva` with the preloaded weights. -/
def semMconvaWt (d a : BitVec 6) (l : BitVec 3) (s : State) : SlotSem := semConv 5 d a none l s

-- Weights, draining, zeroing (10 R226-R228).

/-- `mwld` (10 R226): the weight reference takes effect at the completion of the bundle. -/
def semMwld (b : BitVec 6) (l : BitVec 3) (s : State) : SlotSem :=
  xSem s (fun w =>
    let t := s.me
    match tileOperand t b.toNat with
    | .error e => { wait := matrixBar s false, fault := some e }
    | .ok r =>
      let f := vdFmt r.d
      let m := xCmd l.toNat [.urs r.addr (tileBytes f)] [] none 2 0 [] (matrixBar s false) (fun s => mkX s 6 [] [] none [])
      { m with fault := if litOpt w ≠ 0 then some t.illegal else none, lands := [(1, .wref r.addr f)] })

/-- The rounding mode of a drain (10 R227). -/
def drainRm (t : Strand) (c : Nat) : Option Rm :=
  match c with
  | 0 => some t.rmode | 1 => some .rne | 2 => some .rtz | 3 => some .rup | 4 => some .rdn | 5 => some .rsto | _ => none

/-- The element that a cell gives (10 R227): `i` and `j` choose the lane bits under RSTO. -/
def drainCell (t : Strand) (fc : Nat) (rm : Rm) (scl : Int) (im : Bool) (i j c : Nat) : Nat :=
  let v := (if im then Num.ofInt (sInt 36 c) else Fmt.fx36.decode c).scale scl
  let sd := lfsrSteps (i / 4) (t.seed (64 * (i % 4) + j))
  let rb (kb : Nat) : Nat := if rm = .rsto then lfsrBits sd kb else 0
  match typeFmt (fcType fc) with
  | some f => roundFloat f rm t.e4s (rb f.kbits) v
  | none =>
    let w := fcWidth fc
    intCode w (roundInt w (if w = 8 then t.s8 else t.s4) rm (rb 8) v)

/-- `mdrain` and `mdrain.c` (10 R227). -/
def semMdrain (d a : BitVec 6) (l : BitVec 3) (z : BitVec 1) (s : State) : SlotSem :=
  xSem s (fun w =>
    let t := s.me
    let opt := litOpt w
    let own : List Dst := (match tileOperand t d.toNat with | .ok r => [Dst.urs r.addr (tileBytes (vdFmt r.d))] | .error _ => []) ++
      (if z = 1#1 then okDst (accOperand t a.toNat) 18432 else [])
    let stop (e : Flt) : SlotSem := { wait := matrixBar s true, fault := some e, dsts := own }
    match unmappedOf t [d.toNat, a.toNat] with
    | some e => stop e
    | none =>
      match tileOperand t d.toNat, accOperand t a.toNat, drainRm t (opt % 8) with
      | .ok rd, .ok ra, some rm =>
        let fc := vdFmt rd.d
        if !fcDense fc || decide (2 ^ 12 ≤ opt) then stop t.illegal
        else
          let n := 512 * fcWidth fc
          let cells := accCells (t.ursRead ra.addr 18432)
          let els := (cells.zip (List.range 4096)).map (fun (e : Nat × Nat) =>
            drainCell t fc rm (sInt 8 (bits opt 11 4)) (bit opt 3) (e.2 / 64) (e.2 % 64) e.1)
          let dst := [Dst.urs rd.addr n] ++ (if z = 1#1 then [Dst.urs ra.addr 18432] else [])
          let m := xCmd l.toNat [.urs ra.addr 18432] dst (some 24) 2 0 [] (matrixBar s true)
            (fun s => mkX s 7 [rd.addr, ra.addr, z.toNat] [packItems fc els] (some 24) dst)
          { m with post := fun s =>
              let s1 := m.post s
              if rm = .rsto then s1.modMe (fun t => t.reserve ((List.range 256).map (fun i => (i, 16)))) else s1 }
      | _, _, _ => stop t.illegal)

/-- `mzero` (10 R228). -/
def semMzero (d : BitVec 6) (l : BitVec 3) (s : State) : SlotSem :=
  xSem s (fun w =>
    let t := s.me
    match accOperand t d.toNat with
    | .error e => { wait := matrixBar s true, fault := some e }
    | .ok r =>
      let dst := [Dst.urs r.addr 18432]
      let m := xCmd l.toNat [] dst (some 4) 2 0 [] (matrixBar s true) (fun s => mkX s 8 [r.addr] [] (some 4) dst)
      { m with fault := if litOpt w ≠ 0 then some t.illegal else none })

/-- The effects of a multiplying, drain or zero command when it lands. Where D of `mdrain.c` overlaps its accumulator, all of D is
written before the accumulator is cleared, so the zeros stand: the text of 10 R227 has both written at the landing, while its
pseudocode clears cell by cell. DESIGN CHOICE, log 116. -/
def plainResult (x : XCmd) : List Eff :=
  let zero (a : Nat) : Eff := .urs a (wholeBytes (List.replicate 18432 0#8))
  match x.op with
  | 7 =>
    [.urs (x.par.getD 0 0) (wholeBytes (x.data.getD 0 []))] ++ (if x.par.getD 2 0 = 1 then [zero (x.par.getD 1 0)] else [])
  | 8 => [zero (x.par.getD 0 0)]
  | _ => [.urs (x.par.getD 5 0) (wholeBytes (accBytes (mulCells x)))]

/-- MMUL in slot 6 (R219). -/
def execMmul (d : BitVec 6) (a : BitVec 6) (b : BitVec 6) (l : BitVec 3) (s : State) : Host.Outcome State Fault Refusal :=
  .next (runSlot 6 (semMmul d a b l s) s)

/-- MMUL_WT in slot 6 (R219). -/
def execMmulWt (d : BitVec 6) (a : BitVec 6) (l : BitVec 3) (s : State) : Host.Outcome State Fault Refusal :=
  .next (runSlot 6 (semMmulWt d a l s) s)

/-- MMULA in slot 6 (R219). -/
def execMmula (d : BitVec 6) (a : BitVec 6) (b : BitVec 6) (l : BitVec 3) (s : State) : Host.Outcome State Fault Refusal :=
  .next (runSlot 6 (semMmula d a b l s) s)

/-- MMULA_WT in slot 6 (R219). -/
def execMmulaWt (d : BitVec 6) (a : BitVec 6) (l : BitVec 3) (s : State) : Host.Outcome State Fault Refusal :=
  .next (runSlot 6 (semMmulaWt d a l s) s)

/-- MMUL_SP in slot 6 (R221). -/
def execMmulSp (d : BitVec 6) (a : BitVec 6) (b : BitVec 6) (l : BitVec 3) (s : State) : Host.Outcome State Fault Refusal :=
  .next (runSlot 6 (semMmulSp d a b l s) s)

/-- MMUL_SP_WT in slot 6 (R221). -/
def execMmulSpWt (d : BitVec 6) (a : BitVec 6) (l : BitVec 3) (s : State) : Host.Outcome State Fault Refusal :=
  .next (runSlot 6 (semMmulSpWt d a l s) s)

/-- MCONV in slot 6 (R223). -/
def execMconv (d : BitVec 6) (a : BitVec 6) (b : BitVec 6) (l : BitVec 3) (s : State) : Host.Outcome State Fault Refusal :=
  .next (runSlot 6 (semMconv d a b l s) s)

/-- MCONV_WT in slot 6 (R223). -/
def execMconvWt (d : BitVec 6) (a : BitVec 6) (l : BitVec 3) (s : State) : Host.Outcome State Fault Refusal :=
  .next (runSlot 6 (semMconvWt d a l s) s)

/-- MCONVA in slot 6 (R223). -/
def execMconva (d : BitVec 6) (a : BitVec 6) (b : BitVec 6) (l : BitVec 3) (s : State) : Host.Outcome State Fault Refusal :=
  .next (runSlot 6 (semMconva d a b l s) s)

/-- MCONVA_WT in slot 6 (R223). -/
def execMconvaWt (d : BitVec 6) (a : BitVec 6) (l : BitVec 3) (s : State) : Host.Outcome State Fault Refusal :=
  .next (runSlot 6 (semMconvaWt d a l s) s)

/-- MWLD in slot 6 (R226). -/
def execMwld (b : BitVec 6) (l : BitVec 3) (s : State) : Host.Outcome State Fault Refusal :=
  .next (runSlot 6 (semMwld b l s) s)

/-- MDRAIN in slot 6 (R227). -/
def execMdrain (d : BitVec 6) (a : BitVec 6) (l : BitVec 3) (z : BitVec 1) (s : State) : Host.Outcome State Fault Refusal :=
  .next (runSlot 6 (semMdrain d a l z s) s)

/-- MZERO in slot 6 (R228). -/
def execMzero (d : BitVec 6) (l : BitVec 3) (s : State) : Host.Outcome State Fault Refusal :=
  .next (runSlot 6 (semMzero d l s) s)

end Sys2Proof.Machine
end

