-- ==== Sys2Proof/Machine/Factor.lean ====
section
/-! DEFINITION. The factorisation family of the X slot (11): elimination, Cholesky, triangular inverse and solve, QR by
plane rotations, pivots and resumption. A tile is held as 64 rows of 64 FX36 codes, so that a cell a command does not
compute keeps its bits. -/

namespace Sys2Proof.Machine

-- Tiles.

/-- A tile of FX36 codes. -/
abbrev Tile := List (List Nat)

/-- A cell's code. -/
def Tile.code (m : Tile) (i j : Nat) : Nat := (m.getD i []).getD j 0
/-- A cell's value. -/
def Tile.val (m : Tile) (i j : Nat) : Num := Fmt.fx36.decode (m.code i j)
/-- A tile with a cell's code replaced. -/
def Tile.put (m : Tile) (i j c : Nat) : Tile := m.set i ((m.getD i []).set j c)
/-- Two rows exchanged. -/
def Tile.swap (m : Tile) (i j : Nat) : Tile := (m.set i (m.getD j [])).set j (m.getD i [])
/-- A tile transposed. -/
def Tile.tr (m : Tile) : Tile := transpose64 0 m
/-- A tile from an accumulator's bytes. -/
def tileOf (bs : List Byte) : Tile := chunks 64 64 (accCells bs)
/-- The values of a tile that satisfy a test. -/
def Tile.vals (m : Tile) (p : Nat → Nat → Bool) : List Num :=
  (List.range 64).flatMap (fun i => (List.range 64).filterMap (fun j => if p i j then some (m.val i j) else none))

/-- A rounded value as a code, with FX36 fallback as 02 R58 gives. -/
def fxCode (fxd : Bool) (x : Num) : Nat := cellCode (roundFx fxd x)

/-- A family command in progress (11 R240-R242): the tile, the second operand, and the factor registers. `stop` is the
kind of a breakdown under the trap action. -/
structure Fam where
  fxd : Bool
  trap : Bool
  a : Tile
  q : Tile
  kind : Nat
  tfn : Nat
  ud : Bool
  anm : Nat
  den : Nat
  bkd : Nat
  bcol : Nat
  next : Nat
  gfr : Nat
  pvr : List Nat
  stop : Option Nat
  deriving DecidableEq, Repr

/-- Breakdown (11 R243): recorded, and under the trap action the command stops before the step. -/
def Fam.broken (f : Fam) (bk k : Nat) : Fam :=
  let f1 : Fam := if f.bkd = 0 then { f with bkd := bk, bcol := k } else f
  if f.trap then { f1 with next := k, stop := some bk } else f1

/-- MaxAbs (11 R242). -/
def maxAbs (l : List Num) : Num :=
  if l.any Num.isNan then .nan else l.foldl (fun m x => if m.lt x.abs then x.abs else m) (.fin false 0 0)

/-- Grow (11 R242); no active cell leaves GFR as it is. -/
def Fam.grow (f : Fam) (l : List Num) : Fam :=
  if l.isEmpty then f
  else
    let n := rne32 (Num.div (maxAbs l) (Fmt.fx36.decode f.den))
    let g := Fmt.fp32.decode n
    let old := Fmt.fp32.decode f.gfr
    if g.isNan || old.isNan then { f with gfr := Fmt.fp32.canonNan }
    else if old.lt g then { f with gfr := n } else f

/-- The active cells before step `k` (11 R242). -/
def Fam.active (f : Fam) (k : Nat) : List Num :=
  f.a.vals (fun i j => decide (k ≤ i) && decide (k ≤ j) && (f.kind != 2 || decide (j ≤ i)))

/-- The start of a factorisation (11 R242). -/
def Fam.start (f : Fam) : Fam :=
  let f1 : Fam := { f with den := cellCode (maxAbs (f.active 0)), gfr := 0 }
  f1.grow (f1.active 0)

/-- Indices after `k`. -/
def after (k : Nat) : List Nat := (List.range (63 - k)).map (fun i => k + 1 + i)

-- The steps.

/-- The pivot row of a column (11 R244, R245). -/
def pivotRow (a : Tile) (k : Nat) : Nat :=
  let c := ((List.range (64 - k)).map (· + k)).filter (fun i => !(a.val i k).isNan)
  match c with
  | [] => k
  | i :: l => l.foldl (fun b j => if (a.val b k).abs.lt (a.val j k).abs then j else b) i

/-- One row of the elimination below a pivot. -/
def mluRow (fxd : Bool) (k : Nat) (piv : Num) (pr r : List Nat) : List Nat :=
  let m := fxCode fxd (Num.div (Fmt.fx36.decode (r.getD k 0)) piv)
  let mv := Fmt.fx36.decode m
  (r.zip pr).zip (List.range 64) |>.map (fun e =>
    if e.2 < k then e.1.1
    else if e.2 = k then m
    else fxCode fxd (Num.sub false (Fmt.fx36.decode e.1.1) (Num.mul mv (Fmt.fx36.decode e.1.2))))

/-- MluStep (11 R244). -/
def mluStep (f : Fam) (k : Nat) : Fam :=
  let np := bit f.tfn 0
  let p := if np then k else pivotRow f.a k
  let n := if np then (f.a.val k k).isNan else ((List.range (64 - k)).any (fun i => (f.a.val (k + i) k).isNan))
  let piv := f.a.val p k
  let inf := match piv with | .inf _ => true | _ => false
  let f1 := if n || inf then f.broken 2 k else if piv.isZero then f.broken 1 k else f
  if f1.stop.isSome then f1
  else
    let f2 : Fam := { f1 with a := f1.a.swap k p, pvr := f1.pvr.set k p }
    if piv.isZero then f2
    else
      let pr := f2.a.getD k []
      let rows := f2.a.zip (List.range 64) |>.map (fun e => if e.2 ≤ k then e.1 else mluRow f.fxd k piv pr e.1)
      let f3 : Fam := { f2 with a := rows }
      f3.grow (f3.active (k + 1))

/-- CholStep (11 R246). -/
def cholStep (f : Fam) (k : Nat) : Fam :=
  let d := f.a.val k k
  let le := !(Num.fin false 0 0).lt d
  let f1 := if !d.isFin then f.broken 2 k else if le then f.broken 3 k else f
  if f1.stop.isSome || (d.isFin && le) then f1
  else
    let lc := fxCode f.fxd (Num.sqrt d)
    let l := Fmt.fx36.decode lc
    let a1 := (after k).foldl (fun (a : Tile) i => a.put i k (fxCode f.fxd (Num.div (a.val i k) l))) (f1.a.put k k lc)
    let rows := a1.zip (List.range 64) |>.map (fun e =>
      if e.2 ≤ k then e.1
      else (e.1.zip (List.range 64)).map (fun (c : Nat × Nat) =>
        if k < c.2 ∧ c.2 ≤ e.2 then
          fxCode f.fxd (Num.sub false (Fmt.fx36.decode c.1) (Num.mul (a1.val e.2 k) (a1.val c.2 k)))
        else c.1))
    let f2 : Fam := { f1 with a := rows }
    f2.grow (f2.active (k + 1))

/-- TriStep (11 R247) on the upper form; the tile is transposed for the lower one. -/
def triStep (f : Fam) (j : Nat) : Fam :=
  let d := f.a.val j j
  let f1 := if f.ud then f else if !d.isFin then f.broken 2 j else if d.isZero then f.broken 1 j else f
  if f1.stop.isSome then f1
  else
    let w := if f.ud then Num.fin false 1 0 else roundFx f.fxd (Num.div (.fin false 1 0) d)
    let v := (List.range j).map (fun k => f.a.val k j)
    let x (i k : Nat) : Num := if f.ud && i == k then .fin false 1 0 else f.a.val i k
    let col := (List.range j).map (fun i =>
      let t := (List.range (j - i)).foldl (fun t k =>
        roundFx f.fxd (Num.add false t (Num.mul (x i (i + k)) (v.getD (i + k) .nan)))) (Num.fin false 0 0)
      fxCode f.fxd (Num.mul w.neg t))
    let a1 := (col.zip (List.range 64)).foldl (fun (a : Tile) (e : Nat × Nat) => a.put e.2 j e.1) f.a
    { f1 with a := if f.ud then a1 else a1.put j j (cellCode w) }

/-- TrsStep (11 R248) on the left-side form: `f.q` holds E, `f.a` holds Z. -/
def trsStep (lower : Bool) (f : Fam) (k0 : Nat) : Fam :=
  let k := if lower then k0 else 63 - k0
  let d := f.q.val k k
  let f1 := if f.ud then f else if !d.isFin then f.broken 2 k0 else if d.isZero then f.broken 1 k0 else f
  if f1.stop.isSome then f1
  else
    let row := f.a.getD k []
    let zk := if f.ud then row else row.map (fun c => fxCode f.fxd (Num.div (Fmt.fx36.decode c) d))
    let rows := f.a.zip (List.range 64) |>.map (fun e =>
      if e.2 = k then zk
      else if (if lower then decide (k < e.2) else decide (e.2 < k)) then
        let m := f.q.val e.2 k
        (e.1.zip zk).map (fun c => fxCode f.fxd (Num.sub false (Fmt.fx36.decode c.1) (Num.mul m (Fmt.fx36.decode c.2))))
      else e.1)
    { f1 with a := rows }

/-- A plane rotation of two rows from column `k` on (11 R249): c·x + s·y and c·y − s·x. -/
def rotRows (fxd : Bool) (k : Nat) (c s : Num) (x y : List Nat) : List Nat × List Nat :=
  let go (f : Num → Num → Num) : List Nat := ((x.zip y).zip (List.range 64)).map (fun e =>
    fxCode fxd (f (Fmt.fx36.decode e.1.1) (Fmt.fx36.decode e.1.2)))
  let keep (old new : List Nat) : List Nat := old.take k ++ new.drop k
  (keep x (go (fun u v => Num.add false (Num.mul c u) (Num.mul s v))),
   keep y (go (fun u v => Num.sub false (Num.mul c v) (Num.mul s u))))

/-- One rotation of a column (11 R249); a value that is not finite gives the canonical NaN for `c` and `s`. -/
def qrRot (k : Nat) (f : Fam) (i : Nat) : Fam :=
  let x := f.a.val k k
  let y := f.a.val i k
  if y.isZero then f
  else
    let h := Num.sqrt (Num.add false (Num.mul x x) (Num.mul y y))
    let unit (v : Num) : Nat := if x.isFin && y.isFin then fxCode f.fxd (Num.div v h) else cellCode .nan
    let c := unit x
    let s := unit y
    let r := rotRows f.fxd (k + 1) (Fmt.fx36.decode c) (Fmt.fx36.decode s) (f.a.getD k []) (f.a.getD i [])
    let a1 : Tile := ((f.a.set k r.1).set i r.2 : List (List Nat))
    { f with a := (a1.put k k (fxCode f.fxd h)).put i k 0, q := (f.q.put i k c).put k i s }

/-- QrStep (11 R249). -/
def qrStep (f : Fam) (k : Nat) : Fam :=
  let bad := (List.range (64 - k)).any (fun i => !(f.a.val (k + i) k).isFin)
  let f1 := if bad then f.broken 2 k else f
  if f1.stop.isSome then f1
  else
    let f2 := (after k).foldl (qrRot k) f1
    f2.grow (f2.active (k + 1))

/-- The steps of a list, until one stops; the last leaves NEXT at 64. -/
def famSteps (step : Fam → Nat → Fam) : List Nat → Fam → Fam
  | [], f => { f with next := 64 }
  | k :: l, f =>
    let f1 := step f k
    if f1.stop.isSome then f1 else famSteps step l f1

/-- E of a solve is the transpose of T (11 R248). -/
def Fam.turned (f : Fam) : Bool := bit f.tfn 2 != bit f.tfn 0
/-- E of a solve is read as lower triangular (11 R248). -/
def Fam.lower (f : Fam) : Bool := !(bit f.tfn 1 != f.turned)
/-- The step of a solve that takes row `k` (11 R248). -/
def Fam.rowStep (f : Fam) (k : Nat) : Nat := if f.lower then k else 63 - k

/-- Steps NEXT to 63 of the command's kind. -/
def Fam.run (f : Fam) : Fam :=
  let ks := (List.range (64 - f.next)).map (· + f.next)
  match f.kind with
  | 1 => famSteps mluStep ks f
  | 2 => famSteps cholStep ks f
  | 3 => famSteps qrStep ks f
  | 4 =>
    if bit f.tfn 1 then famSteps triStep ks f
    else
      let r := famSteps triStep ks { f with a := f.a.tr }
      { r with a := r.a.tr }
  | _ =>
    let r := bit f.tfn 0
    let f1 : Fam := { f with a := if r then f.a.tr else f.a, q := if f.turned then f.q.tr else f.q }
    let f2 := famSteps (trsStep f.lower) ks f1
    { f2 with a := if r then f2.a.tr else f2.a, q := f.q }

/-- The rotation record of the identity (11 R249). -/
def rotStart : Tile :=
  (List.range 64).map (fun i => (List.range 64).map (fun j => if j < i then 127 * 2 ^ 27 else 0))

/-- Pairs (k, i) in the order of `mqr` (11 R250). -/
def rotPairs : List (Nat × Nat) := (List.range 63).flatMap (fun k => (after k).map (fun i => (k, i)))

/-- `mqapply` on a tile (11 R250). -/
def applyRots (fxd tr : Bool) (q a : Tile) : Tile :=
  (if tr then rotPairs else rotPairs.reverse).foldl (fun (a : Tile) (e : Nat × Nat) =>
    let c := q.val e.2 e.1
    let s := q.val e.1 e.2
    if Num.eqv c (.fin false 1 0) && s.isZero then a
    else
      let r := rotRows fxd 0 c (if tr then s else s.neg) (a.getD e.1 []) (a.getD e.2 [])
      ((a.set e.1 r.1).set e.2 r.2 : List (List Nat))) a

/-- `mperm` on a tile (11 R251). -/
def applyPerm (inv : Bool) (pvr : List Nat) (a : Tile) : Tile :=
  let ks := List.range 64
  (if inv then ks.reverse else ks).foldl (fun (a : Tile) k => a.swap k (pvr.getD k 0 % 64)) a

-- The factor registers.

/-- FSR (11 R240). -/
def Fam.fsr (f : Fam) : W64 :=
  BitVec.ofNat 64 (f.den * 2 ^ 28 + f.kind * 2 ^ 25 + f.next * 2 ^ 18 + f.bkd * 2 ^ 16 + f.bcol * 2 ^ 10 + f.tfn * 2 ^ 7 +
    (if f.ud then 64 else 0) + f.anm)

/-- The pivot vector's entries (11 R241). -/
def pvrEntries (l : List Nat) : List Nat := l.flatMap (fun w => (List.range 8).map (elemAt w 8))

/-- The pivot vector as registers. -/
def pvrEffs (l : List Nat) : List Eff :=
  ((chunks 8 8 l).zip (List.range 8)).map (fun e => .sys (8 + e.2) (BitVec.ofNat 64 (packBits 8 e.1)))

-- Commands.

/-- Parameters of a family command: start of D and of the second operand, NP, UP or FN, UD, ANM, whether the trap action is
selected, FSR, GFR and PVR as read at issue, then the start of the right-hand side of `mtrs`. -/
def famPar (t : Strand) (d q tfn : Nat) (ud : Bool) (anm : Nat) (trap : Bool) (b : List Nat) : List Nat :=
  [d, q, tfn, if ud then 1 else 0, anm, if trap then 1 else 0, t.fsr.toNat, t.gfr.toNat] ++
    (List.range 8).map (fun i => (SMap.get 0#64 t.pvr i).toNat) ++ b

/-- The cells of a tile at `d` that hold one of the `n` bytes at `a`, as the first and the one after the last. -/
def cellsHit (a n d : Nat) : Nat × Nat := ((max a d - d) * 8 / 36, ((min (a + n) (d + 18432) - d) * 8 + 35) / 36)

/-- A free value as an FX36 code. -/
def freeCell (n : Nat) : Nat := (Config.free64 n).toNat % 2 ^ 36

/-- A tile whose cells at `d` copies have written, each such cell a free value (11 R255): table `z` of eight for each copy. -/
def spoilTile (x : XCmd) (z d : Nat) (m : Tile) : Tile :=
  x.taint.foldl (fun (m : Tile) e =>
    if rangesMeet d 18432 e.1 e.2.1 then
      let r := cellsHit e.1 e.2.1 d
      (List.range (r.2 - r.1)).foldl (fun (m : Tile) i =>
        m.put ((r.1 + i) / 64) ((r.1 + i) % 64) (freeCell (e.2.2 + 4096 * z + r.1 + i))) m
    else m) m

/-- The command as captured: data are D, the second operand, and the right-hand side of `mtrs`. Cells that copies have written
since its issue are free values, and so is what the command makes of them (11 R255). -/
def XCmd.fam (x : XCmd) : Fam :=
  let p (i : Nat) : Nat := x.par.getD i 0
  let fsr := p 6
  let d := spoilTile x 0 (p 0) (tileOf (x.data.getD 0 []))
  let q := spoilTile x 1 (p 1) (tileOf (x.data.getD 1 []))
  let kind : Nat := match x.op with | 9 => 1 | 10 => 2 | 13 => 3 | 11 => 4 | 12 => 5 | _ => bits fsr 27 25
  let old := pvrEntries ((List.range 8).map (fun i => p (8 + i)))
  if x.op = 16 then
    { fxd := x.fxd, trap := p 5 == 1, a := d, q := q, kind := kind, tfn := bits fsr 9 7, ud := bit fsr 6, anm := bits fsr 5 0,
      den := bits fsr 63 28, bkd := bits fsr 17 16, bcol := bits fsr 15 10, next := bits fsr 24 18, gfr := p 7, pvr := old,
      stop := none }
  else
    { fxd := x.fxd, trap := p 5 == 1, a := if x.op = 12 then spoilTile x 0 (p 0) (spoilTile x 2 (p 16) (tileOf (x.data.getD 2 []))) else d,
      q := if x.op = 13 then rotStart else q, kind := kind, tfn := p 2, ud := p 3 == 1, anm := p 4, den := 0, bkd := 0,
      bcol := 0, next := 0, gfr := p 7, pvr := if x.op = 9 then List.range 64 else old, stop := none }

/-- The cells of the tile at `d` that copies have written since the command's issue. -/
def XCmd.hitCells (x : XCmd) (d : Nat) : List Nat :=
  x.taint.flatMap (fun e =>
    if rangesMeet d 18432 e.1 e.2.1 then
      let r := cellsHit e.1 e.2.1 d
      (List.range (r.2 - r.1)).map (r.1 + ·)
    else [])

/-- The first step whose work outside a cell's own column (kinds 1 and 3), or outside the cell (kinds 2 and 4), rests on cell `c` of
D; none where the run does not read the cell (11 R244, R246, R247, R249). -/
def Fam.usesA (f : Fam) (c : Nat) : Option Nat :=
  let i := c / 64
  let j := c % 64
  match f.kind with
  | 1 | 3 => if f.next ≤ i ∧ f.next ≤ j then some j else none
  | 2 => if f.next ≤ j ∧ j ≤ i then some j else none
  | 4 =>
    let up := bit f.tfn 1
    if (if up then i < j else j < i) ∨ (i = j ∧ f.ud = false) then some (max f.next (if up then j else i)) else none
  | _ => none

/-- The step of a solve that reads cell `c` of T; none where it is outside the triangle or its step is done (11 R248). -/
def Fam.usesQ (f : Fam) (c : Nat) : Option Nat :=
  let i := if f.turned then c % 64 else c / 64
  let k := if f.turned then c / 64 else c % 64
  if f.kind = 5 ∧ f.next ≤ f.rowStep k ∧ ((if f.lower then k < i else i < k) ∨ (i = k ∧ f.ud = false)) then some (f.rowStep k)
  else none

/-- The cells of D, and of the right-hand side that `mtrs` copies into it, that copies have written. -/
def XCmd.hitD (x : XCmd) : List Nat :=
  x.hitCells (x.par.getD 0 0) ++ (if x.op = 12 then x.hitCells (x.par.getD 16 0) else [])

/-- The first step that rests on a cell which copies have written, 64 for none: what the steps before it decide is defined
(11 R255). -/
def XCmd.firstHit (x : XCmd) (f : Fam) : Nat :=
  (x.hitD.filterMap f.usesA ++ (x.hitCells (x.par.getD 1 0)).filterMap f.usesQ).foldl min 64

/-- The run as the pseudocode gives it, on operands whose written cells are free values (11 R242, R252). -/
def XCmd.rawRun (x : XCmd) : Fam :=
  let f := x.fam
  if 4 ≤ f.kind then f.run
  else if x.op = 16 then (f.grow (f.active f.next)).run
  else f.start.run

/-- The run broke down under the trap action before any step that rests on a written cell. -/
def Fam.early (r : Fam) (c0 : Nat) : Bool := r.stop.isSome && decide (r.next < c0)

/-- Cell (i, j) of the result is derived from a cell that copies have written: `f` is the command as captured, `r` its run and `c0`
its first step that rests on one (11 R255). Every other cell is what the steps make of cells that no copy wrote. -/
def XCmd.derives (x : XCmd) (f r : Fam) (c0 i j : Nat) : Bool :=
  let col := x.hitD.any (fun c => decide (c % 64 = j) && (f.usesA c).isSome)
  let early := r.early c0
  match f.kind with
  | 1 => decide (f.next ≤ i) && (if early then col else col || !(decide (i < c0) || (bit f.tfn 0 && decide (j < c0))))
  | 3 => decide (f.next ≤ i) && (if early then col else decide (c0 ≤ j) && (col || decide (c0 ≤ i)))
  | 2 => !early && decide (c0 ≤ j)
  | 4 => !early && decide (c0 ≤ if bit f.tfn 1 then j else i)
  | _ =>
    let right := bit f.tfn 0
    let k := f.rowStep (if right then j else i)
    (!early && decide (c0 ≤ k)) || x.hitD.any (fun c =>
      let h := f.rowStep (if right then c % 64 else c / 64)
      decide ((if right then c / 64 else c % 64) = if right then i else j) && decide (f.next ≤ h) && decide (h ≤ k) &&
        (!early || decide (h < r.next)))

/-- The cells of a tile that `mqapply` derives from written ones, after each pair in turn: a pair whose record was written makes both
rows so, a pair that turns nothing changes none, and any other mixes its two rows (11 R250, R255). -/
def XCmd.spread (x : XCmd) (f : Fam) : List (List Bool) :=
  let hq := x.hitCells (x.par.getD 1 0)
  let hd := x.hitCells (x.par.getD 0 0)
  let m0 := (List.range 64).map (fun i => (List.range 64).map (fun j => hd.contains (64 * i + j)))
  (if x.par.getD 2 0 == 1 then rotPairs else rotPairs.reverse).foldl (fun (m : List (List Bool)) (e : Nat × Nat) =>
    if hq.contains (64 * e.1 + e.2) || hq.contains (64 * e.2 + e.1) then
      (m.set e.1 (List.replicate 64 true)).set e.2 (List.replicate 64 true)
    else if Num.eqv (f.q.val e.2 e.1) (.fin false 1 0) && (f.q.val e.1 e.2).isZero then m
    else
      let r := ((m.getD e.1 []).zip (m.getD e.2 [])).map (fun b => b.1 || b.2)
      (m.set e.1 r).set e.2 r) m0

/-- The number from which a command's free values run: tables of 4096, as its first copy has reserved them. -/
def XCmd.freeBase (x : XCmd) (z : Nat) : Nat := ((x.taint.head?.map (fun e => e.2.2)).getD 0) + 4096 * z

/-- A tile with the cells that satisfy `p` free values, of table `z` (11 R255). -/
def XCmd.freed (x : XCmd) (z : Nat) (p : Nat → Nat → Bool) (m : Tile) : Tile :=
  if x.taint.isEmpty then m
  else (List.range 64).map (fun i => (List.range 64).map (fun j =>
    if p i j then freeCell (x.freeBase z + 64 * i + j) else m.code i j))

/-- A run with the registers and the breakdown that rest on written cells as free values (11 R255). Defined are: what the steps before
the first such one record; DEN of kinds 4 and 5, and what `mres` keeps; NEXT under the continue action, which always reaches 64; and
what the kind does not write. -/
def Fam.loosen (r : Fam) (f : Fam) (resumed : Bool) (c0 k : Nat) : Fam :=
  let n (i : Nat) : Nat := (Config.free64 (k + i)).toNat
  let early := r.early c0
  let grows := decide (f.kind ≤ 3) && decide (c0 < 64)
  let r1 : Fam := { r with den := if grows && !resumed then n 0 % 2 ^ 36 else r.den, gfr := if grows then n 4 % 2 ^ 32 else r.gfr }
  if early || decide (64 ≤ c0) then r1
  else
    let known := f.bkd != 0 || (r.bkd != 0 && decide (r.bcol < c0))
    { r1 with
      bkd := if known then r.bkd else n 1 % 4
      bcol := if known then r.bcol else n 2 % 64
      next := if f.trap then n 3 % 65 else r.next
      pvr := (List.range 64).map (fun i => if c0 ≤ i ∧ f.kind = 1 then n (8 + i) % 64 else r.pvr.getD i 0)
      stop := if f.trap && bit (n 5) 0 then some (1 + n 6 % 3) else none }

/-- The outcome of a stepwise command (11 R242, R252, R255). -/
def XCmd.famRun (x : XCmd) : Fam :=
  if x.taint.isEmpty then x.rawRun
  else x.rawRun.loosen x.fam (x.op == 16) (x.firstHit x.fam) (x.freeBase 7)

/-- The command breaks down under the trap action. -/
def XCmd.breaks (x : XCmd) : Option Nat := if x.op = 14 ∨ x.op = 15 then none else x.famRun.stop

/-- Cells as a URS effect, with the bits of cells that are not destinations left as they stand. -/
def cellEff (addr : Nat) (p : Nat → Nat → Bool) (m : Tile) : Eff :=
  let ms := (List.range 64).flatMap (fun i => (List.range 64).map (fun j => if p i j then 2 ^ 36 - 1 else 0))
  .urs addr (((accBytes ms).zip (accBytes m.flatten)).map some)

/-- The cells that a kind of command may write (11 R244-R249). -/
def famCells (f : Fam) (i j : Nat) : Bool :=
  match f.kind with
  | 2 => decide (j ≤ i)
  | 4 => (if bit f.tfn 1 then decide (i < j) else decide (j < i)) || (i == j && !f.ud)
  | _ => true

/-- The effects of a family command (11 R239-R242). A cell of D that a copy has written since the issue is a free value, and so is
every result derived from one (11 R255). -/
def famEffs (x : XCmd) : List Eff :=
  let d := x.par.getD 0 0
  let q := x.par.getD 1 0
  let f := x.fam
  let hit := x.hitCells d
  let out (p : Nat → Nat → Bool) (m : Tile) : Eff := cellEff d (fun i j => p i j || hit.contains (64 * i + j)) (spoilTile x 3 d m)
  match x.op with
  | 14 =>
    let m := applyRots x.fxd (x.par.getD 2 0 == 1) f.q f.a
    [out (fun _ _ => true) (if x.taint.isEmpty then m else
      let b := x.spread f
      x.freed 5 (fun i j => (b.getD i []).getD j false) m)]
  | 15 => [out (fun _ _ => true) (applyPerm (x.par.getD 2 0 == 1) f.pvr f.a)]
  | _ =>
    let r := x.rawRun
    let c0 := x.firstHit f
    let o := x.famRun
    [out (famCells f) (x.freed 5 (x.derives f r c0) r.a)] ++
    (if f.kind = 3 then [cellEff q (fun _ _ => true)
      (spoilTile x 4 q (x.freed 6 (fun i j => !r.early c0 && decide (c0 ≤ min i j) && i != j) r.q))] else []) ++
    [.sys 6 o.fsr] ++ (if f.kind = 1 then pvrEffs o.pvr else []) ++
    (if f.kind ≤ 3 then [.sys 7 (BitVec.ofNat 64 o.gfr)] else [])

/-- The step cost of a kind (11 R254). -/
def stepCost (k : Nat) : Nat := match k with | 1 => 7 | 2 => 6 | 3 => 64 | 4 => 5 | _ => 4

/-- The literal of a family command (11 R236): `own` is what its options may be. -/
def famLit (t : Strand) (w own : Nat) (baOnly0 : Bool) (l : BitVec 3) : Option Flt :=
  let opt := litOpt w
  let ba := opt % 4
  if opt / 4 &&& own ≠ opt / 4 ∨ 2 ≤ ba ∨ (baOnly0 ∧ ba ≠ 0) ∨ (l ≠ 0#3 ∧ ba = 0) then some t.illegal else none

/-- A matrix command whose result lands; a `mwld` has none (10 R229). -/
def Cmd.lands : Cmd → Bool
  | .matrix x => x.lat.isSome
  | _ => false

/-- What a family command waits for (11 R238, 12 R260): the results of the strand's earlier matrix commands, then a queue
entry. `mres` first blocks while one is in the array (11 R252). Results in the landing queue that a trap has frozen are not waited
for: DESIGN CHOICE, log 74. -/
def famBar (s : State) (phase1 result : Bool) : Option Bar :=
  let t := s.me
  if phase1 && s.inArray s.cur.g then some (.block .factor)
  else if t.resultDue || t.waiting Cmd.lands then some .hold
  else matrixBar s result

/-- Bytes of an accumulator operand. -/
def Strand.accAt (t : Strand) (r : Res) : List Byte := t.ursRead r.addr 18432

/-- The factor registers that a command reads at issue. -/
def famSrcs : List Dst := (List.range 10).map (fun i => .sr (6 + i))

/-- The factor registers that a family command writes (11 R240-R242): `kind` is the recorded kind for `mres`. -/
def famRegs (op kind : Nat) : List Dst :=
  let pvr : List Dst := (List.range 8).map (fun i => .sr (8 + i))
  match op with
  | 9 => .sr 6 :: .sr 7 :: pvr
  | 10 => [.sr 6, .sr 7]
  | 11 => [.sr 6]
  | 12 => [.sr 6]
  | 13 => [.sr 6, .sr 7]
  | 16 => .sr 6 :: (if 1 ≤ kind ∧ kind ≤ 3 then [.sr 7] else []) ++ (if kind = 1 then pvr else [])
  | _ => []

/-- The kind that FSR records (11 R240). -/
def Strand.famKind (t : Strand) : Nat := bits t.fsr.toNat 27 25

/-- A family command from its resolved operands: `q` the second operand, `b` the right-hand side of `mtrs`, `wq` whether
the record is written. -/
def famSem (s : State) (op l w tfn : Nat) (ud : Bool) (anm lat : Nat) (d : Res) (q b : Option Res) (wq : Bool)
    (bar : Option Bar) (flt : Option Flt) : SlotSem :=
  let t := s.me
  let trap := litOpt w % 4 == 0
  let opQ := (q.map t.accAt).getD []
  let opB := (b.map t.accAt).getD []
  let opD := if op = 12 then opB else t.accAt d
  let lat? := if trap then none else some lat
  let range (r : Res) : Dst := .urs r.addr 18432
  let dst := [range d] ++ (if wq then (q.map range).toList else []) ++ famRegs op t.famKind
  let srcs := (if op = 12 then [] else [range d]) ++ (if op = 13 then [] else (q.map range).toList) ++ (b.map range).toList
  let m := xCmd l (srcs ++ famSrcs) dst lat? 2 0 [] bar
    (fun s => mkX s op (famPar t d.addr ((q.map Res.addr).getD 0) tfn ud anm trap (b.map Res.addr).toList) [opD, opQ, opB] lat? dst)
  { m with
    fault := flt
    commits := !trap
    post := fun s => let s1 := m.post s; if trap then s1.leave s.cur.g .blocked .family else s1 }

/-- A command on one tile. -/
def semFam1 (op own : Nat) (baOnly0 : Bool) (opts : Nat → Nat × Bool) (lat : Nat) (d : BitVec 6) (l : BitVec 3) (s : State) :
    SlotSem :=
  xSem s (fun w =>
    let bar := famBar s false (litOpt w % 4 != 0)
    match accOperand s.me d.toNat with
    | .error e => { wait := bar, fault := some e, dsts := famRegs op 0 }
    | .ok r => famSem s op l.toNat w (opts w).1 (opts w).2 0 lat r none none false bar (famLit s.me w own baOnly0 l))

/-- `mlu` (11 R244): NP of the literal is TFN bit 0. -/
def semMlu (d : BitVec 6) (l : BitVec 3) (s : State) : SlotSem :=
  semFam1 9 4 false (fun w => (if bit w 4 then 1 else 0, false)) 448 d l s
/-- `mchol` (11 R246). -/
def semMchol (d : BitVec 6) (l : BitVec 3) (s : State) : SlotSem := semFam1 10 0 false (fun _ => (0, false)) 384 d l s
/-- `mtri` (11 R247): UP of the literal is TFN bit 1. -/
def semMtri (d : BitVec 6) (l : BitVec 3) (s : State) : SlotSem :=
  semFam1 11 3 false (fun w => (if bit w 3 then 2 else 0, bit w 2)) 320 d l s
/-- `mperm` (11 R251). -/
def semMperm (d : BitVec 6) (l : BitVec 3) (i : BitVec 1) (s : State) : SlotSem :=
  semFam1 15 0 true (fun _ => (i.toNat, false)) 0 d l s

/-- Ranges of two accumulators overlap. -/
def accMeet (a b : Res) : Bool := rangesMeet a.addr 18432 b.addr 18432

/-- `mtrs` (11 R248). -/
def semMtrs (d a b : BitVec 6) (l : BitVec 3) (f : BitVec 3) (s : State) : SlotSem :=
  xSem s (fun w =>
    let t := s.me
    let bar := famBar s false (litOpt w % 4 != 0)
    match unmappedOf t [d.toNat, a.toNat, b.toNat] with
    | some e => { wait := bar, fault := some e, dsts := okDst (accOperand t d.toNat) 18432 ++ famRegs 12 0 }
    | none =>
      match accOperand t d.toNat, accOperand t a.toNat, accOperand t b.toNat with
      | .ok rd, .ok ra, .ok rb =>
        let bad := accMeet rd ra || (accMeet rd rb && rd.addr != rb.addr)
        famSem s 12 l.toNat w f.toNat (bit w 2) a.toNat 256 rd (some ra) (some rb) false bar
          (if bad then some t.illegal else famLit t w 1 false l)
      | x, _, _ => { wait := bar, fault := some t.illegal, dsts := okDst x 18432 ++ famRegs 12 0 })

/-- `mqr` and `mqapply`, whose second operand is the rotation record. -/
def semRot2 (op : Nat) (baOnly0 : Bool) (tfn lat : Nat) (d q : BitVec 6) (l : BitVec 3) (s : State) : SlotSem :=
  xSem s (fun w =>
    let t := s.me
    let bar := famBar s false (litOpt w % 4 != 0)
    let own := okDst (accOperand t d.toNat) 18432 ++ (if op = 13 then okDst (accOperand t q.toNat) 18432 else []) ++
      famRegs op 0
    match unmappedOf t [d.toNat, q.toNat] with
    | some e => { wait := bar, fault := some e, dsts := own }
    | none =>
      match accOperand t d.toNat, accOperand t q.toNat with
      | .ok rd, .ok rq =>
        famSem s op l.toNat w tfn false (if op = 13 then q.toNat else 0) lat rd (some rq) none (op == 13) bar
          (if accMeet rd rq then some t.illegal else famLit t w 0 baOnly0 l)
      | _, _ => { wait := bar, fault := some t.illegal, dsts := own })

/-- `mqr` (11 R249). -/
def semMqr (d b : BitVec 6) (l : BitVec 3) (s : State) : SlotSem := semRot2 13 false 0 4096 d b l s
/-- `mqapply` (11 R250). -/
def semMqapply (d a : BitVec 6) (l : BitVec 3) (t : BitVec 1) (s : State) : SlotSem := semRot2 14 true t.toNat 0 d a l s

/-- `mres` (11 R252). -/
def semMres (d : BitVec 6) (l : BitVec 3) (s : State) : SlotSem :=
  xSem s (fun w =>
    let t := s.me
    let bar := famBar s true (litOpt w % 4 != 0)
    let fsr := t.fsr.toNat
    let kind := t.famKind
    let anm := bits fsr 5 0
    let second := kind == 3 || kind == 5
    let own := okDst (accOperand t d.toNat) 18432 ++
      (if kind = 3 then okDst (accOperand t anm) 18432 else []) ++ famRegs 16 kind
    let stop (e : Flt) : SlotSem := { wait := bar, srcs := famSrcs, fault := some e, dsts := own }
    match unmappedOf t (d.toNat :: (if second then [anm] else [])) with
    | some e => stop e
    | none =>
      match accOperand t d.toNat with
      | .error e => stop e
      | .ok rd =>
        let lat := 8 + stepCost kind * (64 - bits fsr 24 18)
        if kind = 0 ∨ 6 ≤ kind ∨ 64 ≤ bits fsr 24 18 then stop t.illegal
        else if second then
          match accOperand t anm with
          | .error e => stop e
          | .ok rq =>
            famSem s 16 l.toNat w 0 false anm lat rd (some rq) none (kind == 3) bar
              (if accMeet rd rq then some t.illegal else famLit t w 0 false l)
        else famSem s 16 l.toNat w 0 false anm lat rd none none false bar (famLit t w 0 false l))

/-- What a matrix command's result writes. -/
def xEffs (x : XCmd) : List Eff := if x.op ≤ 8 then plainResult x else famEffs x

/-- MLU in slot 6 (R244). -/
def execMlu (d : BitVec 6) (l : BitVec 3) (s : State) : Host.Outcome State Fault Refusal :=
  .next (runSlot 6 (semMlu d l s) s)

/-- MCHOL in slot 6 (R246). -/
def execMchol (d : BitVec 6) (l : BitVec 3) (s : State) : Host.Outcome State Fault Refusal :=
  .next (runSlot 6 (semMchol d l s) s)

/-- MTRI in slot 6 (R247). -/
def execMtri (d : BitVec 6) (l : BitVec 3) (s : State) : Host.Outcome State Fault Refusal :=
  .next (runSlot 6 (semMtri d l s) s)

/-- MTRS in slot 6 (R248). -/
def execMtrs (d : BitVec 6) (a : BitVec 6) (b : BitVec 6) (l : BitVec 3) (f : BitVec 3) (s : State) : Host.Outcome State Fault Refusal :=
  .next (runSlot 6 (semMtrs d a b l f s) s)

/-- MQR in slot 6 (R249). -/
def execMqr (d : BitVec 6) (b : BitVec 6) (l : BitVec 3) (s : State) : Host.Outcome State Fault Refusal :=
  .next (runSlot 6 (semMqr d b l s) s)

/-- MQAPPLY in slot 6 (R250). -/
def execMqapply (d : BitVec 6) (a : BitVec 6) (l : BitVec 3) (t : BitVec 1) (s : State) : Host.Outcome State Fault Refusal :=
  .next (runSlot 6 (semMqapply d a l t s) s)

/-- MPERM in slot 6 (R251). -/
def execMperm (d : BitVec 6) (l : BitVec 3) (i : BitVec 1) (s : State) : Host.Outcome State Fault Refusal :=
  .next (runSlot 6 (semMperm d l i s) s)

/-- MRES in slot 6 (R252). -/
def execMres (d : BitVec 6) (l : BitVec 3) (s : State) : Host.Outcome State Fault Refusal :=
  .next (runSlot 6 (semMres d l s) s)

end Sys2Proof.Machine
end

