-- ==== Sys2Proof/Machine/CoreEvents.lean ====
section
/-! DEFINITION. What a core does beside the operations of its slots: fetching bundles (05 R116), strand cycles without an
issue, landings and launches, arrivals of data, holds, blocks and switches (12), and the faults of fetch and decoding
(03 R92). An event whose condition does not hold leaves the state as it is. -/

namespace Sys2Proof.Machine

/-- Agents of the package act: every image is verified, every stack has retrained, and nothing is frozen (19 R382). -/
def State.up (s : State) : Bool := s.awake && s.frz == 0

/-- The cores have clocks too: the power cap does not lie below the package's idle power (20 R407). -/
def State.live (s : State) : Bool := s.up && !s.starved

/-- An event of an agent outside the cores, which happens only while agents act. -/
def whenUp (p : Bool) (f : State → State) (s : State) : Host.Outcome State Fault Refusal :=
  .next (if s.up && p then f s else s)

/-- An event that happens only in a clock of a core. -/
def whenLive (p : Bool) (f : State → State) (s : State) : Host.Outcome State Fault Refusal :=
  .next (if s.live && p then f s else s)

/-- The strand holds issue position and may issue. -/
def State.inPos (s : State) (g : Nat) : Bool :=
  (s.core (coreOf g)).pos == some (g % 4) && (s.strand g).run == .inPos

/-- The strand may issue in the core clock: no stop sequence runs on its core (18 R377), and no `segend` has spent the budget
of the row (18 R372). A bundle that has committed some of its slots has issued: it completes whatever stops its core, since 06 R135
names no stop sequence among what leaves a bundle partly committed (18 R373, step 1; DEDUCED, log 110). -/
def State.mayGo (s : State) (g : Nat) : Bool :=
  s.inPos g && (((s.core (coreOf g)).stop == .none && !(s.core (coreOf g)).spent) || (s.strand g).ctx.done != 0)

-- Fetching (05 R116, R131).

/-- The pieces of a bundle that its fetch must ask of a peer before it is there (21 R417). -/
def State.fetchAsk (s : State) (g va : Nat) : Option (List Piece) :=
  if (s.strand g).ahead.any (fun e => e.1 == va) then none
  else match s.linPieces (coreOf g) (s.strand g).part 4 false 2 va 32 with
    | .error _ => none
    | .ok (ps, _) => if s.asked g va ps then none else some ps

/-- The bundle at an address with the translations used: one fetched ahead, or the bytes in memory now; `none` is a fetch that
fails, by its translation or by an error in its bytes (03 R92, 20 R405), or one that a peer has yet to answer. -/
def State.bundleAt (s : State) (g va : Nat) : Option (List Byte × List Tlb) :=
  match (s.strand g).ahead.find? (fun e => e.1 == va) with
  | some e => some (e.2, [])
  | none =>
    match s.linPieces (coreOf g) (s.strand g).part 4 false 2 va 32 with
    | .error _ => none
    | .ok (ps, ts) => if (s.badAt 0 ps).isSome || !s.asked g va ps then none else some (s.loadBelow ps, ts)

/-- The eight slot words of a bundle (03 R68). -/
def words (bs : List Byte) : List W32 := (lanes 8 bs).map (BitVec.ofNat 32)

/-- Bundles fetched ahead by the strands of a core. -/
def State.aheadCount (s : State) (c : Nat) : Nat := [0, 1, 2, 3].foldl (fun n k => n + (s.strand (4 * c + k)).ahead.length) 0

/-- A bundle is kept in the instruction cache: the core's 128 KiB hold 4096 bundles (00 R2); a full cache gives up the strand's
oldest. -/
def State.keepBundle (s : State) (g va : Nat) (bs : List Byte) : State :=
  s.modStrand g (fun t =>
    let old := t.ahead.filter (fun e => e.1 != va)
    if s.aheadCount (coreOf g) < 4096 then { t with ahead := (va, bs) :: old }
    else if old.isEmpty then t else { t with ahead := (va, bs) :: old.dropLast })

/-- The strand fetches a bundle ahead (05 R131); what fails is fetched again when it issues, and what lies behind a fabric window is
asked for then (21 R417). -/
def State.fetchAhead (s : State) (g va : Nat) : State :=
  match s.bundleAt g va with
  | some (bs, _) => (s.keepBundle g va bs).askOver g va
  | none => s

-- Cycles without an issue.

/-- The strand that a step names has completed its bundle: the device freezes again (19 R386). A `done` counts once its task is
over, an `rfe` once it has returned, and a stall count elapses first (03 R73). A strand whose end-of-task actions or abort are to
follow goes on with them after the freeze. -/
def State.stepOver (s : State) (g : Nat) : State :=
  let t := s.strand g
  if s.stepArm = some g ∧ (t.run ≠ .inPos ∨ (t.hold = .none ∧ t.ctx.sc = 0)) then
    let s1 := ({ s with stepArm := none } : State).debugStop g 0 4 0
    if t.run = .blocked then s1.modStrand g (fun x => { x with run := t.run, wait := t.wait }) else s1
  else s

/-- ANNULLED_BUNDLE (05 R117): one strand cycle, and a bundle issued. -/
def execAnnulledBundle (g : Nat) (s : State) : Host.Outcome State Fault Refusal :=
  let t := s.strand g
  whenLive (s.mayGo g && !s.braked g && !s.landHeld g && t.hold == .none && t.ctx.sc == 0 && t.ctx.anc != 0 && t.ctx.done == 0)
    (fun s => (((s.event g 0x02 1).event g 0x03 1).completeBundle g).stepOver g) s

/-- The last stall cycle of a completed bundle is over (03 R73): the switch of a `yield` (05 R132), the return of an `rfe` whose
landings are made (05 R127). -/
def State.afterStall (s : State) (g : Nat) : State :=
  let t := s.strand g
  if t.ctx.sc ≠ 0 then s
  else match t.hold with
    | .yield => (s.modStrand g (fun t => { t with hold := .none })).yieldNow g
    | .rfe a => if t.ctx.lq.isEmpty then s.rfeReturn g a else s
    | _ => s

/-- A trap entry waits for its vector record. -/
def Hold.isTrap : Hold → Bool
  | .trap _ => true
  | _ => false

/-- STALL_COUNT_EXPIRY (03 R73): one of the idle cycles, which a stop sequence lets elapse (18 R373) and the brake line holds
(12 R264); after the last the next bundle may issue. -/
def execStallCountExpiry (g : Nat) (s : State) : Host.Outcome State Fault Refusal :=
  whenLive (s.inPos g && !s.braked g && !s.landHeld g && (s.strand g).ctx.sc != 0 && !(s.strand g).hold.isTrap)
    (fun s => ((((s.event g 0x0D 1).endCycle g).modStrand g (fun t =>
      { t with ctx := { t.ctx with sc := t.ctx.sc - 1 } })).afterStall g).stepOver g) s

/-- BUNDLE_COMPLETE (05 R118, 06 R133). -/
def execBundleComplete (g : Nat) (s : State) : Host.Outcome State Fault Refusal :=
  whenLive (s.inPos g && !s.braked g && !s.landHeld g && (s.strand g).ctx.done == 0xFF) (fun s => (s.completeBundle g).stepOver g) s

/-- The first entry whose count has run out. -/
def State.firstDue (s : State) (g : Nat) : Option Landing := (splitDue (s.strand g).ctx.lq).map (fun e => e.2.1)

/-- LANDING (01 R25): the write of an entry whose count has run out. -/
def execLanding (g : Nat) (s : State) : Host.Outcome State Fault Refusal :=
  whenLive (match s.firstDue g with | some e => !e.isLaunch | none => false) (fun s => s.landOne g) s

/-- ENGINE_LAUNCH (03 R74): the command of an entry whose start delay has run out. -/
def execEngineLaunch (g : Nat) (s : State) : Host.Outcome State Fault Refusal :=
  whenLive (match s.firstDue g with | some e => e.isLaunch | none => false) (fun s => s.landOne g) s

-- Arrivals (07 R166, 08 R177, R181, 17 R347, R355, R357).

/-- A count of the strand's die (17 R343). -/
def State.countFor (s : State) (g o n : Nat) : State :=
  if n = 0 then s else s.setReg (dieOf g) o (s.reg (dieOf g) o + n)

/-- Freewheel reads of blocks in order: the blocks as delivered, with the numbers of malformed and early ones, and
whether one lies beyond the horizon. -/
def fwBlocks (fc dc now : Nat) : List (List Byte) → List Byte × Nat × Nat × Bool
  | [] => ([], 0, 0, false)
  | b :: l =>
    let r := fwBlocks fc dc now l
    if fwMalformed fc b then (b ++ r.1, r.2.1 + 1, r.2.2.1, r.2.2.2)
    else match fwReadBlock fc dc now b with
      | .ok x => (x ++ r.1, r.2.1, r.2.2.1, r.2.2.2)
      | .early x => (x ++ r.1, r.2.1, r.2.2.1 + 1, r.2.2.2)
      | .horizon => (b ++ r.1, r.2.1, r.2.2.1, true)

/-- A row is stale for a threshold (17 R357). -/
def staleRow (fc now thr : Nat) (bs : List (List Byte)) : Bool :=
  bs.any (fun b => !fwMalformed fc b && (match classify now (blkStamp b) with | .elapsed n => decide (32 * thr < n) | _ => false))

/-- Bytes written where their mask is given (03 R87, 07 R149). -/
def Strand.ursMasked (t : Strand) (a : Nat) (ms : List (Option Byte)) (bs : List Byte) : Strand :=
  t.ursWrite a ((ms.zip bs).map (fun e => e.1.map (fun m => (m, e.2))))

/-- Data is written to a pending destination. -/
def State.deliver (s : State) (g : Nat) (k : PendKind) (ds : List Dst) (bs : List Byte) : State :=
  match k with
  | .scalar d size sg =>
    let v := leNat bs
    s.modStrand g (fun t => t.ws d (if sg then sext64 (8 * size) v else BitVec.ofNat 64 v))
  | .urs a ms => s.modStrand g (fun t => t.ursMasked a ms bs)
  | .atom d _ _ => s.modStrand g (fun t => t.ws d (BitVec.ofNat 64 (leNat bs)))
  | .token d => s.modStrand g (fun t => t.ws d (BitVec.ofNat 64 (leNat bs)))
  | .fw a ms row fc dc now thr =>
    if fc = 0 then s.modStrand g (fun t => t.ursMasked a ms bs)
    else
      let bl := blocks64 (bs.length / 64) bs
      let r := fwBlocks fc dc now bl
      let s1 := (s.event g 0x19 r.2.1).countFor g 0x36020 r.2.2.1
      let s2 := if row && staleRow fc now thr bl then s1.countFor g 0x36018 1 else s1
      if r.2.2.2 then s2.modStrand g (fun t =>
        let u := t.ursMasked a ms bs; { u with errs := u.errs ++ ds.map (fun d => (d, 5, 0)) })
      else s2.modStrand g (fun t => t.ursMasked a ms r.1)

/-- The data of a pending destination arrives: it is delivered, or its error is recorded (06 R135). What arrives for a task that
issues no more is discarded, and an error in it is counted (07 R166, 20 R405). -/
def State.arrive (s : State) (g n : Nat) : State :=
  match (s.strand g).pends.find? (fun p => p.id == n) with
  | none => s
  | some p0 =>
    let s1 := s.fixPend g p0
    match (s1.strand g).pends.find? (fun p => p.id == n) with
    | none => s1
    | some p =>
      let s2 := (s1.landed n).modStrand g (fun t => { t with pends := t.pends.filter (fun x => x.id != n) })
      match p.err, p.val with
      | some va, _ =>
        if (s.strand g).wait = .actions then s2.ierrUnc
        else s2.modStrand g (fun t => { t with errs := t.errs ++ p.dsts.map (fun d => (d, 0x21, va)) })
      | none, some bs => if (s.strand g).wait = .actions then s2 else s2.deliver g p.kind p.dsts bs
      | none, none => s1

/-- A pending destination of the strand with a number and a test. -/
def State.isPend (s : State) (g n : Nat) (f : Pend → Bool) : Bool := (s.strand g).pends.any (fun p => p.id == n && f p)

/-- The destination is a token's. -/
def PendKind.isToken : PendKind → Bool
  | .token _ => true
  | _ => false
/-- Data may arrive: what a partly committed bundle loads itself is kept until it completes (06 R134). -/
def State.mayArrive (s : State) (g n : Nat) : Bool := !(s.strand g).ownPends.any (fun p => p.id == n)
/-- The data of a pending destination may arrive: what was asked of a peer has been sent, and an error needs no answer. -/
def State.mayLand (s : State) (g n : Nat) : Bool := s.mayArrive g n && (s.ready n || s.isPend g n (fun p => p.err.isSome))

/-- LOAD_DATA_ARRIVAL (08 R177). -/
def execLoadDataArrival (g n : Nat) (s : State) : Host.Outcome State Fault Refusal :=
  whenLive (s.mayLand g n && s.isPend g n (fun p => !p.vld && !p.kind.isToken && !p.kind.isAtom)) (fun s => s.arrive g n) s

/-- VLD_DATA_ARRIVAL (07 R166). -/
def execVldDataArrival (g n : Nat) (s : State) : Host.Outcome State Fault Refusal :=
  whenLive (s.mayLand g n && s.isPend g n (fun p => p.vld)) (fun s => s.arrive g n) s

/-- ATOMIC_RETURN (08 R181): possible once the atomic is performed. -/
def execAtomicReturn (g n : Nat) (s : State) : Host.Outcome State Fault Refusal :=
  whenLive (s.mayArrive g n && s.isPend g n (fun p => p.kind.isAtom && p.val.isSome)) (fun s => s.arrive g n) s

/-- A completion word is written to its token (09 R210, 13 R279), or dropped when the command was posted: a dropped fault
counts, an error 0x21 with the others (DESIGN CHOICE, log 77: 09 R211 names 0x30 and 0x31). -/
def State.writeToken (s : State) (g id : Nat) (w : W64) : State :=
  if s.isPend g id (fun p => p.kind.isToken) then
    (s.modStrand g (fun t => { t with pends := t.pends.map (fun p => if p.id = id then { p with val := some (leBytes 8 w.toNat) } else p) })).arrive
      g id
  else if w.toNat.testBit 63 then
    let d := dieOf g
    (s.event g 0x1B 1).setReg d 0x62010 (s.reg d 0x62010 + 1)
  else s

-- Holds, blocks and switches (12 R258-R262).

/-- The strand that has launched a command. -/
def Cmd.strand : Cmd → Nat
  | .copy c => c.strand
  | .matrix x => x.strand
  | .nm n => n.strand

/-- The strand has a command that has not completed (05 R124): a copy, a near-memory command or spawn, a matrix command, a permit,
or one that a stop sequence has handed to the die's command processor (18 R373). -/
def State.busyCmds (s : State) (g : Nat) : Bool :=
  let k := s.core (coreOf g)
  k.copies.any (fun c => c.strand == g) || k.mq.any (fun x => x.strand == g) || k.nmq.any (fun n => n.strand == g) ||
  k.parked.any (fun e => e.1 == (s.strand g).part && e.2.strand == g) ||
  s.permits.any (fun q => q.2.any (fun n => n.strand == g))

/-- The conditions of `done` hold (05 R124): every landing has been made and every command is complete. -/
def State.doneReady (s : State) (g : Nat) : Bool := (s.strand g).ctx.lq.isEmpty && !s.busyCmds g

/-- The conditions of `done` hold (05 R124): the strand leaves position, and its end-of-task actions are asked of the flush
engine (14 R295); a replayed task ends its pass instead (19 R396). The closing cost of its segment table is charged
(18 R371). -/
def State.endTask (s : State) (g : Nat) : State :=
  let tail := ((s.strand g).task.map Task.tail).getD 0
  let s1 := ((s.modCore (coreOf g) (fun k => { k with left := k.left - tail })).modStrand g (fun t =>
    { t with hold := .none, cursor := BitVec.ofNat 128 (t.cursor.toNat - t.cursor.toNat % 4 + 2) })).leave g .blocked .actions
  if (s.replayAny g).isSome then s1.due (.replayPassEnd g) else s1.askEdge g (.endOfTaskActions g)

/-- A trap entry that has waited for its vector record is made; an error that the record's request has met aborts the task
(20 R405, 21 R419). -/
def State.trapGo (s : State) (g : Nat) (q : TrapCall) : State :=
  let t := s.strand g
  match t.due with
  | some (c, va) =>
    ((s.asksOver g).modStrand g (fun t => { t with due := none })).abortTask g c 0 (if va = noAddr then t.ctx.pc else va)
      (mkTsl q.dly q.held q.done q.slot) false
  | none =>
    (s.modStrand g (fun t => { t with hold := .none })).trapEntry g q.cause q.detail q.addr q.slot q.done q.held q.dly q.csbpass

/-- The vector record that a trap entry waits for is there, or its request has met an error. -/
def State.trapReady (s : State) (g : Nat) : Bool := (s.strand g).due.isSome || (s.vectorAsk g).isNone

/-- POSITION_HOLD_END (12 R259) of a hold that follows a completed bundle: `done` whose conditions hold, `rfe` whose
landings are made and whose stall count has elapsed, the trap of a breakdown (12 R262), a trap entry whose vector record has come from
a peer. The clock in which a held `rfe`
completes (clock 800 of the run of 12) is a strand cycle, since the strand holds position in it (01 R24); the queue that comes
back does not count it (06 R143; DEDUCED, log 71). A bundle held before issue issues in its core's next clock. -/
def execPositionHoldEnd (g : Nat) (s : State) : Host.Outcome State Fault Refusal :=
  let t := s.strand g
  match t.hold with
  | .none => .next s
  | .done => whenLive (s.inPos g && s.doneReady g) (fun s => (s.endTask g).stepOver g) s
  | .rfe a => whenLive (s.inPos g && t.ctx.lq.isEmpty && t.ctx.sc == 0)
      (fun s => ((s.rfeReturn g a).countCycle g).stepOver g) s
  | .yield => whenLive (s.inPos g) (fun s => (s.afterStall g).stepOver g) s
  | .breakdown k =>
    whenLive (s.inPos g) (fun s => s.trapEntry g 0x10 k t.ctx.pc 6 t.ctx.done t.heldCount t.dly false) s
  | .trap q => whenLive (s.inPos g && s.trapReady g) (fun s => (s.trapGo g q).stepOver g) s

/-- The condition that a blocked strand waits on has cleared (12 R258). Family commands and task actions clear their own
blocks. -/
def State.blockOver (s : State) (g : Nat) : Bool :=
  let t := s.strand g
  let c := coreOf g
  let k := s.core c
  match t.wait with
  | .copyQueue => decide (k.copies.length + s.waitingOn c Cmd.isCopy < 16)
  | .matrixQueue => decide ((k.mq.filter (fun x => !x.started)).length + s.waitingOn c Cmd.isMatrix < 4)
  | .nmQueue => decide ((k.nmq.filter (fun n => decide (n.op ≤ 5))).length + s.waitingOn c Cmd.isNm < 8)
  | .permitQueue p => (permitBar { s with cur := { g := g } } p).isNone
  | .token ids => !t.pends.any (fun p => ids.contains p.id)
  | .factor => !s.inArray g
  | .none => false
  | .family => false
  | .yielded => false
  | .actions => false

/-- BLOCK_CLEAR (12 R258). -/
def execBlockClear (g : Nat) (s : State) : Host.Outcome State Fault Refusal :=
  whenLive ((s.strand g).run == .blocked && s.blockOver g)
    (fun s => s.modStrand g (fun t => { t with run := .ready, wait := .none })) s

/-- The first ready strand after the outgoing one, which comes last (12 R261). -/
def State.nextReady (s : State) (c : Nat) : Option Nat :=
  let l := (s.core c).last
  [l + 1, l + 2, l + 3, l + 4].find? (fun k => (s.strand (4 * c + k % 4)).run == .ready) |>.map (· % 4)

/-- The first ready strand after the outgoing one whose bundle a stop sequence lets complete (18 R373, step 1; log 110). -/
def State.unfinished (s : State) (c : Nat) : Option Nat :=
  let l := (s.core c).last
  [l + 1, l + 2, l + 3, l + 4].find? (fun k =>
    let t := s.strand (4 * c + k % 4)
    t.run == .ready && t.ctx.done != 0 && t.hold == .none) |>.map (· % 4)

/-- A strand takes issue position after `out` (12 R261, 19 R390, R392). -/
def State.switchTo (s : State) (g out : Nat) : State :=
  let s1 := (s.modStrand g (fun t => { t with run := .inPos, wait := .none })).modCore (coreOf g)
    (fun x => { x with pos := some (g % 4) })
  (s1.event g 0x11 1).traceS g 0x07 0 (s.strand g).ctx.pc (out % 4)

/-- STRAND_SWITCH (12 R261): one core clock in which no strand issues. In a stop sequence only a strand whose bundle is partly
committed takes position (18 R373, R377; log 110). -/
def execStrandSwitch (c : Nat) (s : State) : Host.Outcome State Fault Refusal :=
  match (if (s.core c).stop = .none then s.nextReady c else s.unfinished c) with
  | none => .next s
  | some k =>
    whenLive (s.core c).pos.isNone (fun s =>
      let g := 4 * c + k
      let out := (s.core c).last
      s.switchTo g out) s

end Sys2Proof.Machine
end

