-- ==== Sys2Proof/Machine/EngineEvents.lean ====
section
/-! DEFINITION. What the engines of a core do with the commands handed to them: the matrix array (10 R230, 11 R239, R243,
12 R440), the copy engine (09 R203-R212), the near-memory units (16 R335-R342, 17 R352, R361, R362) and the sprockets
(15 R314-R316). -/

namespace Sys2Proof.Machine

-- The matrix array.

/-- The array has no command in it. -/
def Core.arrayFree (k : Core) : Bool := !k.mq.any (fun x => x.started)

/-- The next command in launch order whose chained input is there (10 R220, R230). One chained to a command that still waits for its
start delay is passed over, so that commands which launched after it start before it (DESIGN CHOICE, log 97: the spec sets launch
order against the chained input there, and does not say which yields). -/
def Core.nextX (k : Core) : Option XCmd := k.mq.find? (fun x => x.par.getD 6 0 == 0 || decide (5 < x.op))

/-- A convolution reads its activations as the array starts it (10 R225); an error in them is recorded against D. -/
def State.readConv (s : State) (x : XCmd) : XCmd :=
  if x.op = 4 ∨ x.op = 5 then
    let v := convOf (x.data.getD 3 [])
    let key := x.par.getD 7 0
    let used := (List.range 4096).filterMap (fun j => match v.elem (j / 64) (j % 64) with | some (some e) => some e | _ => none)
    let bad := if s.bad.isEmpty then none else used.findSome? (fun e =>
      s.badAt 0 [⟨v.base + e * fcWidth v.fc / 8, key + e * fcWidth v.fc / 8, itemBytes v.fc, .own⟩])
    { x with
      data := x.data.set 0 (s.convTile v key)
      par := match bad with | some e => x.par ++ [e.2] | none => x.par }
  else x

/-- The events that a started command waits for: of the two ways in which a family command under the trap action ends, the
one that does not hold does nothing. -/
def xDue (c : Nat) (x : XCmd) : List Instr :=
  if x.lat.isSome || x.op == 6 then [.matrixResultProduced c] else [.factorisationBreakdown c, .familyCommandDone c]

/-- MATRIX_COMMAND_START (10 R230). -/
def execMatrixCommandStart (c : Nat) (s : State) : Host.Outcome State Fault Refusal :=
  match (s.core c).nextX with
  | none => .next s
  | some x =>
    whenLive (s.core c).arrayFree (fun s =>
      let x1 := { s.readConv x with started := true }
      (xDue c x1).foldl State.due (s.modCore c (fun k => { k with mq := k.mq.map (fun y => if y.id = x.id then x1 else y) }))) s

/-- A command leaves the array, which may start the next. -/
def State.leaveArray (s : State) (c id : Nat) : State :=
  let s1 := s.modCore c (fun k => { k with mq := k.mq.filter (fun y => y.id != id) })
  if (s1.core c).mq.isEmpty then s1 else s1.due (.matrixCommandStart c)

/-- The command in the array. -/
def Core.running (k : Core) : Option XCmd := k.mq.find? (fun x => x.started)

/-- A pending matrix result moves to a free place of its owner's pending-result area (12 R440, 18 R374): among the results `rs`
of the core or of an image. The arrangement there is not architectural: the bytes are free values. -/
def State.moveResult (s : State) (p : Nat) (rs : List MRes) (r : MRes) : State × MRes :=
  let at_ (i : Nat) : Nat := s.saveSlot p r.strand + 0x42000 + resultBytes * i
  let used (a : Nat) : Bool := rs.any (fun x => match x.moved with | some (b, _) => b == a | none => false)
  let a := at_ (([0, 1, 2, 3].find? (fun i => !used (at_ i))).getD 0)
  (({ s with fresh := s.fresh + resultBytes / 8 * (1 + r.effs.length) } : State).memWrite a (freeBytes s.fresh resultBytes),
    { r with moved := some (a, s.fresh) })

/-- A result buffer made free for a produced result, with the results as they then stand: one is free, or the oldest result whose
owner is not in position moves out of its buffer (12 R440). -/
def State.bufferFor (s : State) (c : Nat) : Option (State × List MRes) :=
  let rs := (s.core c).results
  if (rs.filter (fun r => r.moved.isNone)).length < 4 then some (s, rs)
  else match rs.find? (fun r => r.moved.isNone && !s.inPos r.strand) with
    | none => none
    | some o =>
      let m := s.moveResult (s.strand o.strand).part rs o
      some (m.1, rs.map (fun r => if r.id = o.id then m.2 else r))

/-- The recorded activation error of a convolution. -/
def convErr (x : XCmd) : List Eff :=
  match x.par.drop 8 with
  | va :: _ => [.err (.urs (x.par.getD 5 0) 18432) va]
  | [] => []

/-- The effects of a command whose accumulator path has met an error (12 R270): it is recorded against every destination. -/
def withLoss (lost : Bool) (effs : List Eff) : List Eff := if lost then lossEffs noAddr effs else effs

/-- The class of the clocks in which the array holds the command of core `c` it has started (10 R233). -/
def State.setClass (s : State) (c cls : Nat) : State :=
  s.modCore c (fun k => { k with mq := k.mq.map (fun x => if x.started then { x with cls } else x) })

/-- The classes in which clocks of a started command may fall while its result is not produced (10 R233): weights are fetched
for a B operand, or again for a reference that was invalidated. -/
def XCmd.classes (x : XCmd) : List Nat :=
  if x.op = 6 then [1] else if x.op = 7 ∨ x.op = 8 then [3]
  else if 8 < x.op then [0]
  else [0] ++ (if x.reuse then [] else [1]) ++ (if x.op = 4 ∨ x.op = 5 then [2] else [])

/-- A clock of a started command falls in the class; one whose result waits for a buffer has no other than the drain's. -/
def XCmd.admits (x : XCmd) (cls : Nat) : Bool := if x.stalled then cls == 3 else x.classes.contains cls

/-- The array of a core spends `n` clocks in a class (10 R233, 19 R392): one that its running command admits, which belongs to the
strand that launched it, or class 4 with no command started, which belongs to no strand. -/
def State.arrayIn (s : State) (c cls n : Nat) : State :=
  match (s.core c).running with
  | some x => if x.admits cls then (s.event x.strand (0x14 + cls) n).setClass c cls else s
  | none => if cls = 4 then s.coreEvent c 0x18 n else s

/-- The result of the running command stands in the array and waits for a buffer (10 R233, blocked on result drain). -/
def State.stall (s : State) (c : Nat) : State :=
  s.modCore c (fun k => { k with mq := k.mq.map (fun x => if x.started then { x with cls := 3, stalled := true } else x) })

/-- The strand in position is braked for a matrix result while all four buffers hold results of strands out of position: the ready
owner of the oldest of them, outside a stop sequence (12 R265). -/
def State.ownerTurn (s : State) (c : Nat) : Option Nat :=
  let rs := (s.core c).results.filter (fun r => r.moved.isNone)
  match (s.core c).pos with
  | none => none
  | some k =>
    let g := 4 * c + k
    if s.inPos g && s.braked g && (s.core c).stop == .none && decide (4 ≤ rs.length) && !rs.any (fun r => r.strand == g) then
      (rs.find? (fun r => (s.strand r.strand).run == .ready)).map MRes.strand
    else none

/-- MATRIX_RESULT_PRODUCED (10 R230, 12 R440): the result takes a buffer and goes to the commands chained to it; with every
buffer full it waits in the array (10 R233, blocked on result drain). While the braked strand's core is to switch to the owner of a
buffered result no result moves out for it: 12 R265 comes before the move of R440 (DEDUCED, log 109). A weight preload ends here
without a result. -/
def execMatrixResultProduced (c : Nat) (s : State) : Host.Outcome State Fault Refusal :=
  match (s.core c).running with
  | none => .next s
  | some x =>
    if x.op = 6 then whenLive true (fun s => s.leaveArray c x.id) s
    else match (if (s.ownerTurn c).isSome then none else s.bufferFor c) with
      | none => whenLive x.lat.isSome (fun s => s.stall c) s
      | some (s0, rs) =>
        whenLive x.lat.isSome (fun _ =>
          let effs := withLoss x.lost (xEffs x ++ (if x.op = 4 ∨ x.op = 5 then convErr x else []))
          let r : MRes := { id := x.id, strand := x.strand, effs, moved := none, fam := if 8 < x.op then some x else none }
          let s1 := s0.modCore c (fun k => { k with results := rs ++ [r] })
          (s1.chainFill x.strand x.id (effBytes effs)).leaveArray c x.id) s

/-- The strand that waits on a family command under the trap action is ready again: slot 6 commits, and its literal word is
consumed (03 R89, 06 R135). One whose task is aborted issues no more, and waits for its take-down (14 R303). -/
def State.slot6 (s : State) (g : Nat) (h : Hold) : State :=
  if (s.strand g).abort.isSome then s
  else s.modStrand g (fun t =>
    { t with
      run := .ready, wait := .none, hold := h
      mlp := BitVec.ofNat 64 ((t.mlp.toNat + 4) % 2 ^ 57)
      ctx := markDone 6 t.ctx })

/-- FAMILY_COMMAND_DONE (11 R239): the results of a command under the trap action stand in place. -/
def execFamilyCommandDone (c : Nat) (s : State) : Host.Outcome State Fault Refusal :=
  match (s.core c).running with
  | none => .next s
  | some x =>
    whenLive (x.lat.isNone && x.op != 6 && x.breaks.isNone) (fun s =>
      ((s.applyEffs x.strand (withLoss x.lost (famEffs x))).slot6 x.strand .none).leaveArray c x.id) s

/-- FACTORISATION_BREAKDOWN (11 R243, 12 R267): under the trap action the command stops where it stands, and the strand's
trap entry follows when it is next in position. A breakdown under the continue action is part of its command's result. -/
def execFactorisationBreakdown (c : Nat) (s : State) : Host.Outcome State Fault Refusal :=
  match (s.core c).running with
  | none => .next s
  | some x =>
    whenLive (x.lat.isNone && x.op != 6 && x.breaks.isSome) (fun s =>
      ((s.applyEffs x.strand (withLoss x.lost (famEffs x))).slot6 x.strand (.breakdown (x.breaks.getD 0))).leaveArray c x.id) s

/-- The tiles that a family command works on: D, the second operand, the right-hand side (11 R255). -/
def XCmd.tiles (x : XCmd) : List Nat :=
  if x.op ≤ 8 then []
  else [x.par.getD 0 0] ++ (if (x.data.getD 1 []).isEmpty then [] else [x.par.getD 1 0]) ++ x.par.drop 16

/-- The tiles of a family command that a write of the strand's URS by a copy meets. -/
def XCmd.meets (x : XCmd) (a n : Nat) : List Nat := x.tiles.filter (fun d => n != 0 && rangesMeet d 18432 a n)

/-- A matrix command that waits for its start delay. -/
def Landing.matrix? (e : Landing) : Option XCmd := match e.what with | .launch (.matrix x) => some x | _ => none

/-- The family commands of a strand between issue and completion (11 R255): in the array or its queue, waiting for their start,
or produced and yet to land. -/
def State.inFlight (s : State) (g : Nat) : List XCmd :=
  let t := s.strand g
  (s.core (coreOf g)).mq.filter (fun x => x.strand == g) ++ t.ctx.lq.filterMap Landing.matrix? ++
  (match t.frozen with | some (c, _, _) => c.lq.filterMap Landing.matrix? | none => []) ++
  ((s.core (coreOf g)).results.filter (fun r => r.strand == g)).filterMap MRes.fam

/-- The cells of the tile at `d` that hold one of the `n` bytes at `a` become free values, numbered from `k`. -/
def freeCells (k a n d : Nat) : Eff :=
  let r := cellsHit a n d
  let hit (j : Nat) : Bool := decide (r.1 ≤ j) && decide (j < r.2)
  cellEff d (fun i j => hit (64 * i + j)) ((List.range 64).map (fun i => (List.range 64).map (fun j => freeCell (k + 64 * i + j))))

/-- A command that a copy's write meets is marked, with its free values from `k` on. -/
def XCmd.mark (k a n : Nat) (x : XCmd) : XCmd :=
  if (x.meets a n).isEmpty then x else { x with taint := x.taint ++ [(a, n, k)] }

/-- A landing-queue entry whose command a copy's write meets is marked. -/
def Landing.mark (k a n : Nat) (e : Landing) : Landing :=
  match e.what with
  | .launch (.matrix x) => { e with what := .launch (.matrix (x.mark k a n)) }
  | _ => e

/-- A result whose family command a copy's write meets is formed anew. -/
def MRes.mark (k a n : Nat) (r : MRes) : MRes :=
  match r.fam with
  | some x => if (x.meets a n).isEmpty then r else { r with fam := some (x.mark k a n), effs := withLoss x.lost (xEffs (x.mark k a n)) }
  | none => r

/-- A copy has written operands of family commands of the strand in flight: the cells it wrote are left unpredictable, and
the commands are marked (11 R255). -/
def State.taintX (s : State) (g a n : Nat) : State :=
  let ds := (s.inFlight g).flatMap (fun x => x.meets a n)
  if ds.isEmpty then s
  else
    let k := s.fresh + 4096 * ds.length
    let lq (c : Ctx) : Ctx := { c with lq := c.lq.map (Landing.mark k a n) }
    let s0 : State := { s with fresh := k + 32768 }
    let s1 := (ds.zip (List.range ds.length)).foldl
      (fun (s2 : State) e => s2.applyEff g (freeCells (s.fresh + 4096 * e.2) a n e.1)) s0
    (s1.modStrand g (fun t => { t with ctx := lq t.ctx, frozen := t.frozen.map (fun f => (lq f.1, f.2)) })).modCore (coreOf g)
      (fun c => { c with
        mq := c.mq.map (fun x => if x.strand = g then x.mark k a n else x)
        results := c.results.map (fun r => if r.strand = g then r.mark k a n else r) })

-- Copies.

/-- A completion word (09 R210). -/
def complWord (code n : Nat) : W64 := BitVec.ofNat 64 ((if code = 0 then 0 else 2 ^ 63 + code * 2 ^ 48) + n)

/-- The places that a tensor copy moves, in the order of its other side (09 R206, R207). -/
def CopyCmd.poss (c : CopyCmd) (row col : Nat) : List Pos :=
  if c.op = 1 then rectPosT row col c.rows c.cols c.i2 c.i3 else rectPos c.fc row col c.rows c.cols c.i2 c.i3

/-- The layout of a tensor endpoint, or the code of 09 R211. -/
def copyLay (s : State) (part h fc : Nat) : Except Nat Lay :=
  match s.lay part h with
  | none => .error 0x30
  | some l => if l.fc = fc then .ok l else .error 0x31

/-- The first of the places whose bytes fail their check, in the line that a cache holds or in storage (20 R405), with its
address. The data address of an element in storage is its memory key: DESIGN CHOICE, log 75. -/
def State.badPos (s : State) (l : Lay) (line : Pos → Option TLine) (ps : List Pos) : Option (Nat × Nat) :=
  (ps.zip (List.range ps.length)).findSome? (fun e =>
    if l.inside e.1 then
      let a := l.place e.1
      let k := a.1 + a.2 / 8
      match line e.1 with
      | some x =>
        if x.bad &&& runMask (l.inTile e.1 * itemBits l.fc / 8) (itemBytes l.fc) = 0 then none else some (e.2, k % 2 ^ 57)
      | none =>
        if s.bad.isEmpty then none else (s.badAt 0 [⟨k, k, itemBytes l.fc, .ms⟩]).map (fun b => (e.2, b.2 % 2 ^ 57))
    else none)

/-- Bytes that `n` items take on the side that is not a tensor. -/
def itemsLen (fc n : Nat) : Nat := n * itemBits fc / 8

/-- The line of a cluster's tile cache that holds a place. -/
def State.lineOf (s : State) (u part h : Nat) (l : Lay) (p : Pos) : Option TLine :=
  if l.cached then s.tileFind u part h (l.tileOf p) else none

/-- What a copy reads from its source: its bytes, how many of them come before an error, the fault code, and the address of
an error. -/
structure SrcRead where
  bytes : List Byte
  good : Nat
  code : Nat := 0
  va : Nat := 0
  deriving DecidableEq, Repr

/-- The source of a copy read. -/
def State.readEnd (s : State) (c : CopyCmd) : State × SrcRead :=
  let t := s.strand c.strand
  let all (bs : List Byte) : SrcRead := { bytes := bs, good := bs.length }
  match c.src with
  | .none => (s, all [])
  | .urs o =>
    if c.op = 2 then (s, all [])
    else match t.ursBad o c.len with
      | some k => (s, { bytes := t.ursRead o c.len, good := k, code := 0x21, va := noAddr })
      | none => (s, all (t.ursRead o c.len))
  | .mem va ps =>
    if c.op = 2 && inAperture va then (s, all [])
    else
      let bs := s.loadBelow ps
      match s.badAt 0 ps with
      | some e => (s, { bytes := bs, good := e.1, code := 0x21, va := e.2 })
      | none => (s, all bs)
  | .tens h r k =>
    match copyLay s t.part h c.fc with
    | .error e => (s, { bytes := [], good := 0, code := e })
    | .ok l =>
      let u := cluOf c.strand
      let ps := c.poss r k
      let q := s.elemsRead u t.part h l ps
      let bs := packItems l.fc q.2
      match s.badPos l (s.lineOf u t.part h l) ps with
      | some e => ((s.elemsRead u t.part h l (ps.take e.1)).1, { bytes := bs, good := itemsLen l.fc e.1, code := 0x21, va := e.2 })
      | none => (q.1, all bs)

/-- A tensor destination's own faults, found before anything moves (09 R211). -/
def State.destFault (s : State) (c : CopyCmd) : Nat :=
  match c.dst with
  | .tens h _ _ => match copyLay s (s.strand c.strand).part h c.fc with | .error e => e | .ok _ => 0
  | _ => 0

/-- The peers that the endpoint of a copy needs, each with the bytes that a write sends (21 R421): those behind fabric windows, and
that of a remote tensor of which the tile cache lacks a tile that the copy reads, or writes in part. -/
def State.endPeers (s : State) (x : CopyCmd) (write : Bool) : Endp → List (Nat × Nat)
  | .mem _ ps => (farPieces ps).map (fun p => (peerOf p.key, if write then p.len else 0))
  | .tens h r k =>
    let part := (s.strand x.strand).part
    match s.lay part h with
    | none => []
    | some l =>
      match l.peer with
      | none => []
      | some p =>
        let ps := x.poss r k
        if (l.tilesOf ps).all (fun t => (s.tileFind (cluOf x.strand) part h t).isSome ||
            (write && l.bitsOf t ps == 2 ^ 4096 - 1)) then [] else [(p, 0)]
  | _ => []

/-- What a copy asks of peers. -/
def State.copyPeers (s : State) (x : CopyCmd) : List (Nat × Nat) := s.endPeers x false x.src ++ s.endPeers x true x.dst

/-- The lines that a cluster's tile cache has filled between two states (19 R392). -/
def State.filled (s t : State) (u : Nat) : Nat :=
  ((SMap.get [] t.tiles u).filter (fun x => (s.tileFind u x.part x.handle x.pos).isNone)).length

/-- A copy begins: its source is read. A request that was for the source alone is over with that. -/
def State.beginCopy (c : Nat) (s0 : State) (x : CopyCmd) : State :=
  let s := if (s0.endPeers x true x.dst).isEmpty then s0.landed x.id else s0
  let r := s.readEnd x
  let code := if (r.2.code = 0 ∨ r.2.code = 0x21) ∧ s.destFault x ≠ 0 then s.destFault x else r.2.code
  let moves := decide (code = 0 ∨ code = 0x21)
  let w := complWord (if x.op = 2 then 0 else code) (if moves then r.2.good else 0)
  let s1 := r.1.event x.strand 0x1F (s.filled r.1 (cluOf x.strand))
  let s2 := if x.op = 2 then (if code = 0 then s1 else s1.event x.strand 0x1A 1)
    else if code = 0x21 then s1.dueErr x.strand r.2.va else s1
  (s2.modCore c (fun k => { k with copies := k.copies.map (fun y =>
    if y.id = x.id then { y with started := true, data := if moves then r.2.bytes else [], word := w } else y) })).due
      (.copyCompletion c x.id)

/-- COPY_START (09 R203): the first copy that has not started, at most four moving at once. One that needs a peer waits until its
request has been sent (21 R418); requests are made in launch order, and copies behind one that waits start meanwhile (DESIGN CHOICE,
log 113: 09 R203 starts copies in launch order, and does not say whether one whose data must come from a peer holds back the others). -/
def execCopyStart (c : Nat) (s : State) : Host.Outcome State Fault Refusal :=
  let k := s.core c
  match k.copies.find? (fun x => !x.started && s.ready x.id) with
  | none => .next s
  | some x =>
    whenLive (decide ((k.copies.filter (fun x => x.started)).length < 4)) (fun s =>
      if (s.copyPeers x).isEmpty || s.flights.any (fun f => f.id == x.id) then s.beginCopy c x
      else ((s.copyPeers x).foldl (fun (s : State) p => s.request x.id p.1 1 0 p.2) s).due (.copyStart c)) s

/-- The places of a tensor within its extents as pieces of memory. -/
def Lay.pieces (l : Lay) (ps : List Pos) : List Piece :=
  (ps.filter l.inside).map (fun p =>
    let a := l.place p
    let k := a.1 + a.2 / 8
    ⟨k, k, itemBytes l.fc, .ms⟩)

/-- Items of a tensor written by an engine of strand `g`: loads of their bytes that a fence has followed have their values fixed
first (08 R189, R194), whether the bytes change in the tile cache or in memory. -/
def State.engineWrite (s : State) (g part h : Nat) (l : Lay) (ps : List Pos) (vs : List Nat) : State :=
  (s.fixFenced g true (l.pieces ps)).elemsWrite (cluOf g) part h l ps vs

/-- The destination of a copy written (09 R206, R212, R213). -/
def State.writeEnd (s : State) (c : CopyCmd) : State :=
  let g := c.strand
  let t := s.strand g
  match c.dst with
  | .none => s
  | .urs o => ((s.modStrand g (fun t => t.ursPut o c.data)).taintX g o c.data.length)
  | .mem va ps =>
    let s1 := (s.fixFenced g true ps).storeBelow ps c.data
    if inAperture va then s1
    else s1.dropLines (coreOf g) (fun l => ps.any (fun p => rangesMeet l.key 64 p.key (min p.len c.data.length)))
  | .tens h r k =>
    match copyLay s t.part h c.fc with
    | .error _ => s
    | .ok l =>
      let n := c.data.length * 8 / itemBits l.fc
      s.engineWrite g t.part h l ((c.poss r k).take n) (unpackItems l.fc n c.data)

/-- The bytes of a copy's data that are certain to be written: all, or those before an error (09 R211). -/
def CopyCmd.sure (c : CopyCmd) : Nat := if c.word.toNat.testBit 63 then bits c.word.toNat 22 0 else c.data.length

/-- Whether byte `i` of a copy that met an error is written, at address `a` of its destination: before the error, and beyond
it for each aligned run of `z` bytes as a free value has it (09 R211, R213; log 67). -/
def CopyCmd.takes (c : CopyCmd) (k a z i : Nat) : Bool :=
  decide (i < c.sure) || (Config.free64 (k + ((a + i) / z - a / z))).getLsbD 0

/-- Bytes chosen from an old and a new list, the first of index `i`. -/
def mixBytes (f : Nat → Bool) : Nat → List Byte → List Byte → List Byte
  | i, o :: os, x :: xs => (if f i then x else o) :: mixBytes f (i + 1) os xs
  | _, _, _ => []

/-- The destination of a copy that met an error: what lies beyond BYTES is old or new (09 R211). -/
def State.writePart (s : State) (c : CopyCmd) : State :=
  let g := c.strand
  let t := s.strand g
  let n := c.data.length
  let s0 : State := { s with fresh := s.fresh + n }
  match c.dst with
  | .none => s0
  | .urs o =>
    let f := c.takes s.fresh o 8
    (s0.modStrand g (fun t => t.ursWrite o ((c.data.zip (List.range n)).map (fun e =>
      if f e.2 then some (0xFF#8, e.1) else none)))).taintX g o n
  | .mem va ps =>
    let s1 := (s0.fixFenced g true ps).storeBelow ps (mixBytes (c.takes s.fresh va 8) 0 (s.loadBelow ps) c.data)
    if inAperture va then s1
    else s1.dropLines (coreOf g) (fun l => ps.any (fun p => rangesMeet l.key 64 p.key (min p.len n)))
  | .tens h r k =>
    match copyLay s t.part h c.fc with
    | .error _ => s0
    | .ok l =>
      let z := max 1 (min 8 (itemBits l.fc / 8))
      let m := n * 8 / itemBits l.fc
      let f := c.takes s.fresh 0 z
      let ps := (c.poss r k).take m
      let old := packItems l.fc (s.elemsRead (cluOf g) t.part h l ps).2
      let new := unpackItems l.fc m (mixBytes f 0 old c.data)
      let hit (j : Nat) : Bool := (List.range (itemBytes l.fc)).any (fun i => f (j * itemBits l.fc / 8 + i))
      let out := ((ps.zip new).zip (List.range m)).filter (fun e => hit e.2)
      s0.engineWrite g t.part h l (out.map (fun e => e.1.1)) (out.map (fun e => e.1.2))

/-- A tile that the copy writes in part has left the cache since the copy began, and its peer is to be asked for it (21 R421). -/
def State.copyAsks (s : State) (x : CopyCmd) : List (Nat × Nat) :=
  match x.dst with
  | .tens _ _ _ => if s.flights.any (fun f => f.id == x.id) then [] else s.endPeers x true x.dst
  | _ => []

/-- COPY_COMPLETION (09 R210). -/
def execCopyCompletion (c n : Nat) (s : State) : Host.Outcome State Fault Refusal :=
  match (s.core c).copies.find? (fun x => x.id == n && x.started) with
  | none => .next s
  | some x =>
    whenLive (s.ready n) (fun s =>
      if !(s.copyAsks x).isEmpty then
        ((s.copyAsks x).foldl (fun (s : State) p => s.request x.id p.1 1 0 p.2) s).due (.copyCompletion c n)
      else
      let s0 := if x.op = 2 ∨ x.data = [] then s else if x.sure = x.data.length then s.writeEnd x else s.writePart x
      let s1 := (s0.event x.strand 0x1F (s.filled s0 (cluOf x.strand))).landed n
      let s2 := (s1.modCore c (fun k => { k with copies := k.copies.filter (fun y => y.id != n) })).event x.strand 0x13
        (bits x.word.toNat 22 0)
      (s2.due (.copyStart c)).writeToken x.strand n x.word) s

-- Near-memory units.

/-- The unit that holds a byte of HBM: stack and channel group (16 R335). -/
def nmuOf (key : Nat) : Nat := key / 2 ^ 36 * 8 + bits key 14 12

/-- The target unit of a command. -/
def NmCmd.unit (n : NmCmd) : Nat := match n.pcs with | p :: _ => nmuOf p.key | [] => 64

/-- The values of a row image of a dense floating or block code, with the malformed blocks counted (02 R50, R51). -/
def rowVals (fc cols : Nat) (bs : List Byte) : List Num × Nat :=
  if fcDense fc then ((unpackItems fc cols bs).map (denseVal 0 (fcType fc)), 0)
  else
    let p := fcPer fc
    let bl := blocks64 (cols / p) bs
    (bl.flatMap (fun b => (List.range p).map (fun k => if malformed p b then Num.fin false 0 0 else blockElem 0 b k)),
      (bl.filter (malformed p)).length)

/-- FP32 values of a source. -/
def f32s (n : Nat) (bs : List Byte) : List Num := (lanes n bs).map f32

/-- A row encoded, every element rounded once to nearest even; blocks as `vpack` chooses their scale (16 R339). -/
def rowEncode (fc : Nat) (xs : List Num) : List Byte :=
  if fcDense fc then packItems fc (xs.map (fun x => match typeFmt (fcType fc) with
    | some f => roundFloat f .rne false 0 x | none => 0))
  else
    let p := fcPer fc
    (chunks p (xs.length / p) xs).flatMap (fun l => packBlock {} (BitVec.allOnes 256) fc ((List.range p).zip l))

/-- The smaller of two values, −0 below +0, a NaN taken (07 R153). -/
def numMin (x y : Num) : Num :=
  if x.isNan || y.isNan then .nan else if x.lt y then x else if y.lt x then y else if x.sign then x else y
/-- The larger of two values, +0 above −0, a NaN taken (07 R153). -/
def numMax (x y : Num) : Num :=
  if x.isNan || y.isNan then .nan else if x.lt y then y else if y.lt x then x else if x.sign then y else x

/-- The outcome of a near-memory command: bytes for each of its pieces, completion code, malformed blocks decoded, early
stamps met. -/
structure NmOut where
  bytes : List (List Byte)
  code : Nat
  bad : Nat
  early : Nat
  deriving DecidableEq, Repr

/-- `nm.radd` on a row (16 R339). The exchange counts no malformed block of the row that it writes over, whose values it does not
use (DESIGN CHOICE, log 98). -/
def nmRadd (fc cols op sf : Nat) (row src : List Byte) : NmOut :=
  if op = 3 ∧ sf = 0 then ⟨[src], 0, 0, 0⟩
  else
    let v := rowVals fc cols row
    let d := if sf = 1 then (f32s cols src, 0) else rowVals fc cols src
    let x := (v.1.zip d.1).map (fun e =>
      match op with | 0 => Num.add false e.1 e.2 | 1 => numMin e.1 e.2 | 2 => numMax e.1 e.2 | _ => e.2)
    ⟨[rowEncode fc x], 0, (if op = 3 then 0 else v.2) + d.2, 0⟩

/-- Early stamp against a view, and beyond the horizon. -/
def isEarly (now t : Nat) : Bool := match classify now t with | .early _ => true | _ => false
/-- Stamp beyond the horizon of a view. -/
def isHorizon (now t : Nat) : Bool := match classify now t with | .horizon => true | _ => false

/-- How far a stamp lies behind a view; an early stamp lies ahead of it (17 R346). -/
def ageOf (now t : Nat) : Int := match classify now t with | .elapsed n => n | .early n => -n | .horizon => 0

/-- A stored stamp `t` and that of a source, `ts`, lie beyond the horizon of one another (17 R347): the block is written at step
`ts`, and by their ages against the view the block is neither elapsed by less than 2^15 against it nor early (DEDUCED, log 99). -/
def pairFar (now t ts : Nat) : Bool :=
  let d := ageOf now t - ageOf now ts
  decide (d < -4096) || decide (32767 < d)

/-- `nm.fwadd` on a row (17 R347, R361): stamps against the view, and a stamped source against the stored block. -/
def nmFwadd (fc cols dc now sf : Nat) (row src : List Byte) : NmOut :=
  let p := fcPer fc
  let n := cols / p
  let rb := blocks64 n row
  let sb := if sf = 1 then [] else blocks64 n src
  let far := (rb ++ sb).any (fun b => !fwMalformed fc b && isHorizon now (blkStamp b)) ||
    (rb.zip sb).any (fun e => !fwMalformed fc e.1 && !fwMalformed fc e.2 && pairFar now (blkStamp e.1) (blkStamp e.2))
  if far then ⟨[], 0x32, 0, 0⟩
  else if rb.any (fwMalformed fc) || sb.any (fwMalformed fc) then ⟨[], 0x31, 0, 0⟩
  else
    let f := stampFmt fc
    let deltas := chunks p n (f32s cols src)
    let out := (rb.zip (List.range n)).map (fun e =>
      let t := blkStamp e.1
      let vs := blkElems fc e.1
      let r : List (Nat × Nat) :=
        if sf = 1 then
          (vs.zip (deltas.getD e.2 [])).map (fun x => fwMergeVal f dc x.1 t x.2 now)
        else
          let b := sb.getD e.2 []
          (vs.zip (blkElems fc b)).map (fun x => fwMerge f dc x.1 t x.2 (blkStamp b))
      mkStamped fc ((r.head?.map Prod.snd).getD t) (r.map Prod.fst))
    let early := if sf = 1 then rb.filter (fun b => isEarly now (blkStamp b))
      else ((rb.zip sb).filter (fun e => isEarly (blkStamp e.2) (blkStamp e.1))).map Prod.fst
    ⟨[out.flatten], 0, 0, early.length⟩
where
  /-- FwMerge of a stored element with a value of another format at `now` (02 R67). -/
  fwMergeVal (f : Fmt) (d v t : Nat) (x : Num) (now : Nat) : Nat × Nat :=
    let n := (now + 65536 - t % 65536) % 65536
    if n < 32768 then (roundFloat f .rne false 0 (Num.add false (f.decode (decay f d n v)) x), now)
    else
      let m := (t + 65536 - now % 65536) % 65536
      (roundFloat f .rne false 0 (Num.add false (f.decode v) (fwAddBlock.decayNum f d m x)), t)

/-- `nm.opt` on a row and its momentum row (16 R341, 17 R362). -/
def nmOpt (fc cols mfc mdc now : Nat) (row mom src : List Byte) : NmOut :=
  let beta := f32 (fieldAt src 0 4)
  let eta := f32 (fieldAt src 4 4)
  let g := f32s cols (src.drop 64)
  let w := rowVals fc cols row
  let step (x m : Num) : Num := Num.sub false x (Num.mul eta m)
  if fcStamped mfc then
    let p := fcPer mfc
    let bl := blocks64 (cols / p) mom
    let f := stampFmt mfc
    if bl.any (fwMalformed mfc) then
      ⟨[], if bl.any (fun b => !fwMalformed mfc b && isHorizon now (blkStamp b)) then 0x32 else 0x31, 0, 0⟩
    else if bl.any (fun b => isHorizon now (blkStamp b)) then ⟨[], 0x32, 0, 0⟩
    else
      let gs := chunks p (cols / p) g
      let out := (bl.zip gs).map (fun e =>
        let r := ((blkElems mfc e.1).zip e.2).map (fun x => nmFwadd.fwMergeVal f mdc x.1 (blkStamp e.1) x.2 now)
        ((r.head?.map Prod.snd).getD now, r.map Prod.fst))
      let ms := out.flatMap (fun e => e.2.map f.decode)
      ⟨[rowEncode fc ((w.1.zip ms).map (fun e => step e.1 e.2)), out.flatMap (fun e => mkStamped mfc e.1 e.2)], 0, w.2,
        (bl.filter (fun b => isEarly now (blkStamp b))).length⟩
  else
    let f := (typeFmt (fcType mfc)).getD .fp32
    let m := (rowVals mfc cols mom).1
    let m1 := (m.zip g).map (fun e => roundFloat f .rne false 0 (Num.add false (Num.mul beta e.1) e.2))
    ⟨[rowEncode fc ((w.1.zip (m1.map f.decode)).map (fun e => step e.1 e.2)), packItems mfc m1], 0, w.2, 0⟩

/-- One word of `nm.red` (16 R340). -/
def redWord (op old x : Nat) : Nat :=
  match op with
  | 0 => roundFloat .fp32 .rne false 0 (Num.add false (f32 old) (f32 x))
  | 1 => (old + x) % 2 ^ 32
  | 2 => vmax32 old x
  | _ => if sInt 32 old < sInt 32 x then x else old

/-- A row command performed at its unit. -/
def State.nmRow (s : State) (n : NmCmd) (out : List (List Byte) → NmOut) : State × W64 :=
  let rows := n.pcs.map (fun p => s.memRead p.key p.len)
  match s.badAt 0 n.pcs with
  | some e => (s.dueErr n.strand e.2, complWord 0x21 0)
  | none =>
    let o := out rows
    let s1 := (s.event n.strand 0x19 o.bad).countFor n.strand 0x36020 o.early
    if o.code ≠ 0 then (s1, complWord o.code 0)
    else ((n.pcs.zip o.bytes).foldl (fun (s : State) e => s.memWrite e.1.key e.2) s1, complWord 0 ((n.pcs.map Piece.len).foldl (· + ·) 0))

/-- What a near-memory command does at its unit, with its completion word. -/
def State.nmRun (s : State) (n : NmCmd) : State × W64 :=
  let p (i : Nat) : Nat := n.par.getD i 0
  match n.op with
  | 0 => s.nmRow n (fun rows => nmRadd (p 6) (p 7) (p 2) (p 3) (rows.getD 0 []) n.data)
  | 1 => s.nmRow n (fun rows => nmFwadd (p 6) (p 7) (p 8) (p 4) (p 3) (rows.getD 0 []) n.data)
  | 2 =>
    let good := match s.badAt 0 n.pcs with | some e => e.1 / 4 | none => 256
    let old := lanes 256 (s.loadBelow n.pcs)
    let new := ((old.zip (lanes 256 n.data)).zip (List.range 256)).map (fun e =>
      if e.2 < good then redWord (p 0) e.1.1 e.1.2 else e.1.1)
    let s1 := s.storeBelow n.pcs ((new.flatMap (leBytes 4)).take (4 * good))
    match s.badAt 0 n.pcs with
    | some e => (s1.dueErr n.strand e.2, complWord 0x21 (4 * good))
    | none => (s1, complWord 0 1024)
  | 3 => s.nmRow n (fun rows => nmOpt (p 6) (p 7) (p 9) (p 10) (p 4) (rows.getD 0 []) (rows.getD 1 []) n.data)
  | 4 =>
    if s.dryRun n.strand then (s, complWord 0 0)
    else if s.sweeps.contains (n.part, p 0) then (s, complWord 0x34 0)
    else if 256 ≤ s.sweeps.length then (s, complWord 0x33 0)
    else
      let s1 := (List.range 72).foldl (fun (s : State) u => s.wbTiles u (fun l => l.part == n.part && l.handle == p 0) true) s
      ({ s1 with sweeps := s1.sweeps ++ [(n.part, p 0)] }, complWord 0 0)
  | _ =>
    if s.dryRun n.strand then (s, complWord 0 0)
    else if s.sweeps.contains (n.part, p 0) then
      ({ s with sweeps := s.sweeps.filter (fun e => e != (n.part, p 0)) }, complWord 0 0)
    else (s, complWord 0x34 0)

/-- The strand's earlier accesses to the bytes of a near-memory command are made before it (08 R194, 17 R365): its stores and atomics
to a row that a row command writes are performed, and loads have their values fixed. -/
def State.beforeNm (s : State) (x : NmCmd) : State :=
  if Sys2Proof.Machine.nmRow x then s.beforeRow x.strand x.pcs else s.fixFenced x.strand true x.pcs

/-- NM_COMMAND_EXECUTE (16 R335): the command is performed at its unit, after those of its core for the same unit that launched
before it. -/
def execNmCommandExecute (c n : Nat) (s : State) : Host.Outcome State Fault Refusal :=
  match (s.core c).nmq.find? (fun x => x.id == n && x.phase == 1 && decide (x.op ≤ 5)) with
  | none => .next s
  | some x =>
    let before := (s.core c).nmq.takeWhile (fun y => y.id != n)
    whenUp (!before.any (fun y => y.phase == 1 && decide (y.op ≤ 5) && y.unit == x.unit)) (fun s =>
      let r := (s.beforeNm x).nmRun x
      (r.1.modCore c (fun k => { k with nmq := k.nmq.map (fun y =>
        if y.id = n then { y with phase := 2, word := r.2 } else y) })).due (.nmCommandCompletion c n)) s

/-- NM_COMMAND_COMPLETION (16 R342). -/
def execNmCommandCompletion (c n : Nat) (s : State) : Host.Outcome State Fault Refusal :=
  match (s.core c).nmq.find? (fun x => x.id == n && x.phase == 2) with
  | none => .next s
  | some x =>
    whenLive true (fun s =>
      (s.modCore c (fun k => { k with nmq := k.nmq.filter (fun y => y.id != n) })).writeToken x.strand n x.word) s

-- Sprockets.

/-- The request of a permit whose tensor is a peer's (21 R421). -/
def State.askPermit (s : State) (n : NmCmd) : State :=
  match (s.lay n.part (epHandle (n.par.getD 4 0))).bind Lay.peer with
  | some p => s.request n.id p 1 0 (if n.par.getD 1 0 = 2 then n.par.getD 2 0 * n.par.getD 10 0 else 0)
  | none => s

/-- The places of tile `i` of a permit. -/
def permitPoss (n : NmCmd) (i : Nat) : List Pos :=
  let sh := n.par.getD 5 0
  let r := permitRect n i
  rectPos (shFc sh) r.1 r.2 (shRows sh) (shCols sh) (shI2 sh) (shI3 sh)

/-- What a permit writes, as pieces of memory: vault bytes, or the places of its tiles. -/
def permitPieces (d : Nat) (n : NmCmd) (l : Lay) : List Piece :=
  (List.range (n.par.getD 2 0)).flatMap (fun i =>
    if n.par.getD 1 0 = 1 then
      (maskClusters d (n.par.getD 3 0)).map (fun v =>
        let k := vaultKey v (n.par.getD 6 0 + i * n.par.getD 7 0)
        ⟨k, k, n.par.getD 10 0, .lateral⟩)
    else l.pieces (permitPoss n i))

/-- PERMIT_START (15 R314): the first permit of a sprocket. -/
def execPermitStart (d p : Nat) (s : State) : Host.Outcome State Fault Refusal :=
  match SMap.get [] s.permits (d * 32 + p) with
  | [] => .next s
  | n :: l =>
    whenUp (n.phase == 1) (fun s =>
      (({ s with permits := SMap.put s.permits (d * 32 + p) ({ n with phase := 2 } :: l) } : State).askPermit n).due
        (.permitCompletion d p)) s

/-- The tiles of a permit from an error on (15 R316; log 68): `good` bytes of the first are moved, and what lies beyond
BYTES in the vaults or the tensor is unpredictable. -/
def State.permitLost (s : State) (d : Nat) (n : NmCmd) (l : Lay) (good : Nat) (first : List Byte) : List Nat → State
  | [] => s
  | i :: is =>
    let z := n.par.getD 10 0
    let o := n.par.getD 6 0 + i * n.par.getD 7 0
    let vs := maskClusters d (n.par.getD 3 0)
    let bs (k : Nat) : List Byte := first.take good ++ freeBytes k (z - good)
    let s1 : State := { s with fresh := s.fresh + z * vs.length }
    let s2 :=
      if n.par.getD 1 0 = 1 then
        (vs.zip (List.range vs.length)).foldl (fun s v => s.memWrite (vaultKey v.1 o) (bs (s1.fresh - z * (v.2 + 1)))) s1
      else
        let ps := permitPoss n i
        s1.itemsWrite l ps (unpackItems l.fc ps.length (bs (s1.fresh - z)))
    State.permitLost s2 d n l 0 [] is

/-- The tiles of a permit moved in order (15 R314): `k` bytes so far. An error ends it with the bytes moved before. -/
def State.permitRun (s : State) (d : Nat) (n : NmCmd) (l : Lay) : Nat → List Nat → State × W64
  | k, [] => (s, complWord 0 k)
  | k, i :: is =>
    let z := n.par.getD 10 0
    let o := n.par.getD 6 0 + i * n.par.getD 7 0
    let ps := permitPoss n i
    let vs := maskClusters d (n.par.getD 3 0)
    if n.par.getD 1 0 = 1 then
      let bs := packItems l.fc (ps.map (s.itemRead l))
      match s.badPos l (fun _ => none) ps with
      | some e =>
        let good := itemsLen l.fc e.1
        ((s.permitLost d n l good bs (i :: is)).dueErr n.strand e.2, complWord 0x21 (k + good))
      | none => State.permitRun (vs.foldl (fun s v => s.memWrite (vaultKey v o) bs) s) d n l (k + z) is
    else
      let v := vs.headD 0
      let bs := s.memRead (vaultKey v o) z
      match s.badAt 0 [⟨apBase + v * 2 ^ 24 + o, vaultKey v o, z, .lateral⟩] with
      | some e =>
        let good := e.1 * 8 / itemBits l.fc * itemBits l.fc / 8
        ((s.permitLost d n l good bs (i :: is)).dueErr n.strand e.2, complWord 0x21 (k + good))
      | none =>
        State.permitRun (s.itemsWrite l ps (unpackItems l.fc ps.length bs)) d n l (k + z) is

/-- PERMIT_COMPLETION (15 R314, R316). -/
def execPermitCompletion (d p : Nat) (s : State) : Host.Outcome State Fault Refusal :=
  match SMap.get [] s.permits (d * 32 + p) with
  | [] => .next s
  | n :: rest =>
    whenUp (n.phase == 2 && s.ready n.id) (fun s =>
      let r : State × W64 := match copyLay s n.part (epHandle (n.par.getD 4 0)) (shFc (n.par.getD 5 0)) with
        | .error e => (s, complWord e 0)
        | .ok l => (s.fixFenced n.strand true (permitPieces d n l)).permitRun d n l 0 (List.range (n.par.getD 2 0))
      let s1 := (if n.par.getD 1 0 = 2 then r.1.wbTiles (cluOf n.strand) (permitLine s n) true else r.1).landed n.id
      ((({ s1 with permits := SMap.put s1.permits (d * 32 + p) rest } : State).due (.permitStart d p)).writeToken n.strand n.id r.2)) s

end Sys2Proof.Machine
end

