-- ==== Sys2Proof/Machine/Edges.lean ====
section
/-! DEFINITION. Regions at task edges (14 R295-R306) and replay (19 R394-R397): records of tasks, region overlap, the cache
actions of an edge, forwards, the invalidation of a write set, and the capture and restore of a replayed task. -/

namespace Sys2Proof.Machine

-- Task records (13 R273-R275).

/-- A region record; `none` when it breaks a limit (13 R274). -/
def regionOf (b : List Byte) : Option Region :=
  let f (o n : Nat) : Nat := fieldAt b o n
  let z (o n : Nat) : Bool := ((b.drop o).take n).all (fun x => x == 0#8)
  let h := f 0 1
  let acc := bits h 3 2
  if acc = 0 ∨ 32 ≤ h then none
  else match h % 4 with
    | 0 =>
      let r : Region :=
        { kind := 0, acc, fwd := bit h 4, handle := f 1 3, row0 := f 4 2, col0 := f 6 2, i2 := f 8 2, i3 := f 10 2,
          rows := f 12 2, cols := f 14 2, n2 := f 16 2, n3 := f 18 2 }
      if r.rows = 0 ∨ r.cols = 0 ∨ 65536 < r.row0 + r.rows ∨ 65536 < r.col0 + r.cols ∨ r.n2 = 0 ∨ r.n3 = 0 ∨
         4096 < r.i2 + r.n2 ∨ 4096 < r.i3 + r.n3 ∨ !z 20 12 then none else some r
    | 1 =>
      let r : Region := { kind := 1, acc, fwd := bit h 4, base := f 8 8, len := f 16 8 }
      if r.len = 0 ∨ 2 ^ 57 < r.base + r.len ∨ !z 1 7 ∨ !z 24 8 then none else some r
    | 2 =>
      let r : Region := { kind := 2, acc, fwd := bit h 4, vault := f 4 1, base := f 8 4, len := f 12 4 }
      if 71 < r.vault ∨ r.len = 0 ∨ 2 ^ 24 < r.base + r.len ∨ !z 1 3 ∨ !z 5 3 ∨ !z 16 16 then none else some r
    | _ => none

/-- The region records of a task record. -/
def regionsOf (b : List Byte) : Nat → Option (List Region)
  | 0 => some []
  | n + 1 =>
    match regionsOf b n, regionOf ((b.drop (128 + 32 * n)).take 32) with
    | some l, some r => some (l ++ [r])
    | _, _ => none

/-- What registration takes from a record: its regions with the frame last (of length 0 when there is none), hint,
priority, graph. -/
structure Rec where
  regions : List Region
  mode : Nat
  die : Nat
  clu : Nat
  prio : Nat
  graph : Nat
  join : Nat
  deriving DecidableEq, Repr

/-- A record; `none` when it is malformed (13 R278). The fields the device writes are not looked at. -/
def recOf (b : List Byte) : Option Rec :=
  let code := fieldAt b 0 8
  let frame := fieldAt b 8 8
  let n := fieldAt b 22 1
  let fsize := fieldAt b 32 4
  let hint := fieldAt b 36 2
  let mode := bits hint 15 14
  if code % 32 ≠ 0 ∨ 2 ^ 57 ≤ code ∨ frame % 64 ≠ 0 ∨ 2 ^ 57 ≤ frame ∨ 15 < fieldAt b 21 1 ∨ 12 < n ∨ fieldAt b 23 1 ≠ 0 ∨
     fsize % 64 ≠ 0 ∨ 2 ^ 24 < fsize ∨ bits hint 13 7 ≠ 0 ∨ mode = 3 ∨ (mode = 2 ∧ 17 < hint % 32) ∨
     fieldAt b 38 2 ≠ 0 ∨ fieldAt b 52 4 ≠ 0 then none
  else match regionsOf b n with
    | none => none
    | some l =>
      some { regions := l ++ [{ kind := 1, acc := 3, base := frame, len := fsize }], mode, die := bits hint 6 5,
             clu := hint % 32, prio := fieldAt b 21 1, graph := fieldAt b 48 4, join := fieldAt b 16 4 }

/-- Two non-empty ranges meet. -/
def spansMeet (a n b m : Nat) : Bool := n != 0 && m != 0 && rangesMeet a n b m

/-- Two regions overlap (13 R275). -/
def regionsMeet (x y : Region) : Bool :=
  x.kind == y.kind &&
  (match x.kind with
    | 0 => x.handle == y.handle && spansMeet x.row0 x.rows y.row0 y.rows && spansMeet x.col0 x.cols y.col0 y.cols &&
        spansMeet x.i2 x.n2 y.i2 y.n2 && spansMeet x.i3 x.n3 y.i3 y.n3
    | 1 => spansMeet x.base x.len y.base y.len
    | _ => x.vault == y.vault && spansMeet x.base x.len y.base y.len)

/-- One sequence number is earlier than another (13 R284). -/
def earlier (e t : Nat) : Bool :=
  let d := (t + 2 ^ 48 - e % 2 ^ 48) % 2 ^ 48
  decide (1 ≤ d) && decide (d ≤ 2 ^ 47 - 1)

/-- The entry of a die for a record that is registered and not yet complete or aborted. -/
def State.dep (s : State) (d loc : Nat) : Option DEnt :=
  (SMap.get [] s.deps d).find? (fun e => e.loc == loc && decide (1 ≤ e.st) && decide (e.st ≤ 3))

/-- An unreleased entry stands before the task (13 R283). -/
def State.conflict (s : State) (d : Nat) (t : DEnt) : Bool :=
  (SMap.get [] s.deps d).any (fun e =>
    e.held && e.part == t.part && earlier e.seq t.seq &&
    e.regions.any (fun x => t.regions.any (fun y => (bit x.acc 1 || bit y.acc 1) && regionsMeet x y)))

/-- Entries of a die changed. -/
def State.modDeps (s : State) (d : Nat) (f : List DEnt → List DEnt) : State :=
  { s with deps := SMap.put s.deps d (f (SMap.get [] s.deps d)) }

/-- The STATE of a registered record, in memory and in its entry, is set (13 R273). -/
def State.setSt (s : State) (d loc seq st : Nat) : State :=
  (s.memWrite (loc + 20) [BitVec.ofNat 8 st]).modDeps d (fun l =>
    l.map (fun e => if e.loc = loc ∧ e.seq = seq then { e with st := st } else e))

/-- A message of vector `v` is sent, or kept pending while the vector is masked (21 R411). -/
def State.msix (s : State) (v : Nat) : State :=
  if s.msixMask.testBit v then { s with msixPend := s.msixPend ||| 2 ^ v } else { s with msixSent := s.msixSent ++ [v] }

-- Lines that meet regions (14 R296, R297).

/-- A data-cache line holds a byte of a linear region. -/
def Region.hasLine (r : Region) (part : Nat) (l : DLine) : Bool :=
  r.kind == 1 && l.part == part && spansMeet l.va 64 r.base r.len

/-- A tile-cache line meets a tensor region that is not memory-side. -/
def State.tileMeets (s : State) (part : Nat) (r : Region) (x : TLine) : Bool :=
  r.kind == 0 && x.part == part && x.handle == r.handle &&
  (match s.lay part r.handle with
    | some l => l.cached && lineIn l x r.row0 r.rows r.col0 r.cols r.i2 r.n2 r.i3 r.n3
    | none => false)

/-- Start action of one region (14 R296): `seq` is the task's. A forwarded line that the region takes loses its tag here, so a second R
region of the task that meets it drops it: R296 clears the tag at the region, while R307 keeps it until the start actions complete.
DESIGN CHOICE, log 120. -/
def State.startRegion (s : State) (g part seq : Nat) (r : Region) : State :=
  if !bit r.acc 0 then s
  else if r.kind = 1 then s.wbLines (coreOf g) (r.hasLine part) true
  else if r.kind = 0 then
    let u := cluOf g
    let s1 := s.wbTiles u (fun x => s.tileMeets part r x && x.fwd != some seq) true
    { s1 with tiles := SMap.put s1.tiles u ((SMap.get [] s1.tiles u).map (fun x =>
        if s.tileMeets part r x then { x with fwd := none } else x)) }
  else s

/-- Number of a tile among those that a region meets, in the order of 14 R297. -/
def tileNo (l : Lay) (r : Region) (x : TLine) : Nat :=
  let h := (tileShape l.fc).1
  let w := (tileShape l.fc).2 * itemCols l.fc
  let a := r.row0 / h
  let b := r.col0 / w
  let n := (r.row0 + r.rows - 1) / h - a + 1
  let m := (r.col0 + r.cols - 1) / w - b + 1
  (((x.i3 - r.i3) * r.n2 + (x.i2 - r.i2)) * n + (x.tr - a)) * m + (x.tc - b)

/-- The least of a list by a measure. -/
def leastBy {α : Type} (f : α → Nat) : List α → Option α
  | [] => none
  | x :: l =>
    match leastBy f l with
    | none => some x
    | some y => if f x ≤ f y then some x else some y

/-- The task entry of die `d` may receive a forward of the tile from the task with sequence number `seq` (14 R298). -/
def State.mayForward (s : State) (d part seq : Nat) (x : TLine) (e : DEnt) : Bool :=
  decide (e.st ≤ 2) && e.part == part &&
  e.regions.any (fun r => bit r.acc 0 && r.fwd && s.tileMeets part r x) &&
  !(SMap.get [] s.deps d).any (fun w =>
    w.held && w.part == part && w.seq != seq && earlier w.seq e.seq &&
    w.regions.any (fun r => bit r.acc 1 && s.tileMeets part r x))

/-- A tile as memory holds it arrives in a cluster's cache with a forward tag: a line already there is written back and replaced
(14 R298, 21 R421). -/
def State.putTile (s : State) (u seq part h : Nat) (l : Lay) (t : Pos) : State :=
  let s1 := (s.wbTiles u (fun y => y.isTile part h t) true).tileRoom u part h t
  let x : TLine := { part, handle := h, tr := t.r, tc := t.c, i2 := t.i2, i3 := t.i3, bytes := s1.tileRead part h l t, dirty := 0,
                     fwd := some seq, bad := s1.tileBad l t }
  { s1 with tiles := SMap.put s1.tiles u (x :: SMap.get [] s1.tiles u) }

/-- A list without repetitions. -/
def dedup : List Nat → List Nat
  | [] => []
  | x :: l => x :: (dedup l).filter (fun y => y != x)

/-- The write-back of one tile with its forwards, which carry the tile as it stands in memory after it (14 R297, R298). -/
def State.edgeTile (s : State) (g : Nat) (k : Task) (r : Region) (x : TLine) : State :=
  let u := cluOf g
  let d := dieOf g
  let s1 := s.wbTiles u (fun y => y.isTile x.part x.handle x.pos) false
  if r.fwd then
    (dedup ((s.strand g).joins.map Prod.fst)).foldl (fun s loc =>
      match s.dep d loc, s.lay x.part x.handle with
      | some e, some l =>
        if s.mayForward d k.part k.seq x e then s.putTile (18 * d + e.clu) e.seq x.part x.handle l x.pos else s
      | _, _ => s) s1
  else s1

-- Invalidation of a write set (14 R303, step 3).

/-- The bits of a mask of `n` bytes that satisfy a test. -/
def bytesMask (n : Nat) (p : Nat → Bool) : Nat := (List.range n).foldl (fun m i => if p i then m + 2 ^ i else m) 0

/-- A data-cache line that meets the write set: bytes outside it are written back, and the line goes. -/
def State.discardLine (s : State) (rs : List Region) (l : DLine) : State :=
  let inside := bytesMask 64 (fun i => l.dirty.testBit i && rs.any (fun r => inRange (l.va + i) (r.base, r.len)))
  s.wbLine { l with dirty := l.dirty - inside }

/-- The item of a place lies in a tensor region. -/
def Region.hasItem (r : Region) (l : Lay) (p : Pos) : Bool :=
  inRange p.r (r.row0, r.rows) && rangesMeet (p.c * itemCols l.fc) (itemCols l.fc) r.col0 r.cols &&
  inRange p.i2 (r.i2, r.n2) && inRange p.i3 (r.i3, r.n3)

/-- Byte `b` of a tile holds an element of a region. -/
def tileByteIn (l : Lay) (r : Region) (t : Pos) (b : Nat) : Bool :=
  if itemBits l.fc < 8 then r.hasItem l (l.tilePos t (2 * b)) || r.hasItem l (l.tilePos t (2 * b + 1))
  else r.hasItem l (l.tilePos t (8 * b / itemBits l.fc))

/-- A tile-cache line that meets the write set: bytes outside it are written back, and the line goes. -/
def State.discardTile (u : Nat) (rs : List Region) (s : State) (x : TLine) : State :=
  match s.lay x.part x.handle with
  | none => s
  | some l =>
    let inside := bytesMask 512 (fun b => x.dirty.testBit b && (rs.filter (fun r => r.handle == x.handle)).any
      (fun r => tileByteIn l r x.pos b))
    s.wbTile u { x with dirty := x.dirty - inside }

/-- The write set of a strand's task is invalidated in its core's data cache and its cluster's tile cache. -/
def State.discardSet (s : State) (g part : Nat) (regions : List Region) : State :=
  let w := regions.filter (fun r => bit r.acc 1)
  let lin := w.filter (fun r => r.kind == 1)
  let ten := w.filter (fun r => r.kind == 0)
  let c := coreOf g
  let hit (l : DLine) : Bool := lin.any (fun r => r.hasLine part l)
  let s1 := (((s.core c).dc.filter hit).foldl (fun (s : State) l => s.discardLine lin l) s).dropLines c hit
  s1.tilesOut (cluOf g) (State.discardTile (cluOf g) ten) (fun x => ten.any (fun r => s1.tileMeets part r x)) true

-- Replay (19 R395-R397).

/-- ResetCaches: every line of the task's regions written back and invalidated. -/
def State.resetCaches (s : State) (g part : Nat) (regions : List Region) : State :=
  (s.wbLines (coreOf g) (fun l => regions.any (fun r => r.hasLine part l)) true).wbTiles (cluOf g)
    (fun x => regions.any (fun r => s.tileMeets part r x)) true

/-- The tiles of a tensor region within the extents, in the order of 14 R297. -/
def regionTiles (l : Lay) (r : Region) : List Pos :=
  let h := (tileShape l.fc).1
  let w := (tileShape l.fc).2 * itemCols l.fc
  let rows := min (r.row0 + r.rows) l.rows
  let cols := min (r.col0 + r.cols) l.cols
  let d3 := (List.range (min (r.i3 + r.n3) l.n3 - r.i3)).map (fun i => r.i3 + i)
  let d2 := (List.range (min (r.i2 + r.n2) l.n2 - r.i2)).map (fun i => r.i2 + i)
  let trs := if r.row0 < rows then (List.range ((rows - 1) / h - r.row0 / h + 1)).map (fun i => r.row0 / h + i) else []
  let tcs := if r.col0 < cols then (List.range ((cols - 1) / w - r.col0 / w + 1)).map (fun i => r.col0 / w + i) else []
  d3.flatMap (fun z => d2.flatMap (fun y => trs.flatMap (fun a => tcs.map (fun b => { r := a, c := b, i2 := y, i3 := z }))))

/-- The bytes of a W region as a replay captures them; `none` when a page cannot be read. -/
def State.captureRegion (s : State) (g part : Nat) (r : Region) : Option (List Byte) :=
  match r.kind with
  | 0 => match s.lay part r.handle with
    | none => some []
    | some l => some ((regionTiles l r).flatMap (s.tileRead part r.handle l))
  | 1 => match s.linPieces (coreOf g) part 1 false (r.len / 65536 + 2) r.base r.len with
    | .error _ => none
    | .ok (ps, _) => some (s.loadBelow ps)
  | _ => some (s.memRead (vaultKey r.vault r.base) r.len)

/-- The first byte of a W region whose check is wrong, as a capture meets it (20 R405): its address, for a tensor its key. -/
def State.captureBad (s : State) (g part : Nat) (r : Region) : Option Nat :=
  if s.bad.isEmpty then none
  else match r.kind with
    | 0 => match s.lay part r.handle with
      | none => none
      | some l => (regionTiles l r).findSome? (fun t =>
          ((List.range 512).find? (fun b => (s.tileBad l t).testBit b)).map (fun b => l.byteKey t b % 2 ^ 57))
    | 1 => match s.linPieces (coreOf g) part 1 false (r.len / 65536 + 2) r.base r.len with
      | .error _ => none
      | .ok (ps, _) => (s.badAt 0 ps).map Prod.snd
    | _ => (s.badAt 0 [⟨apBase + r.vault * 2 ^ 24 + r.base, vaultKey r.vault r.base, r.len, .lateral⟩]).map Prod.snd

/-- The length of the capture of a region. -/
def State.captureLen (s : State) (part : Nat) (r : Region) : Nat :=
  match r.kind with
  | 0 => match s.lay part r.handle with | none => 0 | some l => 512 * (regionTiles l r).length
  | _ => r.len

/-- A length rounded up to 64 bytes. -/
def up64 (n : Nat) : Nat := ceilDiv n 64 * 64

/-- The W regions with the offsets of their captures, from 0x1000 on. -/
def State.captureAt (s : State) (part : Nat) : Nat → List Region → List (Nat × Region)
  | _, [] => []
  | o, r :: l => (o, r) :: State.captureAt s part (o + up64 (s.captureLen part r)) l

/-- The length of the capture. -/
def State.captureSize (s : State) (part : Nat) (rs : List Region) : Nat :=
  rs.foldl (fun n r => up64 n + s.captureLen part r) 0

/-- Tiles written through the layout unit, their bytes one after the other. -/
def State.putTiles (s : State) (l : Lay) (ts : List Pos) (bs : List Byte) : State :=
  s.itemsWrite l (ts.flatMap (fun t => (List.range (tileItems l.fc)).map (l.tilePos t)))
    (unpackItems l.fc (tileItems l.fc * ts.length) bs)

/-- The capture of a region written back to the same bytes; one that carries an error is left, and counted (20 R405). -/
def State.restoreRegion (s : State) (g part buf : Nat) (e : Nat × Region) : State :=
  if s.keyBad (buf + e.1) (s.captureLen part e.2) then s.ierrUnc
  else
  let bs := s.memRead (buf + e.1) (s.captureLen part e.2)
  match e.2.kind with
  | 0 => match s.lay part e.2.handle with
    | none => s
    | some l => if (l.peer.map s.routed).getD true then s.putTiles l (regionTiles l e.2) bs else s
  | 1 => match s.linPieces (coreOf g) part 1 false (e.2.len / 65536 + 2) e.2.base e.2.len with
    | .error _ => s
    | .ok (ps, _) => s.storeBelow ps bs
  | _ => s.memWrite (vaultKey e.2.vault e.2.base) bs

/-- The write set of a task as a replay captures it. -/
def wset (regions : List Region) : List Region := regions.filter (fun r => bit r.acc 1)

/-- The peers that hold bytes of a W region, each with how many (21 R417, R421). -/
def State.regionFar (s : State) (g part : Nat) (r : Region) : List (Nat × Nat) :=
  match r.kind with
  | 0 => match s.lay part r.handle with
    | none => []
    | some l => (l.peer.toList.filter s.routed).map (fun p => (p, 512 * (regionTiles l r).length))
  | 1 => match s.linPieces (coreOf g) part 1 false (r.len / 65536 + 2) r.base r.len with
    | .error _ => []
    | .ok (ps, _) => (farPieces ps).map (fun p => (peerOf p.key, p.len))
  | _ => []

/-- The peers that hold bytes of a task's write set. -/
def State.wsetFar (s : State) (g part : Nat) (regions : List Region) : List (Nat × Nat) :=
  (wset regions).flatMap (s.regionFar g part)

/-- The requests of a capture, or of a restore, with a number (21 R417). -/
def State.requestFar (s : State) (id g part : Nat) (regions : List Region) (write : Bool) : State :=
  (s.wsetFar g part regions).foldl (fun (s : State) p => s.request id p.1 1 0 (if write then p.2 else 0)) s

/-- What the capture or the restore of a strand's task needs of peers has been asked of them (21 R417). -/
def State.farAsked (s : State) (g part : Nat) (regions : List Region) : Bool :=
  (s.wsetFar g part regions).isEmpty || (s.strand g).asks.any (fun a => a.1 == noAddr && s.ready a.2)

/-- What the capture or the restore of a strand's task needs of peers is asked of them, unless it has been. -/
def State.askFar (s : State) (g part : Nat) (regions : List Region) (write : Bool) : State :=
  if (s.strand g).asks.any (fun a => a.1 == noAddr) then s
  else
    let id := s.nid
    (({ s with nid := id + 1 } : State).requestFar id g part regions write).modStrand g (fun t =>
      { t with asks := (noAddr, id) :: t.asks })

/-- The first byte that a restore of the capture would read and whose check is wrong: its key (20 R405). -/
def State.restoreBad (s : State) (part k : Nat) (regions : List Region) : Option Nat :=
  (s.captureAt part 0x1000 (wset regions)).findSome? (fun e =>
    (s.badAt 0 [⟨s.rp k 16 + e.1, s.rp k 16 + e.1, s.captureLen part e.2, .ms⟩]).map Prod.snd)

/-- Restore. -/
def State.restore (s : State) (g part k : Nat) (regions : List Region) : State :=
  (s.captureAt part 0x1000 (wset regions)).foldl (fun s e => s.restoreRegion g part (s.rp k 16) e) s

/-- Capture; `none` when a page cannot be read (19 R395). -/
def State.capture (s : State) (g part k : Nat) (regions : List Region) : Option State :=
  (s.captureAt part 0x1000 (wset regions)).foldl (fun (a : Option State) e =>
    match a with
    | none => none
    | some s => (s.captureRegion g part e.2).map (fun bs => s.memWrite (s.rp k 16 + e.1) bs)) (some s)

/-- The counters of the strand's core given to pass `p` of replay slot `k` (19 R396). -/
def State.passCounters (s : State) (g part k p : Nat) : State :=
  let d := dieOf g
  let c := coreOf g
  let sel := s.rp k (32 + (p - 1) / 2 * 8)
  let evt (i : Nat) : Nat := sel / 2 ^ (8 * (4 * ((p - 1) % 2) + i)) % 256
  let v := [0, 1, 2, 3].foldl (fun n i => n + (2048 + g % 4 * 256 + evt i) * 2 ^ (12 * i)) (2 ^ 63 + part * 2 ^ 48)
  [0, 1, 2, 3].foldl (fun (s : State) i => s.setReg d (ecBlock c (8 + 8 * i)) 0) (s.setReg d (ecBlock c 0) v)

/-- RPL of a core's counters cleared. -/
def State.dropCounters (s : State) (g : Nat) : State :=
  s.setReg (dieOf g) (ecBlock (coreOf g) 0) (s.reg (dieOf g) (ecBlock (coreOf g) 0) % 2 ^ 63)

/-- The replay of a strand ends: RUN and RPL cleared, DONE set, and the message of vector 9 (19 R396, 21 R411). -/
def State.replayOver (s : State) (k : Nat) (r : Replay) : State :=
  let v := s.rp k 8
  let s1 := ({ s with replays := s.replays.filter (fun e => e.1 != k) } : State).setRp k 8
    ((v - (if bit v 2 then 4 else 0)) ||| 2)
  (if r.once then s1 else s1.dropCounters r.strand).msix 9

/-- The capture with which a replay in slot `n` begins, and its first pass; with a page that cannot be read the task runs once without
replay (19 R395). An error in what it reads is one in data of the task, which is aborted (20 R405; log 96). -/
def State.replayCapture (s : State) (g part n : Nat) (regions : List Region) : State :=
  let r : Replay := { strand := g, pass := 1, hash := 0#64, nret := 0, differ := none, once := false }
  match s.capture g part n regions with
  | none => { s.rpErr n 0x84 with replays := SMap.put s.replays n { r with once := true } }
  | some s1 =>
    let s2 : State := { (s1.passCounters g part n 1) with replays := SMap.put s1.replays n r }
    match (wset regions).findSome? (s1.captureBad g part) with
    | some va => s2.abortTask g 0x21 0 va (mkTsl false 0 0 0) false
    | none => s2

/-- Start of a task on a strand whose record an armed slot of the die names (19 R394, R395). A capture of what lies behind fabric windows
waits for its requests (21 R417). -/
def State.replayStart (s : State) (g : Nat) (k : Task) (regions : List Region) : State :=
  let d := dieOf g
  match (List.range 8).find? (fun i =>
      bit (s.rp (8 * d + i) 8) 0 && s.rp (8 * d + i) 0 == k.va && bits (s.rp (8 * d + i) 8) 39 32 == k.part) with
  | none => s
  | some i =>
    let n := 8 * d + i
    let s1 := s.setRp n 8 (s.rp n 8 - 1 ||| 4)
    let r : Replay := { strand := g, pass := 1, hash := 0#64, nret := 0, differ := none, once := false }
    if s1.rp n 24 < 0x1000 + s1.captureSize k.part (wset regions) then
      { s1.rpErr n 0x80 with replays := SMap.put s1.replays n { r with once := true } }
    else
      let s2 := s1.resetCaches g k.part regions
      if s2.farAsked g k.part regions then s2.replayCapture g k.part n regions
      else ({ s2 with replays := SMap.put s2.replays n { r with waits := true } } : State).askFar g k.part regions false

/-- The first byte of what Compare reads at the end of a pass whose check is wrong (20 R405): its address. -/
def State.compareBad (s : State) (k : Nat) (r : Replay) : Option Nat :=
  let b := s.rp k 16
  if r.pass = 1 then none else (s.badAt 0 [⟨b + 0xA0, b + 0xA0, 8, .ms⟩, ⟨b + 0x80, b + 0x80, 8, .ms⟩]).map Prod.snd

/-- Compare at the end of pass `p` (19 R397): the number of returns and the hash against those of pass 1. -/
def State.comparePass (s : State) (k : Nat) (r : Replay) : State :=
  let b := s.rp k 16
  if r.pass = 1 then s
  else if min r.nret 256 ≠ s.memNat (b + 0xA0) 8 ∨ r.hash.toNat ≠ s.memNat (b + 0x80) 8 then s.mismatch k r 0xFFFF
  else s

/-- The counts, hash and number of returns of a pass stored, and PDONE (19 R396). -/
def State.storePass (s : State) (g k : Nat) (r : Replay) : State :=
  let b := s.rp k 16
  let counts := [0, 1, 2, 3].flatMap (fun i => leBytes 8 (s.reg (dieOf g) (ecBlock (coreOf g) (8 + 8 * i))))
  let s1 := (s.memWrite (b + 32 * (r.pass - 1)) counts).memWrite (b + 0x80 + 8 * (r.pass - 1)) (leBytes 8 r.hash.toNat)
  let s2 := if r.pass = 1 then s1.memWrite (b + 0xA0) (leBytes 8 (min r.nret 256)) else s1
  let s3 := s2.comparePass k r
  let v := s3.rp k 8
  s3.setRp k 8 (v - bits v 11 8 * 256 + r.pass * 256)

end Sys2Proof.Machine
end

