-- ==== Sys2Proof/Machine/Tasks.lean ====
section
/-! DEFINITION. Tasks (13): registration, placement, the dependence table, ready queues and dispatch, the start and end of
a task, its joins, and the course of an abort (14 R295-R306). -/

namespace Sys2Proof.Machine

-- Placement (13 R286, 15 R317).

/-- A cluster of a partition's set that is not mapped out (18 R367, 20 R406). -/
def State.usableClu (s : State) (p clu : Nat) : Bool := s.inSet p clu && !Config.repair.out.contains clu

/-- Bytes added to the score of a die. -/
def addScore (sc : List Nat) (d n : Nat) : List Nat := sc.set d (sc.getD d 0 + n)

/-- Bytes of a linear range by the stack of each page, as bits. -/
def State.linScore (s : State) (part : Nat) : Nat → Nat → Nat → List Nat → List Nat
  | 0, _, _, sc => sc
  | f + 1, va, n, sc =>
    if n = 0 then sc
    else match s.walkFrom part va (s.preg part 8) walkLevels with
      | none =>
        let m := min n (65536 - va % 65536)
        State.linScore s part f (va + m) (n - m) sc
      | some t =>
        let m := min n (t.va + t.size - va)
        State.linScore s part f (va + m) (n - m)
          (if t.win = 0 then addScore sc (t.key / 2 ^ 37) (8 * m) else sc)

/-- Bits of a tensor region's elements within the extents in each die's stacks. -/
def State.tenScore (s : State) (part : Nat) (r : Region) (sc : List Nat) : List Nat :=
  match s.lay part r.handle with
  | none => sc
  | some l =>
    if l.peer.isSome then sc
    else
      let k := itemCols l.fc
      let cols (p : Pos) : Nat :=
        min (min (r.col0 + r.cols) l.cols) ((p.c + 1) * k) - max r.col0 (p.c * k)
      (regionTiles l r).foldl (fun sc t =>
        (List.range (tileItems l.fc)).foldl (fun sc j =>
          let p := l.tilePos t j
          if l.inside p && r.hasItem l p then addScore sc ((l.place p).1 / 2 ^ 37) (cols p * fcWidth l.fc) else sc) sc) sc

/-- The score of each die for a set of regions, in bits (15 R317). -/
def State.scores (s : State) (part : Nat) (rs : List Region) : List Nat :=
  rs.foldl (fun sc r =>
    match r.kind with
    | 0 => s.tenScore part r sc
    | 1 => s.linScore part (r.len / 65536 + 2) r.base r.len sc
    | _ => addScore sc (r.vault / 18) (8 * r.len)) [0, 0, 0, 0]

/-- The place of the greatest value, the first of equals. -/
def firstMax (l : List Nat) : Nat := (leastBy (fun i => l.foldl max 0 - l.getD i 0) (List.range l.length)).getD 0

/-- Entries of a partition in a cluster's ready queues. -/
def State.queued (s : State) (u part : Nat) : List QEnt := (SMap.get [] s.queues u).filter (fun q => q.part == part)

/-- The nearest cluster of the set on the die in cyclic order, else on the next die that has one (13 R286). The rule gives the cyclic
order no direction and no starting point on another die: nearest is the first going upward from cluster `c` (c, c + 1, … modulo 18), on
each die from the same number. DESIGN CHOICE, log 118. -/
def State.substitute (s : State) (part d c : Nat) : Nat × Nat :=
  ([0, 1, 2, 3].findSome? (fun i =>
    (List.range 18).findSome? (fun j =>
      let d1 := (d + i) % 4
      let c1 := (c + j) % 18
      if s.usableClu part (18 * d1 + c1) then some (d1, c1) else none))).getD (d, c)

/-- Place (13 R286): `from` is the spawner's die and cluster, the cluster absent for the command processor. MODE 1 of a record that comes
as a job card has no spawner die and cluster here, and is placed as MODE 0: DESIGN CHOICE, log 119. -/
def State.place (s : State) (part die : Nat) (clu : Option Nat) (r : Rec) : Nat × Nat :=
  let map (_ : Unit) : Nat × Nat :=
    let sc := s.scores part r.regions
    let d := if sc.all (fun x => x == 0) then die else firstMax sc
    let vb := (List.range 18).map (fun c =>
      (r.regions.filter (fun x => x.kind == 2 && x.vault == 18 * d + c)).foldl (fun n x => n + x.len) 0)
    let c := if vb.any (fun x => x != 0) then firstMax vb
      else match clu with
        | some u => if u / 18 = d then u % 18 else fewest d
        | none => fewest d
    (d, c)
  let p : Nat × Nat :=
    if r.mode = 2 then (r.die, r.clu)
    else if r.mode = 1 then
      match clu with
      | some u => (u / 18, u % 18)
      | none => map ()
    else map ()
  s.substitute part p.1 p.2
where
  /-- The cluster of a die whose ready queues hold fewest entries of the partition. -/
  fewest (d : Nat) : Nat := (leastBy (fun c => (s.queued (18 * d + c) part).length) (List.range 18)).getD 0

-- Registration (13 R278-R285).

/-- The records of the entries that stand next to one in its level of a cluster's queues, which its LINK or theirs may name (13 R282). -/
def State.linked (s : State) (u : Nat) (q : QEnt) : List Nat :=
  let l := (s.queued u q.part).filter (fun x => x.level == q.level)
  let before := leastBy (fun x => q.order - x.order) (l.filter (fun x => decide (x.order < q.order)))
  let after := leastBy QEnt.order (l.filter (fun x => decide (q.order < x.order)))
  (before.toList ++ after.toList).map QEnt.loc

/-- The LINK fields of records change with the queue that links them: how they do is the device's (log 15). -/
def State.relink (s : State) (l : List Nat) : State :=
  l.foldl (fun (s : State) loc => let f := s.freeWord; f.1.memWrite (loc + 56) (leBytes 8 f.2.toNat)) s

/-- Enqueue (13 R282): the record goes to the tail of a level with the next push order. -/
def State.enqueue (s : State) (u part level loc : Nat) : State :=
  let o := SMap.get 0 s.pushNo u
  let q : QEnt := ⟨loc, part, level, o⟩
  ({ s with
      queues := SMap.put s.queues u (SMap.get [] s.queues u ++ [q])
      pushNo := SMap.set 0 s.pushNo u (o + 1) } : State).relink (loc :: s.linked u q)

/-- An entry leaves a cluster's queues, and its neighbours are linked to one another (13 R282). -/
def State.unqueue (s : State) (u : Nat) (q : QEnt) : State :=
  ({ s with queues := SMap.put s.queues u ((SMap.get [] s.queues u).filter (fun x => x != q)) } : State).relink (s.linked u q)

/-- The entries of a record leave the queues of a cluster. -/
def State.unqueueLoc (loc : Nat) (s : State) (u : Nat) : State :=
  ((SMap.get [] s.queues u).filter (fun q => q.loc == loc)).foldl (fun (s : State) q => s.unqueue u q) s

/-- A handle bound to a peer's tensor (21 R421). -/
def State.remoteHandle (s : State) (part h : Nat) : Bool :=
  !s.layout.any (fun b => b.part == part && b.handle == h) && s.fabric.any (fun f => f.part == part && f.handle == h)

/-- The task must be staged before it is eligible: it reads through a remote handle (21 R421). -/
def State.needsStage (s : State) (part : Nat) (rs : List Region) : Bool :=
  rs.any (fun r => r.kind == 0 && bit r.acc 0 && s.remoteHandle part r.handle)

/-- A registered record takes an entry of the dependence table, or waits in the overflow list (13 R285). -/
def State.enter (s : State) (d : Nat) (e : DEnt) : State :=
  let l := SMap.get [] s.deps d
  let waits := decide (4096 ≤ (l.filter (fun x => x.held)).length) || l.any (fun x => !x.held && x.part == e.part)
  let s1 := s.modDeps d (fun l => l ++ [{ e with held := !waits }])
  if waits then s1.setReg d 0x62008 (s1.reg d 0x62008 + 1) else s1

/-- Register (13 R278): the completion code, and the sequence number given. -/
def State.register (s : State) (part die : Nat) (clu : Option Nat) (loc va : Nat) : State × Nat × Nat :=
  let b := s.memRead loc 512
  match s.badAt 0 [⟨va, loc, 128 + 32 * min 12 (fieldAt b 22 1), .ms⟩] with
  | some _ => (s, 0x21, 0)
  | none =>
    if fieldAt b 20 1 ≠ 0 then (s, 0x40, 0)
    else match recOf b with
      | none => (s, 0x41, 0)
      | some r =>
        let seq := SMap.get 0 s.spawnNo part
        let p := s.place part die clu r
        let st := if r.join = 0 then 2 else 1
        let s1 : State := { s with spawnNo := SMap.set 0 s.spawnNo part ((seq + 1) % 2 ^ 48) }
        let s2 := (s1.memWrite (loc + 20) [BitVec.ofNat 8 st]).memWrite (loc + 24)
          (leBytes 6 seq ++ [BitVec.ofNat 8 p.1, BitVec.ofNat 8 p.2])
        let s3 := s2.enter p.1 { loc, va, part, seq, graph := r.graph, prio := r.prio, clu := p.2, pinned := r.mode == 2,
                                 regions := r.regions, st, held := true, staged := !s2.needsStage part r.regions }
        (if r.join = 0 then s3.enqueue (18 * p.1 + p.2) part r.prio loc else s3, 0, seq)

/-- A fault record that names no strand (14 R305): kinds 3, 5, and 4 of a launch. -/
def bareFault (kind graph code va : Nat) : FaultRec :=
  { kind, sv := false, strand := 0, graph, tcr := BitVec.ofNat 64 code, tar := 0#64, tcr2 := 0#64, tar2 := 0#64, pc := 0,
    tsl := 0, va }

/-- A spawn completes (13 R279): the word goes to the token; a posted one that failed is reported. -/
def State.spawnDone (s : State) (n : NmCmd) (code v : Nat) : State :=
  let c := coreOf n.strand
  let s1 := (s.modCore c (fun k => { k with nmq := k.nmq.filter (fun y => y.id != n.id) })).landed n.id
  if n.tok = 0 ∧ code = 0x42 then s1
  else
    let s2 := s1.writeToken n.strand n.id (complWord code v)
    let s3 := if code = 0x21 then s2.dueErr n.strand ((n.pcs.head?.map Piece.va).getD 0) else s2
    if n.tok = 0 ∧ code ≠ 0 then
      s3.report (dieOf n.strand)
        { bareFault 4 (((s.strand n.strand).task.map Task.graph).getD 0) code ((n.pcs.head?.map Piece.va).getD 0) with
          sv := true, strand := n.strand, pc := n.par.getD 0 0 }
    else s3

/-- A command of a near-memory queue with a number. -/
def State.findNm (s : State) (n : Nat) : Option NmCmd := s.cores.findSome? (fun c => c.2.nmq.find? (fun x => x.id == n))

/-- A record behind a fabric window leaves for the peer as a job card (21 R420). -/
def State.sendCard (s : State) (id loc : Nat) : State :=
  ({ s with fabOut := s.fabOut ++ [.card (peerOf loc) (recPpart loc) (loc % 2 ^ 64) id (s.memRead (recKey loc) 512)] } :
    State).request id (peerOf loc) 3 2 512

/-- TASK_REGISTRATION (13 R278): the spawns of a strand register in launch order; through a fabric window the record leaves
as a job card (21 R420). -/
def execTaskRegistration (n : Nat) (s : State) : Host.Outcome State Fault Refusal :=
  match s.findNm n with
  | none => .next s
  | some x =>
    let q := (s.core (coreOf x.strand)).nmq
    let before := q.takeWhile (fun y => y.id != n)
    whenUp (x.op == 6 && x.phase == 1 && !before.any (fun y => y.strand == x.strand && y.op == 6 && y.phase == 1)) (fun s =>
      let loc := (x.pcs.head?.map Piece.key).getD 0
      let va := (x.pcs.head?.map Piece.va).getD 0
      let next := (q.dropWhile (fun y => y.id != n)).drop 1 |>.find? (fun y => y.strand == x.strand && y.op == 6)
      let s0 : State := match next with | some y => s.due (.taskRegistration y.id) | none => s
      if s0.dryRun x.strand then s0.spawnDone x 0x42 0
      else if 2 ^ 80 ≤ loc then
        (s0.modCore (coreOf x.strand) (fun k =>
          { k with nmq := k.nmq.map (fun y => if y.id = n then { y with phase := 3 } else y) })).sendCard n loc
      else
        let r := s0.register x.part (dieOf x.strand) (some (cluOf x.strand)) loc va
        r.1.spawnDone x r.2.1 r.2.2) s

/-- The waiting record of a die that is next to receive an entry (13 R285): none of its partition is earlier. SEQ counts each partition
by itself, so among the earliest records of several partitions the rule names none: the first registered is taken. DESIGN CHOICE,
log 117. -/
def State.nextEntry (s : State) (d : Nat) : Option DEnt :=
  let l := SMap.get [] s.deps d
  let w := l.filter (fun x => !x.held)
  if 4096 ≤ (l.filter (fun x => x.held)).length then none
  else w.find? (fun x => !w.any (fun y => y.part == x.part && earlier y.seq x.seq))

/-- DEPENDENCE_ENTRY_GRANT (13 R285). -/
def execDependenceEntryGrant (d : Nat) (s : State) : Host.Outcome State Fault Refusal :=
  match s.nextEntry d with
  | none => .next s
  | some e =>
    whenUp (s.dieAwake d) (fun s => s.modDeps d (fun l =>
      l.map (fun x => if x.loc = e.loc ∧ x.seq = e.seq then { x with held := true } else x))) s

-- Dispatch (13 R282, R287, R288).

/-- The dependence entry of a queue entry, when the task is eligible (13 R282, 21 R421). -/
def State.eligible (s : State) (d : Nat) (q : QEnt) : Option DEnt :=
  match s.dep d q.loc with
  | none => none
  | some e => if e.st == 2 && e.held && e.staged && e.part == q.part && !s.conflict d e then some e else none

/-- The eligible entries of a partition in a cluster, with their dependence entries. -/
def State.eligibles (s : State) (u part : Nat) : List (QEnt × DEnt) :=
  (s.queued u part).filterMap (fun q => (s.eligible (u / 18) q).map (fun e => (q, e)))

/-- Of the entries of the highest level, the one of least push order. -/
def pickLevel (l : List (QEnt × DEnt)) : Option (QEnt × DEnt) :=
  let top := l.foldl (fun m e => max m e.1.level) 0
  leastBy (fun e => e.1.order) (l.filter (fun e => e.1.level == top))

/-- Steal (13 R287): the cluster taken from, and the entry. -/
def State.steal (s : State) (u part : Nat) : Option (Nat × QEnt × DEnt) :=
  let d := u / 18
  let ls := (List.range 17).map (fun k =>
    let v := 18 * d + (u % 18 + 1 + k) % 18
    (v, (s.eligibles v part).filter (fun e => !e.2.pinned)))
  let top := ls.foldl (fun m x => x.2.foldl (fun m e => max m e.1.level) m) 0
  ls.findSome? (fun x => (pickLevel (x.2.filter (fun e => e.1.level == top))).map (fun e => (x.1, e)))

/-- The task that a cluster dispatches next for a partition, with the cluster it is taken from. -/
def State.nextTask (s : State) (u part : Nat) : Option (Nat × QEnt × DEnt) :=
  match pickLevel (s.eligibles u part) with
  | some e => some (u, e)
  | none => s.steal u part

/-- The lowest-numbered idle strand of a core. -/
def State.idleStrand (s : State) (c : Nat) : Option Nat :=
  ([0, 1, 2, 3].map (fun k => 4 * c + k)).find? (fun g => (s.strand g).task.isNone && (s.strand g).run == .idle)

/-- Tasks that run on a core. -/
def State.tasksOn (s : State) (c : Nat) : Nat :=
  ([0, 1, 2, 3].filter (fun k => (s.strand (4 * c + k)).task.isSome)).length

/-- A strand image holds a task of the partition. -/
def Strand.ofPart (t : Strand) (p : Nat) : Bool := t.task.isSome && t.part == p

/-- The saved images of a core's strands for a partition, in the save area. -/
def State.savedOn (s : State) (c p : Nat) : List (Nat × Nat × Strand) :=
  s.images.filter (fun i => i.1 == p && i.2.1 / 4 == c)

/-- The core runs a partition whose strands a host stop has saved, with no other to take its place (18 R375, R376). -/
def State.awaySaved (s : State) (c : Nat) : Bool :=
  let k := s.core c
  (match k.shadow with | some (q, l) => q == k.part && l.any (fun t => t.ofPart q) | none => false) || !(s.savedOn c k.part).isEmpty

/-- HSTOP of a partition (18 R367). -/
def State.hstop (s : State) (p : Nat) : Bool := bit (s.preg p 48) 1

/-- The core runs the partition, and takes its tasks (13 R282, 12 R271): none while the host has stopped it, nor before the strands
that it saved are live again (18 R375, R376). -/
def State.runsFor (s : State) (c part : Nat) : Bool :=
  let k := s.core c
  k.entered && k.part == part && k.stop == .none && bit (s.preg part 0) 0 && !s.hstop part && !s.awaySaved c && (!s.fxd c || bit (s.preg part 0) 2)

/-- The strand on which a task starts (13 R282). -/
def State.startStrand (s : State) (u part : Nat) : Option Nat :=
  match leastBy (fun c => s.tasksOn c)
      (((List.range 16).map (fun i => 16 * u + i)).filter (fun c => s.runsFor c part && (s.idleStrand c).isSome)) with
  | none => none
  | some c => s.idleStrand c

/-- Age of one level below the one dispatched from (13 R288). -/
def State.ageLevel (u part : Nat) (s : State) (l : Nat) : State :=
  let k := (u * 256 + part) * 16 + l
  let a := SMap.get 0 s.aging k + 1
  if a < 256 then { s with aging := SMap.set 0 s.aging k a }
  else
    let s1 : State := { s with aging := SMap.set 0 s.aging k 0 }
    match leastBy (fun q => q.order) ((s1.queued u part).filter (fun q => q.level == l)) with
    | none => s1
    | some q =>
      let o := SMap.get 0 s1.pushNo u
      let q1 : QEnt := { q with level := l + 1, order := o }
      let s2 : State := { s1 with
        queues := SMap.put s1.queues u ((SMap.get [] s1.queues u).map (fun x => if x = q then q1 else x))
        pushNo := SMap.set 0 s1.pushNo u (o + 1) }
      s2.relink (q.loc :: s1.linked u q ++ s2.linked u q1)

/-- Age (13 R288). -/
def State.age (s : State) (u part h : Nat) : State :=
  (((List.range 15).reverse).filter (fun l => decide (l < h))).foldl (State.ageLevel u part) s

/-- The two costs of a segment cost table (18 R371); zero when there is none or it cannot be read, and while a peer has yet to send it. -/
def State.segCosts (s : State) (g segt : Nat) : Nat × Nat :=
  if segt = 0 then (0, 0)
  else match s.pieces g segt 8 1 false with
    | .error _ => (0, 0)
    | .ok (ps, _) =>
      let v := leNat (s.loadBelow ps)
      if (s.badAt 0 ps).isSome || !s.asked g segt ps then (0, 0) else (bits v 17 0, bits v 49 32)

/-- A segment cost table behind a fabric window is asked of its peer (21 R417). -/
def State.segAsk (s : State) (g segt : Nat) : State :=
  if segt = 0 then s
  else match s.pieces g segt 8 1 false with
    | .error _ => s
    | .ok (ps, _) => if s.asked g segt ps then s else s.ask g segt ps

/-- The costs of a segment cost table that a peer has sent are charged, before the task's first bundle (18 R371). -/
def State.segCharge (s : State) (g : Nat) : State :=
  match (s.strand g).asks.find? (fun a => a.1 != noAddr) with
  | none => s
  | some a =>
    let c := s.segCosts g a.1
    ((s.modStrand g (fun t => { t with task := t.task.map (fun k => { k with tail := c.2 }) })).modCore (coreOf g)
      (fun k => { k with left := k.left - c.1 })).askOver g a.1

/-- The state of task entry (01 R37), before the start-of-task actions. -/
def State.entry (s : State) (k : Task) (regions : List Region) (code frame : Nat) : Strand :=
  let t : Strand :=
    { run := .blocked
      wait := .actions
      scr := if bit (s.preg k.part 0) 1 then 1#64 else 0#64
      regions := regions
      cursor := 1#128
      ctx := { pc := code % 2 ^ 57 }
      task := some k }
  ((t.ws 1 (BitVec.ofNat 64 frame)).ws 2 (BitVec.ofNat 64 k.va)).ws 3 (BitVec.ofNat 64 k.graph)

/-- Start (13 R282, 13 R281): the record's CODE, FRAME, SEGT and GRAPH are read again. An error in them is one in data of the task,
which is aborted (20 R405; log 96). -/
def State.startTask (s : State) (g : Nat) (e : DEnt) : State :=
  let d := dieOf g
  let s1 := s.setSt d e.loc e.seq 3
  let b := s1.memRead e.loc 64
  let s2 := s1.modStrand g (fun t => { t with task := some ⟨e.loc, e.va, e.part, 0, e.seq, e.prio, 0⟩ })
  let cost := s2.segCosts g (fieldAt b 40 8)
  let k : Task := ⟨e.loc, e.va, e.part, fieldAt b 48 4, e.seq, e.prio, cost.2⟩
  let s3 := ((s2.setStrand g (s2.entry k e.regions (fieldAt b 0 8) (fieldAt b 8 8))).modCore (coreOf g)
    (fun c => { c with left := c.left - cost.1 })).segAsk g (fieldAt b 40 8)
  let s4 := match s3.badAt 0 [⟨e.va, e.loc, 64, .ms⟩] with
    | some x => s3.abortTask g 0x21 0 x.2 (mkTsl false 0 0 0) false
    | none => s3.replayStart g k e.regions
  if (s4.strand g).abort.isSome then s4 else s4.askEdge g (.startOfTaskActions g)

/-- The partitions that cores of a cluster run, in core order. -/
def State.clusterParts (s : State) (u : Nat) : List Nat :=
  dedup (((List.range 16).filter (fun i => (s.core (16 * u + i)).entered && (s.core (16 * u + i)).stop == .none)).map
    (fun i => (s.core (16 * u + i)).part))

/-- What a cluster dispatches next: partition, source cluster, entry, task, strand. -/
def State.nextDispatch (s : State) (u : Nat) : Option (Nat × (Nat × QEnt × DEnt) × Nat) :=
  if Config.repair.out.contains u || !s.dieAwake (u / 18) || (SMap.get [] s.deps (u / 18)).isEmpty then none
  else (s.clusterParts u).findSome? (fun p =>
    match s.startStrand u p with
    | none => none
    | some g => (s.nextTask u p).map (fun x => (p, x, g)))

/-- DISPATCH (13 R282). -/
def execDispatch (u : Nat) (s : State) : Host.Outcome State Fault Refusal :=
  match s.nextDispatch u with
  | none => .next s
  | some (p, (v, q, e), g) =>
    whenLive true (fun s =>
      ((s.unqueue v q).startTask g e).age v p q.level) s

-- The edges of a task.

/-- PH of the flush cursor (14 R308). -/
def Strand.ph (t : Strand) : Nat := t.cursor.toNat % 8
/-- RIX. -/
def Strand.rix (t : Strand) : Nat := bits t.cursor.toNat 15 8
/-- JIX. -/
def Strand.jix (t : Strand) : Nat := bits t.cursor.toNat 39 32
/-- TCUR. -/
def Strand.tcur (t : Strand) : Nat := t.cursor.toNat / 2 ^ 64
/-- A layout of the flush cursor. -/
def mkCursor (ph rix jix tcur : Nat) : W128 := BitVec.ofNat 128 (tcur * 2 ^ 64 + jix * 2 ^ 32 + rix * 256 + ph)

/-- What the start of a task has asked of peers has been sent (21 R417), and so have the tiles that a capture reads there. -/
def State.startReady (s : State) (g : Nat) : Bool :=
  (s.strand g).asks.all (fun a => s.ready a.2) && (match s.replayOf g with | some (_, r) => !r.waits || s.tilesSent (cluOf g) | none => true)

/-- The start actions of every R region, the step view, and the first bundle may issue. -/
def State.startActions (s : State) (g : Nat) (k : Task) : State :=
  let s1 := (s.strand g).regions.foldl (fun s r => s.startRegion g k.part k.seq r) (s.offEdge g)
  (s1.modStrand g (fun t => { t with run := .ready, wait := .none, cursor := 0#128, svr := BitVec.ofNat 64 s1.gstep })).traceS
    g 0x01 0 k.va k.seq

/-- A capture that has waited for its peers is made, and the start actions follow (19 R395, R396); one whose request was lost is asked for
again, as far as it has a route. -/
def State.captureNow (s : State) (g : Nat) (k : Task) (n : Nat) : State :=
  let rs := (s.strand g).regions
  let s1 := if s.farAsked g k.part rs then (s.askOver g noAddr).replayCapture g k.part n rs else s.askFar g k.part rs false
  if (s1.strand g).abort.isSome then s1 else s1.due (.startOfTaskActions g)

/-- START_OF_TASK_ACTIONS (14 R296): the lines of every R region, the step view, and the first bundle may issue. -/
def execStartOfTaskActions (g : Nat) (s : State) : Host.Outcome State Fault Refusal :=
  match (s.strand g).task with
  | none => .next s
  | some k =>
    whenLive ((s.strand g).ph == 1 && (s.strand g).abort.isNone && s.served g && s.startReady g) (fun s =>
      match (s.replayOf g).filter (fun e => e.2.waits) with
      | some (n, _) => s.captureNow g k n
      | none => (s.segCharge g).startActions g k) s

/-- A strand holds no task any more (14 R295): its state is discarded, results of its commands with it. -/
def State.freeStrand (s : State) (g : Nat) : State :=
  ((((s.asksOver g).leave g .idle .none).setStrand g {}).modCore (coreOf g)
    (fun k => { k with results := k.results.filter (fun r => r.strand != g) })).offEdge g

/-- The decrement of a join (13 R280) by a task of a graph, or of the record's own: through a fabric window it leaves for the peer
(21 R420). One that meets an error in the record is not made: its task has released its writes, and the error is counted (20 R405;
log 96). -/
def State.join (s : State) (d part : Nat) (graph : Option Nat) (loc va : Nat) : State :=
  let gr := graph.getD (s.memNat (recKey loc + 48) 4)
  if 2 ^ 80 ≤ loc then
    ({ s with nid := s.nid + 1, fabOut := s.fabOut ++ [.join (peerOf loc) (recPpart loc) (loc % 2 ^ 64) s.nid gr d va] } :
      State).request s.nid (peerOf loc) 1 0 0
  else if s.keyBad loc 64 then s.ierrUnc
  else
    let j := s.memNat (loc + 16) 4
    if j = 0 then (s.setReg d 0x62000 (s.reg d 0x62000 + 1)).report d (bareFault 3 gr 0 va)
    else
      let s1 := s.memWrite (loc + 16) (leBytes 4 (j - 1))
      if j = 1 ∧ s.memNat (loc + 20) 1 = 1 then
        let b := s1.memRead loc 64
        let pd := fieldAt b 30 1 % 4
        let seq := fieldAt b 24 6
        let p := ((s1.dep pd loc).map DEnt.part).getD part
        (s1.setSt pd loc seq 2).enqueue (18 * pd + fieldAt b 31 1 % 18) p (fieldAt b 21 1 % 16) loc
      else s1

/-- The end of phase 2 (14 R297, phase 3): STATE becomes 4 and the dependence-table entry is released. -/
def State.releaseTask (s : State) (g : Nat) (k : Task) : State :=
  let d := dieOf g
  let s1 := ((s.memWrite (k.loc + 20) [4#8]).modDeps d (fun l => l.filter (fun e => !(e.loc == k.loc && e.seq == k.seq)))).traceS
    g 0x02 0 k.va k.seq
  if (s1.nextEntry d).isSome then s1.due (.dependenceEntryGrant d) else s1

/-- The next line or tile of a W region at or after a cursor, and its place in the order of 14 R297. -/
def State.edgeNext (s : State) (g part : Nat) (r : Region) (tcur : Nat) : Option (Nat × (DLine ⊕ TLine)) :=
  if !bit r.acc 1 then none
  else if r.kind = 1 then
    let no (l : DLine) : Nat := l.va / 64 - r.base / 64
    (leastBy no ((s.core (coreOf g)).dc.filter (fun l => r.hasLine part l && l.dirty != 0 && decide (tcur ≤ no l)))).map
      (fun l => (no l, .inl l))
  else if r.kind = 0 then
    match s.lay part r.handle with
    | none => none
    | some l =>
      (leastBy (tileNo l r) ((SMap.get [] s.tiles (cluOf g)).filter (fun x =>
        s.tileMeets part r x && decide (tcur ≤ tileNo l r x)))).map (fun x => (tileNo l r x, .inr x))
  else none

/-- The tile has nowhere to be written back to: its peer has no route (21 R419). -/
def State.tileLost (s : State) (x : TLine) : Bool :=
  x.dirty != 0 && (match s.lay x.part x.handle with | some l => l.cached && !(l.peer.map s.routed).getD true | none => false)

/-- The address reported for a tile: the memory key of its first byte (log 75). -/
def State.tileAddr (s : State) (x : TLine) : Nat :=
  match s.lay x.part x.handle with | some l => l.byteKey x.pos 0 | none => 0

/-- The task is aborted with cause 0x21 in its own edge (14 R306). No bundle raises it: the record has PC after the bundle of `done`,
and TSL as a completed bundle leaves it (DESIGN CHOICE, log 102). -/
def State.edgeAbort (s : State) (g va : Nat) : State := s.abortTask g 0x21 0 va (mkTsl false 0 0xFF 0) false

/-- A step of phase 3 (14 R297, phase 2): one line, or one tile with its forwards, or the next region. An error on its dirty
bytes, or a peer without a route, aborts the task (14 R306, 21 R419). -/
def State.edgeStep (s : State) (g : Nat) (k : Task) : State :=
  let t := s.strand g
  let n := t.regions.length
  let i := if t.rix = 12 then n - 1 else t.rix
  let go (s : State) (ph rix tcur : Nat) : State := s.modStrand g (fun t => { t with cursor := mkCursor ph rix 0 tcur })
  match t.regions[i]? with
  | none => go (s.releaseTask g k) 4 0 0
  | some r =>
    match s.edgeNext g k.part r t.tcur with
    | some (o, .inl l) =>
      let here (x : DLine) : Bool := x.part == l.part && x.va == l.va
      if l.dirty &&& l.bad ≠ 0 then (s.dropLines (coreOf g) here).edgeAbort g l.va
      else go (s.wbLines (coreOf g) here false) 3 t.rix (o + 1)
    | some (o, .inr x) =>
      if x.dirty &&& x.bad ≠ 0 then
        (s.dropTiles (cluOf g) (fun y => y.isTile x.part x.handle x.pos)).edgeAbort g (s.tileAddr x)
      else if s.tileLost x then (s.edgeTile g k r x).edgeAbort g (s.tileAddr x)
      else go (s.edgeTile g k r x) 3 t.rix (o + 1)
    | none =>
      let j := if t.rix = 12 then 13 else if i + 2 = n then 12 else i + 1
      if j = 13 then go (s.releaseTask g k) 4 0 0 else go s 3 j 0

/-- The strand's outstanding stores and atomics are performed (14 R297, phase 1). -/
def State.settleOuts (s : State) (g : Nat) : State := s.performAll g (s.strand g).outs

/-- Every outstanding store and atomic of the strand has been sent where it needs a peer. -/
def State.outsReady (s : State) (g : Nat) : Bool := (s.strand g).outs.all (fun o => s.ready o.id)

/-- The data of a pending destination carries an error. -/
def State.pendBad (s : State) (g : Nat) (p : Pend) : Bool :=
  p.err.isSome || (p.val.isNone && (s.loadBad (coreOf g) (s.strand g).part 0 (p.pcs.flatMap cutPiece)).isSome)

/-- Data that has not arrived is discarded as it arrives, and an error in it is counted (07 R166, 08 R177). -/
def State.dropPends (s : State) (g : Nat) : State :=
  let s1 := ((s.strand g).pends.filter (s.pendBad g)).foldl (fun (s : State) _ => s.ierrUnc) s
  ((s.strand g).pends.foldl (fun (s : State) p => s.landed p.id) s1).modStrand g (fun t => { t with pends := [] })

/-- Phase 1 (14 R297): what the task has under way is settled. An error that a store or a command of it met, with no bundle of
it left to raise it (08 R183), aborts the task. -/
def State.edgeSettle (s : State) (g : Nat) : State :=
  let s1 := (s.settleOuts g).dropPends g
  match (s1.strand g).due with
  | some (c, va) =>
    s1.abortTask g c 0 (if va = noAddr then (s1.strand g).ctx.pc else va) (mkTsl false 0 0xFF 0) false
  | none => s1

/-- The last action of an edge: the strand becomes idle, and a replay is over (19 R396). -/
def State.endEdge (s : State) (g : Nat) : State :=
  let s1 := s.freeStrand g
  match s.replayAny g with
  | some (k, r) => s1.replayOver k r
  | none => s1

/-- A step of the end-of-task actions that leaves the task whole is followed by the next. -/
def State.edgeOn (s : State) (g : Nat) : State := if (s.strand g).abort.isSome then s else s.due (.endOfTaskActions g)

/-- END_OF_TASK_ACTIONS (14 R295, R297, R307): one step of the flush engine. What a step writes to a peer is sent before the next
is taken (21 R421). -/
def execEndOfTaskActions (g : Nat) (s : State) : Host.Outcome State Fault Refusal :=
  let t := s.strand g
  match t.task with
  | none => .next s
  | some k =>
    whenLive (decide (2 ≤ t.ph) && t.abort.isNone && s.served g && (t.ph != 2 || s.outsReady g) &&
        (t.ph != 3 || s.tilesSent (cluOf g))) (fun s =>
      match t.ph with
      | 2 =>
        let first := if t.regions.length = 1 then 12 else 0
        ((s.edgeSettle g).modStrand g (fun t => { t with cursor := mkCursor 3 first 0 0 })).edgeOn g
      | 3 => (if t.due.isSome then s.edgeSettle g else s.edgeStep g k).edgeOn g
      | _ =>
        match t.joins[t.jix]? with
        | some j =>
          ((s.join (dieOf g) k.part (some k.graph) j.1 j.2).modStrand g
            (fun t => { t with cursor := mkCursor 4 0 (t.jix + 1) 0 })).edgeOn g
        | none => s.endEdge g) s

/-- The last pass of a replay is over: the end-of-task actions follow (19 R396). -/
def State.replayLast (s : State) (g n : Nat) (r : Replay) : State :=
  ({ s with replays := SMap.put s.replays n { r with ended := true } } : State).askEdge g (.endOfTaskActions g)

/-- REPLAY_PASS_END (19 R396): the conditions of `done` hold in a replayed task. Before the last pass the task's writes are
undone and it runs again from its entry; after it the end-of-task actions follow. What a restore writes behind fabric windows is first
sent (21 R417); an error in what Compare, the restore or the new start read is one in data of the task (20 R405; log 96). -/
def execReplayPassEnd (g : Nat) (s : State) : Host.Outcome State Fault Refusal :=
  let t := s.strand g
  match t.task, s.replayAny g with
  | some k, some (n, r) =>
    whenLive (t.ph == 2 && t.abort.isNone && !(s.edgeQ.contains g) && s.outsReady g) (fun s =>
      if r.once || r.ended then s.askEdge g (.endOfTaskActions g)
      else if r.pass < bits (s.rp n 8) 6 4 && !s.farAsked g k.part t.regions then
        (if t.asks.any (fun a => a.1 == noAddr) then s else (s.askFar g k.part t.regions true).due (.replayPassEnd g))
      else
        let s0 := (s.edgeSettle g).askOver g noAddr
        if (s0.strand g).abort.isSome then s0
        else if let some va := s0.compareBad n r then s0.edgeAbort g va
        else
          let s1 := s0.storePass g n (SMap.get r s0.replays n)
          let q : Replay := SMap.get r s1.replays n
          if bits (s1.rp n 8) 6 4 ≤ r.pass then s1.replayLast g n q
          else if let some va := s1.restoreBad k.part n t.regions then s1.edgeAbort g va
          else if let some x := s1.badAt 0 [⟨k.va, k.loc, 16, .ms⟩] then s1.edgeAbort g x.2
          else
            let s2 := (((s1.discardSet g k.part t.regions).restore g k.part n t.regions).resetCaches g k.part
              t.regions).passCounters g k.part n (r.pass + 1)
            let r2 : Replay := { q with pass := r.pass + 1, hash := 0#64, nret := 0 }
            let b := s2.memRead k.loc 16
            let s3 : State := { s2 with replays := SMap.put s2.replays n r2 }
            ((s3.setStrand g (s3.entry k t.regions (fieldAt b 0 8) (fieldAt b 8 8))).modCore (coreOf g)
              (fun c => { c with results := c.results.filter (fun x => x.strand != g) })).askEdge g (.startOfTaskActions g)) s
  | _, _ => .next s

-- Aborts (14 R303).

/-- The fault record of an abort (14 R305): the cause in TCR, with HND where a handler raised it (06 R138); where a second trap cause
has ended the task (06 R146) the first in TCR and the second in TCR2. -/
def abortRec (g : Nat) (t : Strand) (a : Abort) : FaultRec :=
  let pc := faultPc a.cause a.addr t.ctx.pc
  let w := BitVec.ofNat 64 a.addr
  if a.second then strandFault 1 g t t.tcr t.tar (mkTcr a.cause a.detail true) w pc a.tsl.toNat
  else strandFault 1 g t (mkTcr a.cause a.detail t.hmode) w 0#64 0#64 pc a.tsl.toNat

/-- Steps 3 to 5 of 14 R303 for a strand; `quiet` for a DISPOSE. -/
def State.takeDown (s : State) (g : Nat) (t : Strand) (k : Task) (rec? : Option FaultRec) : State :=
  let s1 := ((s.settleOuts g).dropPends g).discardSet g k.part t.regions
  let s2 := match s.replayOf g with
    | some (n, r) => (if r.waits then s1 else s1.restore g k.part n t.regions).rpErr n 0x81
    | none => s1
  let s3 := (s2.setSt (dieOf g) k.loc k.seq 5).traceS g 0x03 0 k.va (((rec?.map FaultRec.tcr).getD 0#64).toNat % 256)
  let s4 := s3.endEdge g
  match rec? with
  | some r => s4.report (dieOf g) r
  | none => s4

/-- The take-down of a strand restores the capture of a replay, and has yet to ask peers for it (19 R397, 21 R417). -/
def State.restoreWaits (s : State) (g : Nat) (t : Strand) (k : Task) : Bool :=
  match s.replayOf g with | some (_, r) => !r.waits && !s.farAsked g k.part t.regions | none => false

/-- TASK_ABORT (14 R303): once the strand's launched commands are complete. -/
def execTaskAbort (g : Nat) (s : State) : Host.Outcome State Fault Refusal :=
  let t := s.strand g
  match t.abort, t.task with
  | some a, some k =>
    whenLive (!s.busyCmds g && s.outsReady g) (fun s =>
      if s.restoreWaits g t k then s.askFar g k.part t.regions true
      else s.takeDown g t k (if a.cause = 0 then none else some (abortRec g t a))) s
  | _, _ => .next s

end Sys2Proof.Machine
end

