-- ==== Sys2Proof/Machine/Streams.lean ====
section
/-! DEFINITION. The command processors (15 R318-R322): command streams, their commands, DISPOSE, the fault queue, and the
doorbells and messages of the host (21 R410, R411). -/

namespace Sys2Proof.Machine

/-- A register of a stream (15 R318): CSBASE 0, CSSIZE 8, CSRD 16, CSWR 24, CSCTL 32, CSST 40. -/
def State.cs (s : State) (d n o : Nat) : Nat := s.reg d (0x10000 + 0x100 * n + o)
/-- A register of a stream set. -/
def State.setCs (s : State) (d n o v : Nat) : State := s.setReg d (0x10000 + 0x100 * n + o) v
/-- The partition of a stream. -/
def State.csPart (s : State) (d n : Nat) : Nat := s.cs d n 32 % 256

/-- The stream halts with an error (15 R319), and vector 4 + die is sent (21 R411). -/
def State.csHalt (s : State) (d n e : Nat) : State := (s.setCs d n 40 (e * 256 + 1)).msix (4 + d)

/-- Linear pieces by a walk of a partition's tables alone, page by page. -/
def State.procPieces (s : State) (part perm : Nat) : Nat → Nat → Nat → Option (List Piece)
  | 0, _, _ => some []
  | f + 1, va, n =>
    if n = 0 then some []
    else match s.walkFrom part va (s.preg part 8) walkLevels with
      | none => none
      | some t =>
        if t.perm &&& perm ≠ perm then none
        else
          let m := min n (t.va + t.size - va)
          (State.procPieces s part perm f (va + m) (n - m)).map (fun l =>
            ⟨va, t.key + (va - t.va), m, if t.win ≠ 0 then .window else .ms⟩ :: l)

/-- An address that a stream or its command names (15 R318): through the tables of the partition, or a vault. No vault is
the processor's own. -/
def State.csPieces (s : State) (part va n perm : Nat) : Option (List Piece) :=
  if !bit (s.preg part 0) 0 || decide (2 ^ 57 ≤ va) then none
  else if inAperture va then (vaultAt 72 va n).map (fun v => [⟨va, vaultKey v.1 v.2, n, .lateral⟩])
  else s.procPieces part perm (n / 65536 + 2) va n

/-- A 64-bit word that a stream or its command reads. One whose check is wrong is no address that translates, and yet halts the
stream as such a one does: DESIGN CHOICE, log 81. -/
def State.csWord (s : State) (part va : Nat) : Option Nat :=
  match s.csPieces part va 8 1 with
  | some ps => if (s.badAt 0 ps).isSome then none else some (leNat (s.loadBelow ps))
  | none => none

/-- The location of a record that a command names: none behind a host window. -/
def State.csRecord (s : State) (part va : Nat) : Option Nat :=
  match s.csPieces part va 512 3 with
  | some (p :: _) =>
    if p.cls = .window ∧ p.key < 2 ^ 80 then none
    else some (recLoc (((s.walkFrom part va (s.preg part 8) walkLevels).map Tlb.ppart).getD 0) p.key)
  | _ => none

/-- A word of the ring, `i` words after CSRD. -/
def State.ringWord (s : State) (d n i : Nat) : Option Nat :=
  s.csWord (s.csPart d n) (s.cs d n 0 + (s.cs d n 16 + 8 * i) % s.cs d n 8)

/-- Words of the ring from CSRD up to CSWR. -/
def State.ringAvail (s : State) (d n : Nat) : Nat :=
  let z := s.cs d n 8
  if z = 0 then 0 else (s.cs d n 24 + z - s.cs d n 16) % z / 8

/-- Words of the ring after the first, at most `k`. -/
def State.ringWords (s : State) (d n : Nat) : Nat → Nat → Option (List Nat)
  | _, 0 => some []
  | i, k + 1 =>
    match s.ringWord d n i, State.ringWords s d n (i + 1) k with
    | some w, some l => some (w :: l)
    | _, _ => none

/-- What a stream finds at CSRD: nothing to do yet, an error code, or a command. -/
inductive CsNext where
  | wait
  | err (e : Nat)
  | cmd (i : Instr)
  deriving DecidableEq, Repr

/-- The word count of an operation code. -/
def csLen (opc : Nat) : Nat :=
  match opc with
  | 1 => 2 | 2 => 3 | 3 => 2 | 4 => 3 | 5 => 3 | 7 => 3 | 8 => 2 | _ => 1

/-- A command decoded (15 R320) from its words; error 0x51 where it is malformed. -/
def csDecode (d n : Nat) (w0 : Nat) (ws : List Nat) : CsNext :=
  let a := ws.getD 0 0
  let b := ws.getD 1 0
  let f := w0 / 65536
  let q (x : Nat) : BitVec 64 := BitVec.ofNat 64 x
  let ok (p : Bool) (i : Instr) : CsNext := if p then .cmd i else .err 0x51
  match w0 % 256 with
  | 0 => ok (f == 0) (.streamNop d n)
  | 1 => ok (f == 0 && a % 512 == 0) (.launch d n (q a))
  | 2 => ok (decide (f < 2 ^ 16) && f != 0 && a % 512 == 0 && b % 8 == 0) (.launchn d n (BitVec.ofNat 16 f) (q a) (q b))
  | 3 => ok (decide (f < 2 ^ 17) && f % 2 ^ 16 != 0 && (!bit f 16 || a % 8 == 0))
      (.streamLoop d n (BitVec.ofNat 16 f) (BitVec.ofNat 1 (f / 2 ^ 16)) (q a))
  | 4 => ok (decide (bits f 2 0 ≤ 5) && bits f 15 3 == 0 && decide (f < 2 ^ 32) && a % 8 == 0)
      (.streamSkip d n (BitVec.ofNat 3 f) (BitVec.ofNat 16 (f / 2 ^ 16)) (q a) (q b))
  | 5 => ok (decide (f ≤ 5) && a % 8 == 0) (.waitv d n (BitVec.ofNat 3 f) (q a) (q b))
  | 6 => ok (decide (f < 2 ^ 32)) (.waitg d n (BitVec.ofNat 32 f))
  | 7 => ok (f == 0 && a % 8 == 0) (.streamWrite d n (q a) (q b))
  | 8 => ok (f == 0 && a % 512 == 0) (.streamJoin d n (q a))
  | _ => ok (decide (f < 2 ^ 33))
      (if bit f 32 then .disposeRelease d n (BitVec.ofNat 32 f) else .disposeTakedown d n (BitVec.ofNat 32 f))

/-- A launch of the stream waits for a peer (21 R420). -/
def State.launching (s : State) (d n : Nat) : Bool := s.launches.any (fun x => x.die == d && x.stream == n)

/-- What the stream finds at CSRD (15 R320). -/
def State.csNext (s : State) (d n : Nat) : CsNext :=
  let k := s.ringAvail d n
  if !s.up || !s.dieAwake d || !bit (s.cs d n 32) 8 || bit (s.cs d n 40) 0 || k == 0 || s.launching d n then .wait
  else match s.ringWord d n 0 with
    | none => .err 0x54
    | some w0 =>
      if 9 < w0 % 256 then .err 0x50
      else if bits w0 15 8 ≠ csLen (w0 % 256) then .err 0x51
      else if k < csLen (w0 % 256) then .wait
      else match s.ringWords d n 1 (csLen (w0 % 256) - 1) with
        | none => .err 0x54
        | some ws => csDecode d n w0 ws

-- What a stream reads and writes behind fabric windows (21 R417).

/-- The operand word of a stream command: its address, and whether it is read (1) or written (2). -/
def csOperand : Instr → Option (Nat × Nat)
  | .launchn _ _ _ _ a => some (a.toNat, 1)
  | .streamLoop _ _ _ i a => if i = 1#1 then some (a.toNat, 1) else none
  | .streamSkip _ _ _ _ a _ => some (a.toNat, 1)
  | .waitv _ _ _ a _ => some (a.toNat, 1)
  | .streamWrite _ _ a _ => some (a.toNat, 2)
  | _ => none

/-- The pieces behind fabric windows of the words of the command at CSRD, and of its operand, with whether that is written. -/
def State.csFar (s : State) (d n : Nat) : List Piece × List Piece × Bool :=
  let p := s.csPart d n
  let at_ (i : Nat) : List Piece := (s.csPieces p (s.cs d n 0 + (s.cs d n 16 + 8 * i) % s.cs d n 8) 8 1).getD []
  let len := match s.ringWord d n 0 with | some w => min (csLen (w % 256)) (s.ringAvail d n) | none => 0
  let op := match s.csNext d n with | .cmd i => csOperand i | _ => none
  (farPieces ((List.range len).flatMap at_),
    match op with
    | some (a, k) => (farPieces ((s.csPieces p a 8 k).getD []), k == 2)
    | none => ([], false))

/-- What the stream has found may be acted on: nothing of it lies behind a fabric window, or its requests have been sent. -/
def State.csReady (s : State) (d n : Nat) : Bool :=
  let f := s.csFar d n
  (f.1.isEmpty && f.2.1.isEmpty) || (match SMap.look s.asks (8 * d + n) with | some id => s.ready id | none => false)

/-- The words of the command at CSRD and its operand are asked of their peers, unless they have been. -/
def State.csAsk (s : State) (d n : Nat) : State :=
  if (SMap.look s.asks (8 * d + n)).isSome then s
  else
    let f := s.csFar d n
    (({ s with nid := s.nid + 1, asks := SMap.put s.asks (8 * d + n) s.nid } : State).requestPieces s.nid false f.1).requestPieces
      s.nid f.2.2 f.2.1

/-- A request that a command processor has waited for is over. -/
def State.csAskOver (s : State) (k : Nat) : State :=
  match SMap.look s.asks k with
  | none => s
  | some id => ({ s with asks := s.asks.filter (fun e => e.1 != k) } : State).landed id

/-- A stream acts on what it has found, once what lies behind fabric windows has been asked for. -/
def State.csAct (s : State) (d n : Nat) (f : State → State) : State :=
  if s.csReady d n then f (s.csAskOver (8 * d + n)) else s.csAsk d n

/-- The ends of loop bodies that CSRD has reached: the new CSRD and the open loops (15 R320). -/
def loopEnd (size rd : Nat) : List LoopF → Nat × List LoopF
  | [] => (rd, [])
  | f :: l =>
    if (rd + size - f.start) % size < f.len then (rd, f :: l)
    else if 1 < f.left then (f.start, { f with left := f.left - 1 } :: l)
    else loopEnd size rd l

/-- The open loops of a stream. -/
def State.csLoops (s : State) (d n : Nat) : List LoopF := SMap.get [] s.loops (8 * d + n)

/-- A command completes: CSRD moves past `k` words. -/
def State.csAdvance (s : State) (d n k : Nat) : State :=
  let z := s.cs d n 8
  let r := loopEnd z ((s.cs d n 16 + 8 * k) % z) (s.csLoops d n)
  { s.setCs d n 16 r.1 with loops := SMap.set [] s.loops (8 * d + n) r.2 }

/-- A stream command runs when it is what the stream finds at CSRD, and its words and operand are there. -/
def onCmd (d n : Nat) (i : Instr) (f : State → State) (s : State) : Host.Outcome State Fault Refusal :=
  .next (if s.csNext d n = .cmd i then s.csAct d n f else s)

/-- NOP of a stream. -/
def execStreamNop (d n : Nat) (s : State) : Host.Outcome State Fault Refusal :=
  onCmd d n (.streamNop d n) (fun s => s.csAdvance d n 1) s

/-- The fault record of a launch that failed. -/
def State.launchFail (s : State) (d graph code va : Nat) : State := if code = 0 then s else s.report d (bareFault 4 graph code va)

/-- Records launched in order (15 R320): a failure gives a fault record of kind 4. A record behind a fabric window leaves as a
job card (21 R420), and the stream waits until the peer has registered it. -/
def State.launchAll (s : State) (d n words : Nat) : List (Nat × Nat) → State
  | [] => s.csAdvance d n words
  | (loc, va) :: l =>
    let gr := s.memNat (recKey loc + 48) 4
    if 2 ^ 80 ≤ loc then
      ({ s with nid := s.nid + 1, launches := s.launches ++ [⟨d, n, s.nid, gr, va, l, words, false⟩] } : State).sendCard s.nid loc
    else
      let r := s.register (s.csPart d n) d none loc va
      State.launchAll (r.1.launchFail d gr r.2.1 va) d n words l

/-- The peer has registered a record of a launch, or the launch of it has failed; what follows is launched. -/
def State.launchDone (s : State) (x : StreamLaunch) (code : Nat) : State :=
  ((({ s with launches := s.launches.filter (fun y => y.id != x.id) } : State).landed x.id).launchFail x.die x.graph code
    x.va).launchAll x.die x.stream x.words x.todo

/-- LAUNCH. -/
def execLaunch (d n : Nat) (r : BitVec 64) (s : State) : Host.Outcome State Fault Refusal :=
  onCmd d n (.launch d n r) (fun s =>
    match s.csRecord (s.csPart d n) r.toNat with
    | none => s.csHalt d n 0x54
    | some loc => s.launchAll d n 2 [(loc, r.toNat)]) s

/-- The locations of `k` records at 512-byte steps; `none` when one does not translate. -/
def State.csRecords (s : State) (part : Nat) : Nat → Nat → Option (List (Nat × Nat))
  | 0, _ => some []
  | k + 1, va =>
    match s.csRecord part va, State.csRecords s part k (va + 512) with
    | some loc, some l => some ((loc, va) :: l)
    | _, _ => none

/-- LAUNCHN. -/
def execLaunchn (d n : Nat) (m : BitVec 16) (r a : BitVec 64) (s : State) : Host.Outcome State Fault Refusal :=
  onCmd d n (.launchn d n m r a) (fun s =>
    match s.csWord (s.csPart d n) a.toNat with
    | none => s.csHalt d n 0x54
    | some k =>
      if m.toNat < k then s.csHalt d n 0x52
      else match s.csRecords (s.csPart d n) k r.toNat with
        | none => s.csHalt d n 0x54
        | some l => s.launchAll d n 3 l) s

/-- LOOP: a body that would run past CSWR waits for the doorbell. -/
def execStreamLoop (d n : Nat) (b : BitVec 16) (i : BitVec 1) (a : BitVec 64) (s : State) :
    Host.Outcome State Fault Refusal :=
  onCmd d n (.streamLoop d n b i a) (fun s =>
    match (if i = 1#1 then s.csWord (s.csPart d n) a.toNat else some a.toNat) with
    | none => s.csHalt d n 0x54
    | some k =>
      if 4 ≤ (s.csLoops d n).length then s.csHalt d n 0x53
      else if s.ringAvail d n < 2 + b.toNat then s
      else if k = 0 then s.csAdvance d n (2 + b.toNat)
      else
        let st := (s.cs d n 16 + 16) % s.cs d n 8
        { s.setCs d n 16 st with
          loops := SMap.set [] s.loops (8 * d + n) (⟨st, 8 * b.toNat, k⟩ :: s.csLoops d n) }) s

/-- Cond of a stream (15 R320): the codes of `acmp`. -/
def csCond (c x v : Nat) : Bool :=
  match c with
  | 0 => x == v
  | 1 => x != v
  | 2 => decide (x < v)
  | 3 => decide (x ≤ v)
  | 4 => decide (v < x)
  | _ => decide (v ≤ x)

/-- SKIP. -/
def execStreamSkip (d n : Nat) (c : BitVec 3) (b : BitVec 16) (a v : BitVec 64) (s : State) :
    Host.Outcome State Fault Refusal :=
  onCmd d n (.streamSkip d n c b a v) (fun s =>
    match s.csWord (s.csPart d n) a.toNat with
    | none => s.csHalt d n 0x54
    | some x =>
      if csCond c.toNat x v.toNat then
        (if s.ringAvail d n < 3 + b.toNat then s else s.csAdvance d n (3 + b.toNat))
      else s.csAdvance d n 3) s

/-- The word of a WAITV is read: the stream goes on, waits, or halts. -/
def State.tryWaitv (s : State) (d n : Nat) (c : BitVec 3) (a v : BitVec 64) : State :=
  match s.csWord (s.csPart d n) a.toNat with
  | none => s.csHalt d n 0x54
  | some x => if csCond c.toNat x v.toNat then s.csAdvance d n 3 else s

/-- WAITV: the word is read. -/
def execWaitv (d n : Nat) (c : BitVec 3) (a v : BitVec 64) (s : State) : Host.Outcome State Fault Refusal :=
  onCmd d n (.waitv d n c a v) (fun s => s.tryWaitv d n c a v) s

/-- WAITV_SATISFIED: the word of the WAITV at CSRD is read again. -/
def execWaitvSatisfied (d n : Nat) (s : State) : Host.Outcome State Fault Refusal :=
  .next (match s.csNext d n with | .cmd (.waitv _ _ c a v) => s.csAct d n (fun s => s.tryWaitv d n c a v) | _ => s)

/-- Every image of a strand that is saved away from its core: in shadow storage or a save area (18 R374). -/
def State.savedStrands (s : State) : List Strand :=
  s.cores.flatMap (fun c => match c.2.shadow with | some (_, l) => l | none => []) ++ s.images.map (fun i => i.2.2)

/-- The strand raises 0x21 at its next bundle (08 R183). -/
def noteDue (va : Nat) (t : Strand) : Strand := { t with due := match t.due with | some d => some d | none => some (0x21, va) }

/-- The saved images that satisfy a test raise 0x21 at their next bundle. -/
def State.noteSaved (s : State) (p : Strand → Bool) (va : Nat) : State :=
  let mark (t : Strand) : Strand := if p t then noteDue va t else t
  let core (k : Core) : Core := { k with shadow := k.shadow.map (fun x => (x.1, x.2.map mark)) }
  { s with
    cores := s.cores.map (fun c => (c.1, core c.2))
    images := s.images.map (fun i => (i.1, i.2.1, mark i.2.2)) }

/-- The strand runs the task of an entry. -/
def Strand.runs (t : Strand) (e : DEnt) : Bool := match t.task with | some k => k.loc == e.loc && k.seq == e.seq | none => false

/-- The strand stands in the double-fault state (06 R145). -/
def Strand.doubled (t : Strand) : Bool := t.run == .stopped && bit t.tcr2.toNat 8

/-- The task of an entry has been aborted, or its strand stands in the double-fault state. -/
def State.broken (s : State) (e : DEnt) : Bool :=
  e.st == 5 || (e.st == 3 && (s.strands.any (fun t => t.2.runs e && t.2.doubled) || s.savedStrands.any (fun t => t.runs e && t.doubled)))

/-- The entries of a die for a graph of a partition. -/
def State.graphOf (s : State) (d part graph : Nat) : List DEnt :=
  (SMap.get [] s.deps d).filter (fun e => e.part == part && e.graph == graph)

/-- The tasks of a WAITG are looked at: error 0x60, the next command, or a wait (15 R320). -/
def State.tryWaitg (s : State) (d n : Nat) (q : BitVec 32) : State :=
  let l := s.graphOf d (s.csPart d n) q.toNat
  if l.any s.broken then s.csHalt d n 0x60 else if l.isEmpty then s.csAdvance d n 1 else s

/-- WAITG. -/
def execWaitg (d n : Nat) (q : BitVec 32) (s : State) : Host.Outcome State Fault Refusal :=
  onCmd d n (.waitg d n q) (fun s => s.tryWaitg d n q) s

/-- WAITG_DONE: the tasks of the WAITG at CSRD are looked at again. -/
def execWaitgDone (d n : Nat) (s : State) : Host.Outcome State Fault Refusal :=
  .next (match s.csNext d n with | .cmd (.waitg _ _ q) => s.tryWaitg d n q | _ => s)

/-- WRITE. -/
def execStreamWrite (d n : Nat) (a v : BitVec 64) (s : State) : Host.Outcome State Fault Refusal :=
  onCmd d n (.streamWrite d n a v) (fun s =>
    match s.csPieces (s.csPart d n) a.toNat 8 2 with
    | none => s.csHalt d n 0x54
    | some ps => (s.storeBelow ps (leBytes 8 v.toNat)).csAdvance d n 3) s

/-- JOIN: one whose record stands behind a fabric window is complete once its decrement has been sent (21 R420). -/
def execStreamJoin (d n : Nat) (r : BitVec 64) (s : State) : Host.Outcome State Fault Refusal :=
  onCmd d n (.streamJoin d n r) (fun s =>
    match s.csRecord (s.csPart d n) r.toNat with
    | none => s.csHalt d n 0x54
    | some loc =>
      let s1 := s.join d (s.csPart d n) none loc r.toNat
      if 2 ^ 80 ≤ loc then { s1 with launches := s1.launches ++ [⟨d, n, s.nid, 0, r.toNat, [], 2, true⟩] }
      else s1.csAdvance d n 2) s

/-- A stream whose JOIN is over goes on. -/
def State.joinDone (s : State) (x : StreamLaunch) : State :=
  (({ s with launches := s.launches.filter (fun y => y.id != x.id) } : State).landed x.id).csAdvance x.die x.stream x.words

/-- The JOINs of a stream whose decrement has been sent are over. -/
def State.joinsSent (s : State) (d n : Nat) : State :=
  (s.launches.filter (fun x => x.die == d && x.stream == n && x.join && s.ready x.id)).foldl State.joinDone s

-- DISPOSE (15 R321).

/-- A live strand that runs the task of an entry. -/
def State.liveStrand (s : State) (e : DEnt) : Option Nat := (s.strands.find? (fun t => t.2.runs e)).map Prod.fst

/-- The saved image that holds the task of an entry: its strand number and itself. -/
def State.savedStrand (s : State) (e : DEnt) : Option (Nat × Strand) :=
  let sh := s.cores.flatMap (fun c => match c.2.shadow with
    | some (_, l) => (l.zip (List.range 4)).map (fun x => (4 * c.1 + x.2, x.1))
    | none => [])
  (sh ++ s.images.map (fun i => (i.2.1, i.2.2))).find? (fun x => x.2.runs e)

/-- Saved images that hold the task of an entry are discarded, with its parked commands. -/
def State.dropSaved (s : State) (e : DEnt) : State :=
  let who := (s.savedStrand e).map Prod.fst
  let clear (t : Strand) : Strand := if t.runs e then {} else t
  let core (c : Core) : Core :=
    { c with shadow := c.shadow.map (fun x => (x.1, x.2.map clear)),
             parked := c.parked.filter (fun x => !(x.1 == e.part && some x.2.strand == who)) }
  { s with
    cores := s.cores.map (fun c => (c.1, core c.2))
    images := s.images.filter (fun i => !i.2.2.runs e) }

/-- A task whose strand is saved is taken down in place (15 R321): its image is discarded, and a replay of it ends with error 0x81
after its memory is restored (19 R397). -/
def State.takeSaved (s : State) (d g : Nat) (t : Strand) (e : DEnt) : State :=
  let s1 := s.discardSet g e.part t.regions
  let s2 := match s.replayFor g e.part with
    | some (k, r) =>
      (if r.once then s1 else (if r.waits then s1 else s1.restore g e.part k t.regions).rpErr k 0x81).replayOver k r
    | none => s1
  ((s2.setSt d e.loc e.seq 5).dropSaved e).trace (cluOf g) 0x03 (coreOf g % 16) (g % 4) e.part 0 e.va 0

/-- The take-down of a saved task restores the capture of a replay behind fabric windows, and its requests have yet to be sent
(21 R417). -/
def State.savedWaits (s : State) (g : Nat) (t : Strand) (part : Nat) : Bool :=
  match s.replayFor g part with
  | none => false
  | some (_, r) => !r.once && !r.waits && !(s.wsetFar g part t.regions).isEmpty &&
      !(match SMap.look s.asks (64 + 256 * g + part) with | some id => s.ready id | none => false)

/-- What the take-down of a saved task restores is asked of its peers, unless it has been. -/
def State.askSaved (s : State) (g : Nat) (t : Strand) (part : Nat) : State :=
  if (SMap.look s.asks (64 + 256 * g + part)).isSome then s
  else ({ s with nid := s.nid + 1, asks := SMap.put s.asks (64 + 256 * g + part) s.nid } : State).requestFar s.nid g part t.regions true

/-- One task of the graph taken down; the trace record of one that has not started names its cluster (19 R390). -/
def State.takeEntry (d : Nat) (s : State) (e : DEnt) : State :=
  if e.st = 1 ∨ e.st = 2 then
    (((List.range 18).map (18 * d + ·)).foldl (State.unqueueLoc e.loc) (s.setSt d e.loc e.seq 5)).trace (18 * d + e.clu) 0x03 0 0
      e.part 0 e.va 0
  else if e.st = 3 then
    match s.liveStrand e with
    | some g => if (s.strand g).abort.isSome then s else s.abortTask g 0 0 0 0#64 false
    | none =>
      match s.savedStrand e with
      | some (g, t) =>
        if s.savedWaits g t e.part then s.askSaved g t e.part
        else (s.csAskOver (64 + 256 * g + e.part)).takeSaved d g t e
      | none => s.setSt d e.loc e.seq 5
  else s

/-- DISPOSE with `M` = 0: it completes once every task of the graph has been taken down. -/
def execDisposeTakedown (d n : Nat) (q : BitVec 32) (s : State) : Host.Outcome State Fault Refusal :=
  onCmd d n (.disposeTakedown d n q) (fun s =>
    let s1 := (s.graphOf d (s.csPart d n) q.toNat).foldl (State.takeEntry d) s
    if (s1.graphOf d (s.csPart d n) q.toNat).all (fun e => e.st == 5) then s1.csAdvance d n 1 else s1) s

/-- DISPOSE with `M` = 1: the entries of aborted tasks are released. -/
def execDisposeRelease (d n : Nat) (q : BitVec 32) (s : State) : Host.Outcome State Fault Refusal :=
  onCmd d n (.disposeRelease d n q) (fun s =>
    let p := s.csPart d n
    let s1 := s.modDeps d (fun l => l.filter (fun e => !(e.part == p && e.graph == q.toNat && e.st == 5)))
    (if (s1.nextEntry d).isSome then s1.due (.dependenceEntryGrant d) else s1).csAdvance d n 1) s

-- Doorbells and the fault queue (15 R318, R322).

/-- CSWR written (15 R318): a value that is refused halts the stream. -/
def State.doorbell (s : State) (d n v : Nat) : State :=
  if v % 8 ≠ 0 ∨ s.cs d n 8 ≤ v then s.csHalt d n 0x55 else s.setCs d n 24 v

/-- CSWR_DOORBELL (15 R318). -/
def execCswrDoorbell (d n : Nat) (v : BitVec 64) (s : State) : Host.Outcome State Fault Refusal :=
  .next (s.doorbell (d % 4) (n % 8) v.toNat)

/-- DBELL (21 R410). -/
def execDbell (v : BitVec 64) (s : State) : Host.Outcome State Fault Refusal :=
  let n := v.toNat
  .next (s.doorbell (bits n 39 38) (bits n 37 35) (bits n 23 0))

/-- CSST_HALT_CLEAR (15 R319): ERR clears with HALT, and the stream resumes at CSRD. -/
def execCsstHaltClear (d n : Nat) (s : State) : Host.Outcome State Fault Refusal :=
  .next (if bit (s.cs (d % 4) (n % 8) 40) 0 then s.setCs (d % 4) (n % 8) 40 0 else s)

/-- The key of a device physical address as the processors reach it: in HBM, or through the lowest enabled window that covers it
(21 R414), which must grant the access (1 read, 2 write) and have a route. -/
def State.paKey (s : State) (pa perm : Nat) : Option Nat :=
  if pa < 2 ^ 39 then some pa
  else match s.winFor pa with
    | none => none
    | some w =>
      let c := s.win w 24
      let off := pa - s.win w 0
      if (bits c 2 1 &&& perm) ≠ perm then none
      else if bit c 4 then
        (if s.routed (bits c 35 24) then some (2 ^ 80 * (bits c 35 24 + 1) + (s.win w 16 + off) % 2 ^ 40) else none)
      else some (2 ^ 70 + (s.win w 16 + off) % 2 ^ 64)

/-- The fault queue of a die can be reached (15 R318): it lies within one stack, or some enabled window covers it. -/
def State.queueOk (s : State) (d : Nat) : Bool :=
  let b := s.reg d 0
  let n := 64 * s.reg d 8
  if b < 2 ^ 39 then b / 2 ^ 36 == (b + n - 1) / 2 ^ 36
  else (List.range 32).any (fun w => bit (s.win w 24) 0 && decide (s.win w 0 ≤ b) && decide (b + n ≤ s.win w 0 + s.win w 8))

/-- The bytes of a fault record (14 R305). -/
def faultBytes (r : FaultRec) : List Byte :=
  leBytes 1 r.kind ++ leBytes 1 (if r.sv then 1 else 0) ++ leBytes 2 r.strand ++ leBytes 4 r.graph ++
  leBytes 8 r.tcr.toNat ++ leBytes 8 r.tar.toNat ++ leBytes 8 r.tcr2.toNat ++ leBytes 8 r.tar2.toNat ++
  leBytes 8 r.pc ++ leBytes 4 r.tsl ++ leBytes 4 0 ++ leBytes 8 r.va

/-- Where the next fault record of a die goes; `none` while records wait (15 R318). -/
def State.faultSlot (s : State) (d : Nat) : Option Nat :=
  let size := s.reg d 8
  let wr := s.reg d 16
  if size = 0 ∨ wr = (s.reg d 24 + size) % 2 ^ 64 ∨ s.queueOk d = false then none
  else s.paKey (s.reg d 0 + 64 * (wr % size)) 2

/-- FAULT_RECORD_APPEND (15 R322): the oldest record of the die, then the message of vector `d`. One that goes through a fabric window
is first sent to its peer (21 R417). -/
def execFaultRecordAppend (d : Nat) (s : State) : Host.Outcome State Fault Refusal :=
  match SMap.get [] s.faults d, s.faultSlot d with
  | r :: l, some a =>
    whenUp (s.dieAwake d) (fun s =>
      let go (s : State) : State :=
        ((({ s with faults := SMap.put s.faults d l } : State).memWrite a (faultBytes r)).setReg d 16 (s.reg d 16 + 1)).msix d
      if a < 2 ^ 80 then go s
      else match SMap.look s.asks (32 + d) with
        | none => ({ s with nid := s.nid + 1, asks := SMap.put s.asks (32 + d) s.nid } : State).request s.nid (peerOf a) 1 0 64
        | some id => if s.ready id then go (s.csAskOver (32 + d)) else s) s
  | _, _ => .next s

/-- MSIX_UNMASK (21 R411): a pending vector sends once. -/
def execMsixUnmask (v : Nat) (s : State) : Host.Outcome State Fault Refusal :=
  let s1 : State := { s with msixMask := s.msixMask - (if s.msixMask.testBit v then 2 ^ v else 0) }
  .next (if s1.msixPend.testBit v then
    { s1 with msixPend := s1.msixPend - 2 ^ v, msixSent := s1.msixSent ++ [v] } else s1)

end Sys2Proof.Machine
end

