-- ==== Sys2Proof/Machine/Package.lean ====
section
/-! DEFINITION. What acts on the whole package: translation invalidation (16 R325), the layout port (16 R331), the fabric
handle table (21 R421) and writes of the global step (17 R343). -/

namespace Sys2Proof.Machine

-- Translation invalidation (16 R325).

/-- An address lies in the range of the invalidation; length 0 is every address. -/
def tiHit (va len a : Nat) : Bool := len == 0 || (decide (va ≤ a) && decide (a < va + len))

/-- A translation of the partition meets the range. -/
def Tlb.tiMeets (t : Tlb) (part va len : Nat) : Bool :=
  t.part == part && (len == 0 || rangesMeet t.va t.size va len)

/-- Translations of the range are dropped, its lines in every data cache written back and invalidated. -/
def State.invalidate (s : State) (part : Nat) : State :=
  let va := s.reg 0 0x34000
  let len := s.reg 0 0x34008
  let s1 : State := { s with
    cores := s.cores.map (fun c => (c.1, { c.2 with utlb := c.2.utlb.filter (fun t => !t.tiMeets part va len) }))
    ctlb := s.ctlb.map (fun u => (u.1, u.2.filter (fun t => !t.tiMeets part va len))) }
  (s1.cores.map Prod.fst).foldl (fun (s : State) c =>
    s.wbLines c (fun l => l.part == part && tiHit va len l.va) true) s1

/-- TICTL_GO: ignored while an invalidation is in progress. The range is that of the registers as GO is written. -/
def execTictlGo (p : BitVec 8) (s : State) : Host.Outcome State Fault Refusal :=
  .next (if bit (s.reg 0 0x34010) 9 then s
    else ((s.invalidate p.toNat).setReg 0 0x34010 (512 + p.toNat)).due .translationInvalidationDone)

/-- TRANSLATION_INVALIDATION_DONE: what was filled again since GO is dropped too, and BUSY clears. -/
def execTranslationInvalidationDone (s : State) : Host.Outcome State Fault Refusal :=
  whenUp (bit (s.reg 0 0x34010) 9) (fun s =>
    (s.invalidate (s.reg 0 0x34010 % 256)).setReg 0 0x34010 (s.reg 0 0x34010 % 256)) s

/-- TRANSLATION_CACHE_DROP (16 R325): the `n`th translation of a core, its cluster's counted after its own. -/
def execTranslationCacheDrop (c n : Nat) (s : State) : Host.Outcome State Fault Refusal :=
  let l := (s.core c).utlb
  .next (if n < l.length then s.modCore c (fun k => { k with utlb := l.eraseIdx n })
    else { s with ctlb := SMap.put s.ctlb (c / 16) ((SMap.get [] s.ctlb (c / 16)).eraseIdx (n - l.length)) })

-- The layout port (16 R331).

/-- A registered task of a partition whose entry is not released has a tensor region of the handle (16 R331). -/
def State.handleInUse (s : State) (part h : Nat) : Bool :=
  s.deps.any (fun d => d.2.any (fun e => e.part == part && e.regions.any (fun r => r.kind == 0 && r.handle == h)))

/-- Every tile cache gives up its lines of a handle, through the old binding. -/
def State.flushHandle (s : State) (part h : Nat) : State :=
  (s.tiles.map Prod.fst).foldl (fun (s : State) u => s.wbTiles u (fun x => x.part == part && x.handle == h) true) s

/-- The record that stands in LRD0–LRD7 of a die. -/
def State.lrd (s : State) (d : Nat) : List Byte := (List.range 8).flatMap (fun i => leBytes 8 (s.reg d (0x30000 + 8 * i)))

/-- The refusal of an operation of the layout port, 0 for none. -/
def State.lrErr (s : State) (d op part h : Nat) : Nat :=
  let bound := s.layout.any (fun b => b.part == part && b.handle == h)
  if op = 0 ∨ op = 3 then 0x74
  else if op = 1 ∧ layBad (s.lrd d) then 0x70
  else if s.handleInUse part h then 0x71
  else if op = 1 ∧ !bound ∧ 65536 ≤ s.layout.length then 0x72
  else if op = 2 ∧ !bound then 0x73
  else 0

/-- An operation of the layout port of a die: 1 bind or rebind, 2 unbind. -/
def State.layoutOp (s : State) (d op part h : Nat) : State :=
  let e := s.lrErr d op part h
  if e ≠ 0 then s.setReg d 0x30048 (e * 256)
  else
    let s0 : State := { s with sweeps := s.sweeps.filter (fun x => x != (part, h)) }
    let s1 := s0.flushHandle part h
    let rest := s1.layout.filter (fun b => !(b.part == part && b.handle == h))
    ({ s1 with layout := if op = 1 then rest ++ [⟨part, h, s.lrd d⟩] else rest } : State).setReg d 0x30048 0

/-- LAYOUT_BIND, through the port of die 0. -/
def execLayoutBind (p : BitVec 8) (h : BitVec 24) (s : State) : Host.Outcome State Fault Refusal :=
  .next (s.layoutOp 0 1 p.toNat h.toNat)

/-- LAYOUT_UNBIND, through the port of die 0. -/
def execLayoutUnbind (p : BitVec 8) (h : BitVec 24) (s : State) : Host.Outcome State Fault Refusal :=
  .next (s.layoutOp 0 2 p.toNat h.toNat)

-- The fabric handle table (21 R421).

/-- The refusal of an operation of the fabric handle port, 0 for none. -/
def State.fhErr (s : State) (op part h : Nat) : Nat :=
  if op = 0 ∨ op = 3 then 0x74
  else if s.handleInUse part h then 0x71
  else if op = 1 ∧ s.layout.any (fun b => b.part == part && b.handle == h) then 0x75
  else if op = 2 ∧ !s.fabric.any (fun f => f.part == part && f.handle == h) then 0x73
  else 0

/-- An operation of the fabric handle port: 1 bind, 2 unbind. -/
def State.fabricOp (s : State) (op part h : Nat) : State :=
  let e := s.fhErr op part h
  if e ≠ 0 then s.setReg 0 0x90110 (e * 256)
  else
    let v := s.reg 0 0x90100
    let s1 := s.flushHandle part h
    let rest := s1.fabric.filter (fun f => !(f.part == part && f.handle == h))
    ({ s1 with fabric := if op = 1 then rest ++ [⟨part, h, bits v 23 0, bits v 31 24, bits v 43 32⟩] else rest } : State).setReg
      0 0x90110 0

/-- FABRIC_HANDLE_BIND. -/
def execFabricHandleBind (p : BitVec 8) (h : BitVec 24) (s : State) : Host.Outcome State Fault Refusal :=
  .next (s.fabricOp 1 p.toNat h.toNat)

/-- FABRIC_HANDLE_UNBIND. -/
def execFabricHandleUnbind (p : BitVec 8) (h : BitVec 24) (s : State) : Host.Outcome State Fault Refusal :=
  .next (s.fabricOp 2 p.toNat h.toNat)

/-- GSTEP_WRITE (17 R343): it takes effect only while GSCTL.EN is 0. -/
def execGstepWrite (v : BitVec 64) (s : State) : Host.Outcome State Fault Refusal :=
  .next (if bit (s.reg 0 0x36008) 8 then s else s.setReg 0 0x36000 (v.toNat % 65536))

end Sys2Proof.Machine
end

