-- ==== Sys2Proof/Machine/Fabric.lean ====
section
/-! DEFINITION. The fabric (21): the package id, DMA windows, Valber Link ports with their flits and routes, lost paths, job
cards and the staging of remote tiles. -/

namespace Sys2Proof.Machine

/-- PKGID written (21 R416): only the first write after a reset acts. -/
def State.writePkgid (s : State) (v : Nat) : State :=
  if bit (s.reg 0 0x90000) 12 then s else s.setReg 0 0x90000 (v % 4096 + 4096)

/-- PKGID_WRITE. -/
def execPkgidWrite (v : BitVec 64) (s : State) : Host.Outcome State Fault Refusal := .next (s.writePkgid v.toNat)

-- DMA windows (21 R413).

/-- The registers of a window keep the limits, with a value of DWCTL. -/
def State.winOk (s : State) (w v : Nat) : Bool :=
  let b := s.win w 0
  let n := s.win w 8
  b % 2 ^ 16 == 0 && decide (2 ^ 39 ≤ b) && n % 2 ^ 16 == 0 && decide (2 ^ 16 ≤ n) && decide (n ≤ 2 ^ 39) &&
  decide (b + n ≤ 2 ^ 40) && (!bit v 4 || decide (s.win w 16 < 2 ^ 40))

/-- A register of a window written: 0 DWBASE, 1 DWLEN, 2 DWTGT, 3 DWCTL. -/
def State.writeWin (s : State) (w r v : Nat) : State :=
  let c := s.win w 24
  let put (o x : Nat) : State := s.setReg 0 (0xA0000 + 32 * w + o) x
  if bit c 3 then s
  else match r with
    | 0 => if bit c 0 then s else put 0 (v % 2 ^ 40)
    | 1 => if bit c 0 then s else put 8 v
    | 2 => if bit c 0 then s else put 16 v
    | _ =>
      let x := v &&& 0xFFFFF001E
      put 24 (x + if bit v 0 && s.winOk w v then 1 else 0)

/-- DMA_WINDOW_WRITE. -/
def execDmaWindowWrite (w : Nat) (r : BitVec 2) (v : BitVec 64) (s : State) : Host.Outcome State Fault Refusal :=
  .next (s.writeWin (w % 32) r.toNat v.toNat)

-- Flits (21 R417, R418, R423).

/-- A held flit leaves its buffer, whose allowance goes back to the sender. -/
def State.freeFlit (s : State) (p : Nat) (f : List Byte) (rest : List (List Byte)) : State :=
  s.modPort p (fun q => { q with rx := rest, tx := q.tx ++ [flitIdle (flitVc f)] })

/-- The held flits of a port looked at in order: one for this package is taken in, another is forwarded while the
allowance lasts, a flit without a route is dropped; `kept` are those that stay. -/
def State.pumpPort (s : State) (p : Nat) (kept : List (List Byte)) : List (List Byte) → State
  | [] => s
  | f :: l =>
    let e := s.reg 0 (0x98000 + 8 * flitDest f)
    let q := bits e 4 0
    if flitDest f = s.pkgId ∨ !s.routed (flitDest f) then State.pumpPort (s.freeFlit p f (kept ++ l)) p kept l
    else if (s.port q).allow.getD (flitVc f) 0 = 0 ∨ kept.any (fun k => flitVc k == flitVc f) then
      State.pumpPort s p (kept ++ [f]) l
    else State.pumpPort ((s.freeFlit p f (kept ++ l)).sendFlit q f) p kept l

/-- Every port moves what it holds and sends what waits there, and tiles that have been sent are written at their peers; nothing moves
during a freeze (21 R423). -/
def State.pump (s : State) : State :=
  if s.frz ≠ 0 ∨ s.ports.all (fun e => e.2.rx.isEmpty && e.2.wait.isEmpty) then s
  else
    let ps := s.ports.map Prod.fst
    (ps.foldl State.pushPort (ps.foldl (fun (s : State) p => s.pumpPort p [] (s.port p).rx) s)).tilesLand

/-- A port sends again the flits from a sequence number on, out of its replay buffer (21 R418), and counts them in VLRETRY. -/
def State.retry (s : State) (p seq : Nat) : State :=
  let l := (s.port p).replay.dropWhile (fun f => fieldAt f 2 2 != seq)
  if s.vlState p ≠ 3 ∨ l.isEmpty then s
  else (s.modPort p (fun q => { q with tx := q.tx ++ l })).setReg 0 (vlPort p + 16) (s.reg 0 (vlPort p + 16) + l.length)

/-- A flit whose check is right: the allowance it returns, and unless it is idle its place in the sequence and a buffer. One out of
sequence, or for which no buffer is free, is discarded, and returns its allowance when it is sent again. -/
def State.takeFlit (s : State) (p : Nat) (f : List Byte) : State :=
  let a := fieldAt f 6 1
  let s1 := s.modPort p (fun q => { q with allow := q.allow.set (a % 4) (q.allow.getD (a % 4) 0 + a / 4) })
  if fieldAt f 0 1 = 0 then s1
  else if fieldAt f 2 2 ≠ (s.port p).rxSeq ∨ 64 ≤ ((s.port p).rx.filter (fun x => flitVc x == flitVc f)).length then s
  else s1.modPort p (fun q => { q with rx := q.rx ++ [f], rxSeq := (q.rxSeq + 1) % 65536 })

/-- FLIT_RECEIVE (21 R418): a flit that fails its check is discarded, to be sent again, which counts as a corrected error
(20 R404, R405). -/
def execFlitReceive (p : Nat) (f : List (BitVec 8)) (s : State) : Host.Outcome State Fault Refusal :=
  .next (if s.vlState p ≠ 3 ∨ f.length ≠ 256 then s
    else if crc64 0 (f.take 248) ≠ fieldAt f 248 8 then s.ierrCor
    else (s.takeFlit p f).pump)

/-- The states that a port may pass to (21 R416): training follows down, attesting follows training, and only an attesting port
is accepted or refused; it may fall back at any time. -/
def vlNext (v n : Nat) : Bool :=
  n != v && (decide (n ≤ 1) || (n == 2 && (v == 1 || v == 3)) || ((n == 3 || n == 4) && v == 2))

/-- VL_PORT_STATE_CHANGE (21 R416): a port leaves 0 only with EN, and a port with EN leaves 1 only with SET; vector 11 is sent
(21 R411). What was in flight on a port that leaves state 3 is lost, whatever the port does next (21 R419). -/
def execVlPortStateChange (p : Nat) (t : BitVec 4) (e : BitVec 12) (s : State) : Host.Outcome State Fault Refusal :=
  let v := s.reg 0 (vlPort p + 8)
  let n := t.toNat
  let en := bit (s.reg 0 (vlPort p)) 0
  let known := bit (s.reg 0 0x90000) 12
  .next (if !vlNext (bits v 3 0) n ∨ (n ≠ 0 ∧ !en) ∨ (en ∧ !known ∧ (bits v 3 0 = 1 ∨ 1 < n)) then s
    else
      let s0 := ((s.setReg 0 (vlPort p + 8) (n + if n = 3 then e.toNat * 65536 else 0)).msix 11).trnNow
      let s1 := if n = 3 then { s0 with keys := insertNat p s0.keys } else s0
      if bits v 3 0 = 3 then
        ({ s1 with
            ports := SMap.put s1.ports p {}
            flights := s1.flights.map (fun f => if f.port = p then { f with port := 32 } else f) } : State).due (.pathLost p)
      else s1)

-- Lost paths (21 R419).

/-- The task of a strand is aborted with cause 0x21 because of a lost store or posted command. -/
def State.lostTask (s : State) (g va : Nat) : State :=
  let t := s.strand g
  let s1 := s.ierrUnc
  if t.task.isNone || t.abort.isSome then s1 else s1.abortTask g 0x21 0 va (mkTsl false 0 0xFF 0) false

/-- The address reported for the endpoint of a command that is lost: the memory address, or the memory key of the tensor's first
unit (log 75). -/
def State.endAddr (s : State) (part : Nat) : Endp → Nat
  | .mem va _ => va
  | .tens h _ _ => match s.lay part h with | some l => l.unitKey 0 % 2 ^ 57 | none => 0
  | _ => 0

/-- A copy on a lost path completes with code 0x35, BYTES as far as written: nothing is written before it completes. -/
def State.loseCopy (c : Nat) (s : State) (x : CopyCmd) : State :=
  let part := (s.strand x.strand).part
  let s1 := (s.modCore c (fun k => { k with copies := k.copies.filter (fun y => y.id != x.id) })).writeToken x.strand x.id
    (complWord 0x35 0)
  if x.tok = 0 then s1.lostTask x.strand (s.endAddr part (if (s.endPeers x true x.dst).isEmpty then x.src else x.dst)) else s1

/-- A spawn whose job card is lost: its token takes code 0x35, or its task is aborted. -/
def State.loseCard (s : State) (x : NmCmd) : State :=
  let s1 := s.spawnDone x 0x35 0
  if x.tok = 0 then s1.lostTask x.strand ((x.pcs.head?.map Piece.va).getD 0) else s1

/-- The commands of a core that lie on a lost path end. -/
def State.loseCore (s : State) (c : Nat) : State :=
  let k := s.core c
  let cps := k.copies.filter (fun x => s.lostReq x.id)
  let cards := k.nmq.filter (fun x => s.lostReq x.id)
  cards.foldl State.loseCard (cps.foldl (State.loseCopy c) s)

/-- Permits on a lost path end with code 0x35. -/
def State.losePermits (s : State) (k : Nat) : State :=
  let l := SMap.get [] s.permits k
  let gone := l.filter (fun n => s.lostReq n.id)
  gone.foldl (fun (s : State) n =>
    let s1 := s.writeToken n.strand n.id (complWord 0x35 0)
    if n.tok = 0 then s1.lostTask n.strand (s.endAddr n.part (.tens (epHandle (n.par.getD 4 0)) 0 0)) else s1)
    { s with permits := SMap.put s.permits k (l.filter (fun n => !gone.any (fun g => g.id == n.id))) }

/-- A request of a strand that is not an access of a bundle is lost (21 R419): bytes that its issue or its trap entry waits for raise 0x21
at its next bundle, and so does a restore, whose loss is counted; a segment cost table that cannot be read costs nothing (18 R371), and a
capture is asked for again as far as it has a route. -/
def State.loseStrandAsk (g : Nat) (s : State) (a : Nat × Nat) : State :=
  let t := s.strand g
  if t.wait ≠ .actions then s.modStrand g (noteDue a.1)
  else if a.1 = noAddr ∧ t.ph ≠ 1 then s.ierrUnc.modStrand g (noteDue noAddr)
  else s

/-- Loads, stores and atomics of a strand on a lost path end, and what it has asked for besides. -/
def State.loseStrand (s : State) (g : Nat) : State :=
  let t := s.strand g
  let lds := t.pends.filter (fun p => p.err.isNone && !p.kind.isToken && s.lostReq p.id)
  let os := t.outs.filter (fun o => s.lostReq o.id)
  let va (ps : List Piece) : Nat := ((ps.find? (fun p => decide (2 ^ 80 ≤ p.key))).map Piece.va).getD 0
  let s1 := lds.foldl (fun (s : State) p => s.setErr g p.id (va p.pcs)) s
  let asks := t.asks.filter (fun a => s.lostReq a.2)
  let s2 := asks.foldl (State.loseStrandAsk g) (s1.modStrand g (fun t =>
    { t with
      outs := t.outs.filter (fun o => !os.any (fun x => x.id == o.id))
      asks := t.asks.filter (fun a => !asks.contains a) }))
  os.foldl (fun (s : State) o =>
    match o.op.atom.bind AtomOp.pend with
    | some id => (s.setErr g id (va o.op.pcs)).due (.atomicReturn g id)
    | none => s.lostTask g (va o.op.pcs)) s2

/-- A message that is lost with its path is counted; a record of kind 5 names that of a join decrement (21 R419). -/
def State.loseSent (s : State) (m : FabMsg) : State :=
  match m with
  | .join _ _ _ id gr d va => if s.lostReq id then s.ierrUnc.report d (bareFault 5 gr 0x35 va) else s
  | .card _ _ _ _ _ => s
  | .result _ id _ => if s.lostReq id then s.ierrUnc else s

/-- The number of a message's request. -/
def FabMsg.id : FabMsg → Nat
  | .card _ _ _ id _ => id
  | .join _ _ _ id _ _ _ => id
  | .result _ id _ => id

/-- A launch of a stream whose card is lost gives its fault record, and the stream goes on (15 R320); so it does after a JOIN whose
decrement is lost. -/
def State.loseLaunch (s : State) (x : StreamLaunch) : State :=
  if !s.lostReq x.id then s else if x.join then s.joinDone x else s.launchDone x 0x35

/-- What a command processor waits for is lost. A WRITE of a stream, a fault record and a restore are writes: the error is counted (21
R419), and the stream goes on after its WRITE. Anything else is asked for again, and so is a fault record, which is not given up
(DESIGN CHOICE, log 82). -/
def State.loseAsk (s : State) (e : Nat × Nat) : State :=
  if !s.lostReq e.2 then s
  else
    let s1 : State := { s with asks := s.asks.filter (fun x => x.1 != e.1) }
    if 32 ≤ e.1 then s1.ierrUnc
    else
      let f := s1.csFar (e.1 / 8) (e.1 % 8)
      if f.2.2 && !f.2.1.isEmpty then s1.ierrUnc.csAdvance (e.1 / 8) (e.1 % 8) 3 else s1

/-- The task writes a tile: it has not released its writes, and a W region of it meets the tile. -/
def State.writesTile (s : State) (x : TLine) (t : Strand) : Bool :=
  t.task.isSome && t.abort.isNone && decide (t.ph < 4) && t.regions.any (fun r => bit r.acc 1 && s.tileMeets t.part r x)

/-- Tiles on their way back to a peer are lost with their request: they are not written there, and the task of the cluster that writes
them is aborted as for a lost store; with none it is counted (14 R306, 21 R419). -/
def State.loseTile (s : State) (f : Flight) : State :=
  match s.tileOut.find? (fun e => e.1 == f.id) with
  | none => s
  | some (_, x, _) =>
    let va := f.id / 2 ^ 64 - 1
    let s1 : State := { s with tileOut := s.tileOut.filter (fun e => e.1 != f.id) }
    match s.strands.find? (fun e => cluOf e.1 == f.id % 2 ^ 64 && s.writesTile x e.2) with
    | some e => s1.lostTask e.1 va
    | none => (s1.noteSaved (s.writesTile x) va).ierrUnc

-- Job cards (21 R420).

/-- Some peer has been accepted: a port carries traffic (20 R402, 21 R416). -/
def State.anyPeer (s : State) : Bool := (List.range 24).any (fun p => s.vlState p == 3)

/-- JOB_CARD_REGISTER: a card's record takes its slot and is registered in partition `p`; the result goes back as a response. The
record has no address in the peer's tables that the manual gives, nor the card a sender: both are free values. -/
def execJobCardRegister (p : BitVec 8) (a : Nat) (b : List (BitVec 8)) (s : State) : Host.Outcome State Fault Refusal :=
  whenUp (b.length == 512 && s.anyPeer) (fun s =>
    let f := (s.memWrite a b).freeWord
    let q := f.1.freeWord
    let r := q.1.register p.toNat (a / 2 ^ 37 % 4) none a (f.2.toNat % 2 ^ 57)
    ({ r.1 with
        nid := r.1.nid + 1
        fabOut := r.1.fabOut ++ [.result (q.2.toNat % 4096) r.1.nid (complWord r.2.1 r.2.2)] } : State).request r.1.nid
      (q.2.toNat % 4096) 2 1 8) s

/-- A peer answers a job card: the spawn `n` of core `c` completes. -/
def State.cardReply (s : State) (c n : Nat) (w : W64) : State :=
  match (s.core c).nmq.find? (fun x => x.id == n && x.op == 6 && x.phase == 3 && s.ready n) with
  | none => s
  | some x => s.spawnDone x (if w.toNat.testBit 63 then bits w.toNat 62 48 else 0) (w.toNat % 2 ^ 48)

/-- A peer answers the card of a stream's launch: a failure gives a fault record of kind 4, and the launch goes on. -/
def State.launchReply (s : State) (d n : Nat) (w : W64) : State :=
  match s.launches.find? (fun x => x.die == d && x.stream == n && !x.join && s.ready x.id) with
  | none => s
  | some x => s.launchDone x (if w.toNat.testBit 63 then bits w.toNat 62 48 else 0)

/-- A join decrement of a peer arrives (21 R420), with the joining task's graph: it acts as one of this package. In a report of
an underflow the record has the address under which it was registered; for one that is not registered the address is open, a
free value. -/
def State.peerJoin (s : State) (part loc graph : Nat) : State :=
  let f := s.freeWord
  let va := (s.deps.findSome? (fun d => (d.2.find? (fun e => e.loc == loc)).map DEnt.va)).getD (f.2.toNat % 2 ^ 57)
  f.1.join (loc / 2 ^ 37 % 4) part (some graph) loc va

-- Staging (21 R421).

/-- A cluster's task that waits to be staged. -/
def State.stageEnt (s : State) (u loc : Nat) : Option DEnt :=
  (s.dep (u / 18) loc).filter (fun e => e.st == 2 && e.held && e.clu == u % 18 && !e.staged && !s.conflict (u / 18) e)

/-- A task aborted before it starts: the trace record names no strand of its cluster (19 R390). TAR and DETAIL of its fault record are
zero, for a data error too: 14 R305 and 21 R421 give its STATE and cause alone. DESIGN CHOICE, log 121. -/
def State.stageFail (s : State) (u : Nat) (e : DEnt) (cause : Nat) : State :=
  ((State.unqueueLoc e.loc (s.setSt (u / 18) e.loc e.seq 5) u).report (u / 18) (bareFault 1 e.graph cause e.va)).trace u 0x03 0 0
    e.part 0 e.va cause

/-- The tiles of one remote region fetched, or the cause of a failure. -/
def State.stageRegion (s : State) (u : Nat) (e : DEnt) (r : Region) : Except Nat State :=
  match s.lay e.part r.handle with
  | none => .error 0x06
  | some l =>
    (regionTiles l r).foldl (fun (a : Except Nat State) t =>
      match a with
      | .error c => .error c
      | .ok s =>
        if (s.badPos l (fun _ => none) ((List.range (tileItems l.fc)).map (l.tilePos t))).isSome then .error 0x21
        else
          .ok (s.putTile u e.seq e.part r.handle l t)) (.ok s)

/-- The request that fetches the tiles of a task's remote regions. -/
def State.askStage (s : State) (u : Nat) (e : DEnt) (rs : List Region) : State :=
  let s1 : State := { s with nid := s.nid + 1 }
  let s2 := s1.modDeps (u / 18) (fun l => l.map (fun x => if x.loc = e.loc ∧ x.seq = e.seq then { x with fetch := some s.nid } else x))
  ((rs.filterMap (fun r => (s.lay e.part r.handle).bind Lay.peer)).foldl (fun (s2 : State) p => s2.request s.nid p 1 0 0) s2).due
    (.stagingFetch u e.loc)

/-- STAGING_FETCH (21 R421): the tiles of the remote R regions of the task whose record stands at `n` are asked of their peers,
and placed once the request has been sent. -/
def execStagingFetch (u n : Nat) (s : State) : Host.Outcome State Fault Refusal :=
  match s.stageEnt u n with
  | none => .next s
  | some e =>
    if !s.dieAwake (u / 18) then .next s
    else
    let rs := e.regions.filter (fun r => r.kind == 0 && bit r.acc 0 && s.remoteHandle e.part r.handle)
    match e.fetch with
    | none => whenUp true (fun s => s.askStage u e rs) s
    | some id =>
      whenUp (s.ready id) (fun s =>
        match rs.foldl (fun (a : Except Nat State) r => match a with | .error c => .error c | .ok s => s.stageRegion u e r)
            (.ok (s.landed id)) with
        | .error c => s.stageFail u e c
        | .ok s1 => s1.modDeps (u / 18) (fun l => l.map (fun x =>
            if x.loc = e.loc ∧ x.seq = e.seq then { x with staged := true } else x))) s

/-- A staging fetch on a lost path fails (21 R421). -/
def State.loseFetch (s : State) (d : Nat) (e : DEnt) : State :=
  if e.st == 2 && !e.staged && (match e.fetch with | some id => s.lostReq id | none => false) then
    s.stageFail (18 * d + e.clu) e 0x21
  else s

/-- PATH_LOST (21 R419): requests that left by a port which has left state 3 end, and those that found no route. -/
def execPathLost (_p : Nat) (s : State) : Host.Outcome State Fault Refusal :=
  whenUp (s.flights.any (fun f => s.vlState f.port != 3)) (fun s =>
    let s1 := (s.cores.map Prod.fst).foldl State.loseCore s
    let s2 := (s1.permits.map Prod.fst).foldl State.losePermits s1
    let s3 := (s2.strands.map Prod.fst).foldl State.loseStrand s2
    let s4 := s3.launches.foldl State.loseLaunch (s3.fabOut.foldl State.loseSent s3)
    let s5 := s4.deps.foldl (fun (s : State) d => d.2.foldl (fun (s : State) e => s.loseFetch d.1 e) s) s4
    let s6 := (s5.flights.filter (fun f => decide (2 ^ 64 ≤ f.id) && s5.vlState f.port != 3)).foldl State.loseTile
      (s5.asks.foldl State.loseAsk s5)
    { s6 with
      fabOut := s6.fabOut.filter (fun m => !s.lostReq m.id)
      flights := s6.flights.filter (fun f => s.vlState f.port == 3) }) s

/-- The records of a cluster that wait to be staged. -/
def State.toStage (s : State) (u : Nat) : List Nat :=
  ((SMap.get [] s.deps (u / 18)).filter (fun e => (s.stageEnt u e.loc).isSome)).map DEnt.loc

end Sys2Proof.Machine
end

