-- ==== Sys2Proof/Machine/Partition.lean ====
section
/-! DEFINITION. Partitions and the cadence table (18 R367-R377): enabling, host stops, rows and their budgets, the stop
sequence, shadow storage and save areas, and forced pre-emption. -/

namespace Sys2Proof.Machine

/-- HSTOP set or cleared. -/
def State.setHstop (s : State) (p : Nat) (b : Bool) : State := s.setReg 0 (0x40000 + 64 * p + 48) (if b then 2 else 0)

/-- PSTAT.LIVE (18 R367): a dependence-table entry or overflow record, a queue entry, a task in `STATE` 1 to 3 on a strand, or a
saved image. -/
def State.liveP (s : State) (p : Nat) : Bool :=
  s.deps.any (fun d => d.2.any (fun e => e.part == p)) || s.queues.any (fun q => q.2.any (fun e => e.part == p)) ||
  s.strands.any (fun t => t.2.ofPart p && t.2.ph != 4) || s.savedStrands.any (fun t => t.ofPart p)

/-- The core is in a stop sequence and quiesced (18 R373, step 4). -/
def Core.still (k : Core) : Bool := k.stop != .none && k.saved

/-- PSTAT.QSC (18 R367, R373): every core of the partition is stopped and quiesced. Under a host stop no core holds a strand of
it that is not saved; without one some strand of it is saved, and no core runs it. -/
def State.quiesced (s : State) (p : Nat) : Bool :=
  if s.hstop p then
    !s.strands.any (fun t => t.2.ofPart p && !(s.core (coreOf t.1)).saved) &&
    !s.cores.any (fun c => c.2.part == p && c.2.stop != .none && !c.2.saved)
  else
    (s.savedStrands.any (fun t => t.ofPart p) || s.cores.any (fun c => c.2.part == p && c.2.still)) &&
    !s.cores.any (fun c => c.2.entered && c.2.part == p && !c.2.still)

/-- The cluster set as one mask. -/
def State.cset (s : State) (p : Nat) : Nat := s.preg p 32 + 2 ^ 64 * (s.preg p 40)

/-- The lowest and highest members of a set of clusters. -/
def setEnds (m : Nat) : Nat × Nat :=
  let l := (List.range 72).filter (fun i => bit m i)
  (l.headD 0, l.getLastD 0)

/-- The partition's registers allow it to be enabled (18 R367, 20 R406). -/
def State.mayEnable (s : State) (p : Nat) : Bool :=
  let root := s.preg p 8
  let vec := s.preg p 16
  let save := s.preg p 24
  let m := s.cset p
  let e := setEnds m
  root % 2 ^ 18 == 0 && decide (root < 2 ^ 39) && vec % 64 == 0 && decide (vec < 2 ^ 57) && save % 2 ^ 19 == 0 &&
  decide (save < 2 ^ 39) && (List.range 72).any (fun c => s.usableClu p c) && decide (save + 2 ^ 19 * (64 * e.1) < 2 ^ 39) &&
  (save + 2 ^ 19 * (64 * e.1)) / 2 ^ 36 == (save + 2 ^ 19 * (64 * e.2 + 64) - 1) / 2 ^ 36

/-- PCTL written (18 R367). -/
def State.writePctl (s : State) (p v : Nat) : State :=
  let old := bit (s.preg p 0) 0
  let new := v % 16 - v % 2
  let en := if bit v 0 then old || s.mayEnable p else old && s.liveP p
  s.setReg 0 (0x40000 + 64 * p) (new + if en then 1 else 0)

/-- PCTL_WRITE. -/
def execPctlWrite (p : BitVec 8) (v : BitVec 64) (s : State) : Host.Outcome State Fault Refusal :=
  .next (s.writePctl p.toNat v.toNat)

-- Rows (18 R369, R370).

/-- A row of the cadence table of a core's cluster. -/
def State.cadRow (s : State) (c r : Nat) : Nat := s.reg (c / 288) (0x50000 + 0x100 * (c / 16 % 18) + 8 * r)

/-- A core holds a task of a partition, running, blocked or saved. -/
def State.holdsTask (s : State) (c p : Nat) : Bool :=
  [0, 1, 2, 3].any (fun k => (s.strand (4 * c + k)).ofPart p) ||
  (match (s.core c).shadow with | some (_, l) => l.any (fun t => t.ofPart p) | none => false) || !(s.savedOn c p).isEmpty

/-- A core can run rows of a partition (18 R369): it holds a task of the partition, or its cluster has an eligible one that it may
start. FXOK is one of the conditions of a start alone: a change of it leaves tasks that have started as they are (18 R367). -/
def State.rowRuns (s : State) (c p : Nat) : Bool :=
  bit (s.preg p 0) 0 && !s.hstop p && s.usableClu p (c / 16) &&
  (s.holdsTask c p || ((!s.fxd c || bit (s.preg p 0) 2) && !(s.eligibles (c / 16) p).isEmpty))

/-- A row is usable by a core (18 R369). -/
def State.rowUsable (s : State) (c r : Nat) : Bool :=
  let v := s.cadRow c r
  let p := v % 256
  bit v 8 && s.rowRuns c p


/-- The next row in cyclic order after ROW that is usable and satisfies a test; from ROW itself before any row has been
entered (18 R369, R370). -/
def State.nextRow (s : State) (c : Nat) (ok : Nat → Bool) : Option Nat :=
  let k := s.core c
  let first := if k.entered then k.row + 1 else k.row
  ((List.range 32).map (fun i => (first + i) % 32)).find? (fun r => s.rowUsable c r && ok (s.cadRow c r % 256))

/-- A core enters a row. -/
def State.enterRow (s : State) (c r : Nat) : State :=
  let v := s.cadRow c r
  s.modCore c (fun k => { k with part := v % 256, row := r, left := v / 2 ^ 32, budget := v / 2 ^ 32, entered := true, spent := false })

/-- The core must leave its row (18 R370, R371): no row entered yet, the budget spent, the row no longer usable, or the
strands of the partition saved. The partition is that of the row as entered. -/
def State.mustLeave (s : State) (c : Nat) : Bool :=
  let k := s.core c
  !k.entered || k.spent || s.awaySaved c ||
  (k.left == 0 && k.budget != 0 && !s.holdsTask c k.part) || !s.rowRuns c k.part

/-- CADENCE_SWITCH (18 R372): the stop sequence of the core begins. -/
def execCadenceSwitch (c : Nat) (s : State) : Host.Outcome State Fault Refusal :=
  match s.nextRow c (fun _ => true) with
  | none => .next s
  | some r =>
    whenLive ((s.core c).stop == .none && (s.core c).entered && s.mustLeave c && s.cadRow c r % 256 != (s.core c).part) (fun s =>
      (s.modCore c (fun k => { k with stop := .cadence })).due (.stopSequence c)) s

-- The stop sequence (18 R373).

/-- A strand stands at a bundle boundary: its stall count spent, no bundle of it partly committed or waiting to complete (03 R73, 05
R124, R127, 06 R135), no landing of its last strand cycle held (12 R263), no `gstep.adv` in its phases (17 R350), and no family
command of its bundle in progress. One that is stopped, or whose task issues no more, stands as it is, but the capture and the restore
of a replay end first (19 R396). -/
def Strand.atBoundary (t : Strand) : Bool :=
  t.task.isNone || t.run == .stopped || (t.wait == .actions && !t.asks.any (fun a => a.1 == noAddr)) ||
  (t.wait != .actions && t.ctx.done == 0 && t.wait != .family && (match t.hold with | .breakdown _ => false | .trap _ => false | _ => true) &&
    (t.run != .inPos || (t.ctx.sc == 0 && t.hold == .none && !t.adv && (splitDue t.ctx.lq).isNone)))

/-- The cores whose strands stop together (18 R373): for a host stop, every core of the partition in its stop sequence. -/
def State.stopCores (s : State) (c : Nat) : List Nat :=
  if s.hstop (s.core c).part then
    (s.cores.filter (fun k => k.2.stop != .none && k.2.part == (s.core c).part)).map Prod.fst
  else [c]

/-- The commands that a stopping strand has started are complete and its data has arrived (18 R373, step 2). The tokens of commands
that have not started stay pending in its image: 09 R210 says that no image holds a pending token, 09 R214 and 18 R373 and R375 that
those of delayed and parked commands do, and the model follows the latter (DESIGN CHOICE, log 103). What a partly committed bundle of a
stopped strand loads goes with its stop record. A launched matrix command that is chained to one still waiting for its start delay never
completes while the clock of its strand stands: the sequence then does not end (DESIGN CHOICE, log 111: 10 R232 and 18 R373 let every
launched command run to completion, and no rule lets a frozen count run out for it). -/
def State.settled (s : State) (g : Nat) : Bool :=
  let k := s.core (coreOf g)
  !k.copies.any (fun x => x.strand == g && x.started) && !k.mq.any (fun x => x.strand == g) &&
  !k.nmq.any (fun x => x.strand == g && (decide (2 ≤ x.phase) || x.op == 6)) &&
  !s.permits.any (fun q => q.2.any (fun n => n.strand == g && n.phase == 2)) &&
  (s.strand g).pends.all (fun p => p.kind.isToken || !s.mayArrive g p.id && (p.val.isSome || p.kind.isAtom || s.ready p.id)) &&
  s.outsReady g

/-- The commands of a core's strands that have not started are handed to the die's command processor, in order
(18 R373, step 3). -/
def State.park (s : State) (c : Nat) : State :=
  let k := s.core c
  let mine (n : NmCmd) : Bool := coreOf n.strand == c && n.phase == 1
  let cps := (k.copies.filter (fun x => !x.started)).map (fun x => (k.part, Cmd.copy x))
  let nms := (k.nmq.filter (fun x => x.phase == 1 && x.op != 6)).map (fun x => (k.part, Cmd.nm x))
  let pms := (s.permits.flatMap (fun q => q.2.filter mine)).map (fun x => (k.part, Cmd.nm x))
  { s.setCore c { k with
      copies := k.copies.filter (fun x => x.started)
      nmq := k.nmq.filter (fun x => !(x.phase == 1 && x.op != 6))
      parked := k.parked ++ cps ++ nms ++ pms } with
    permits := s.permits.map (fun q => (q.1, q.2.filter (fun n => !mine n))) }

/-- The four strands of a core. -/
def coreStrands (c : Nat) : List Nat := [4 * c, 4 * c + 1, 4 * c + 2, 4 * c + 3]

/-- A strand as its image is written (01 R38, R39): it leaves issue position ready, without the bytes of dead entries. -/
def State.toImage (s : State) (g : Nat) : State :=
  let s1 := ((s.settleOuts g).holdOwn g).offEdge g
  (if (s1.strand g).run = .inPos then s1.leave g .ready .none else s1).modStrand g Strand.dropDead

/-- The strand stands where the stop sequence lets it stop: at a boundary, and not held by the brake line (12 R264). -/
def State.stopped (s : State) (g : Nat) : Bool := (s.strand g).atBoundary && !(s.inPos g && s.braked g)

/-- STOP_SEQUENCE (18 R373): once every stopping strand stands at a boundary, commands that have not started are parked; once the
started ones are complete, the images are taken. Each step waits for every core that stops with this one. A trap that a
strand still owes, of a breakdown or with a vector record that a peer has sent, is entered first. -/
def execStopSequence (c : Nat) (s : State) : Host.Outcome State Fault Refusal :=
  let gs := coreStrands c
  let all := (s.stopCores c).flatMap coreStrands
  match gs.find? (fun g => (s.strand g).wait == .none &&
    (match (s.strand g).hold with | .breakdown _ => true | .trap _ => s.trapReady g | _ => false)) with
  | some g =>
    whenLive ((s.core c).stop != .none) (fun s =>
      let t := s.strand g
      (match t.hold with
        | .breakdown k => s.trapEntry g 0x10 k t.ctx.pc 6 t.ctx.done t.heldCount t.dly false
        | .trap q => s.trapGo g q
        | _ => s).due (.stopSequence c)) s
  | none =>
    whenLive ((s.core c).stop != .none && !(s.core c).saved && all.all s.stopped) (fun s =>
      let s1 := (s.stopCores c).foldl State.park s
      if all.all s1.settled then
        ((gs.foldl (fun (s : State) g => s.toImage g) s1).modCore c (fun k => { k with saved := true })).due (.partitionSwap c)
      else s1) s

-- The swap (18 R374, R375).

/-- What the parts of an image that 18 R374 names before its pending results take of a slot of the save area. -/
def slotUsed : Nat := 0x42000

/-- The pending results of an image stand in its slot (18 R374). -/
def State.spillResults (s : State) (p : Nat) : List MRes → List MRes → State × List MRes
  | a, [] => (s, a)
  | a, r :: l =>
    let m := if r.moved.isSome then (s, r) else s.moveResult p (a ++ l) r
    State.spillResults m.1 p (a ++ [m.2]) l

/-- The image of a strand written to its slot (18 R374). The arrangement in the slot is not architectural: its bytes are free
values. -/
def State.spillOne (p : Nat) (s : State) (e : Strand × Nat) : State :=
  let s1 := ({ s with fresh := s.fresh + slotUsed / 8, saves := SMap.put s.saves (256 * e.2 + p) s.fresh } : State).memWrite
    (s.saveSlot p e.2) (freeBytes s.fresh slotUsed)
  if e.1.task.isNone then s1
  else
    let r := s1.spillResults p [] e.1.results
    { r.1 with images := r.1.images ++ [(p, e.2, { e.1 with results := r.2 })] }

/-- The images of four strands written to the save area of their partition: those that hold a task are kept. -/
def State.spill (s : State) (c p : Nat) (l : List Strand) : State := (l.zip (coreStrands c)).foldl (State.spillOne p) s

/-- The landing queue of an unpredictable image: its commands, with free counts and values. -/
def scrambleLq (k : Nat) (l : List Landing) : List Landing :=
  (l.zip (List.range l.length)).map (fun e =>
    { e.1 with
      rem := (Config.free64 (k + 128 * e.2)).toNat % 256
      what := match e.1.what with | .eff x => .eff (freeEff (k + 128 * e.2) x) | w => w })

/-- What follows a bundle, as a free value gives it (05 R124-R128, R132). -/
def freeAfter (n : Nat) : After :=
  match n % 7 with
  | 0 => .none
  | 1 => .trap (8 + n / 8 % 3) (n / 32 % 65536)
  | 2 => .done
  | 3 => .rfe
  | 4 => .yield
  | _ => .segend (n / 8 % 2 ^ 18)

/-- The data of a load with a free value. -/
def Pend.scrambled (k : Nat) (p : Pend) : Pend := { p with val := p.val.map (fun b => freeBytes k b.length) }

/-- A control context of an unpredictable image, from the free values at `k` on. -/
def Ctx.scrambled (c : Ctx) (k : Nat) : Ctx :=
  let n (i : Nat) : Nat := (Config.free64 (k + i)).toNat
  let bundle (i : Nat) : Nat := n i % 2 ^ 57 / 32 * 32
  { c with
    pc := bundle 0
    anc := n 1 % 3
    sc := n 2 % 16
    bpf := (List.range (n 3 % 3)).map (fun i => ⟨bundle (4 + i), 1 + n (6 + i) % 2, bit (n (6 + i)) 8⟩)
    done := n 8 % 256
    csbpass := bit (n 9) 0
    cout :=
      { redirect := c.cout.redirect.map (fun _ => (bundle 10, bit (n 11) 0)), seen := n 20 % 4, annul := bit (n 21) 0
        after := freeAfter (n 22), sc := n 23 % 16 }
    held := (c.held.zip (List.range c.held.length)).map (fun h => h.1.scrambled (k + 8192 + 128 * h.2))
    efrP := (c.efrP.zip (List.range c.efrP.length)).map (fun e => (1 + n (12 + e.2) % 3, BitVec.ofNat 64 (n (16 + e.2) &&& efrMask)))
    buf := (c.buf.zip (List.range c.buf.length)).map (fun h => { h.1 with eff := freeEff (k + 32 + 128 * h.2) h.1.eff })
    lq := scrambleLq (k + 4096) c.lq }

/-- A region record of an unpredictable image. -/
def freeRegion (k : Nat) : Region :=
  let n (i m : Nat) : Nat := (Config.free64 (k + i)).toNat % m
  { kind := n 0 3, acc := 1 + n 1 3, fwd := n 2 2 == 1, handle := n 3 (2 ^ 24), vault := n 4 72, base := n 5 (2 ^ 57), len := n 6 (2 ^ 57)
    row0 := n 7 65536, rows := n 8 65536, col0 := n 9 65536, cols := n 10 65536, i2 := n 11 4096, n2 := n 12 4096, i3 := n 13 4096
    n3 := n 14 4096 }

/-- How many free values a scrambled image takes. -/
def scrambleSize : Nat := 0x10000

/-- The bits of the two halves of a modifier descriptor that are kept: its reserved bits [63:57] and [71:66] read as zero
(00 R9, 01 R17). -/
def mdMask : Nat × Nat := (2 ^ 57 - 1, 2 ^ 64 - 2 ^ 8 + 3)

/-- An image restored from a slot that was written while it stood there: unpredictable (18 R374). Every part that 01 R38 lists is a
free value within its layout; the strand keeps its task, its join list and the commands it waits for, so that what it does stays its
partition's (log 80). -/
def Strand.scrambled (t : Strand) (k : Nat) : Strand :=
  let w (i : Nat) : W64 := Config.free64 (k + i)
  let n (i : Nat) : Nat := (w i).toNat
  let m (i x : Nat) : W64 := BitVec.ofNat 64 (n i &&& x)
  let map (o m : Nat) : SMap W64 := (List.range m).foldl (fun l i => SMap.set 0#64 l i (w (o + i))) []
  let handler := bit (n 216) 0
  { t with
    sreg := map 0 64
    areg := map 64 32
    mreg := (List.range 16).foldl (fun l i => SMap.set 0#128 l i
      (BitVec.ofNat 128 ((n (96 + i) &&& mdMask.1) + 2 ^ 64 * (n (128 + i) &&& mdMask.2)))) []
    preg := (w 160).setWidth 8 &&& 0xFE#8
    qreg := (List.range 8).foldl (fun l i => SMap.set 0#256 l i (BitVec.ofNat 256
      (n (161 + 4 * i) + 2 ^ 64 * n (162 + 4 * i) + 2 ^ 128 * n (163 + 4 * i) + 2 ^ 192 * n (164 + 4 * i)))) []
    vd := (List.range 8).foldl (fun l i => SMap.set 0#64 l i (m (200 + i) vdMask)) []
    age := (List.range 512).foldl (fun l i => SMap.set 0 l i (n (512 + i) % 64)) []
    scr := m 210 1
    efr := m 211 efrMask
    mlp := BitVec.ofNat 64 (n 212 % 2 ^ 57 / 4 * 4)
    svr := m 213 0xFFFF
    cyc := w 214
    sev := m 215 0xFFFFFFFFFFFF
    fsr := w 217
    gfr := m 218 0xFFFFFFFF
    pvr := map 224 8
    tcr := m 232 0x0000FFFF000001FF
    tar := m 233 (2 ^ 57 - 1)
    tsl := m 234 0x01FFFF07
    tcr2 := m 235 0x0000FFFF000001FF
    tar2 := m 236 (2 ^ 57 - 1)
    wref := if bit (n 237) 0 then some (n 238 % 65536, n 239 % 256) else none
    seeds := (List.range 256).map (fun i => (i, BitVec.ofNat 32 (max 1 (n (1024 + i) % 2 ^ 32))))
    regions := (t.regions.zip (List.range t.regions.length)).map (fun e => freeRegion (k + 1280 + 16 * e.2))
    cursor := BitVec.ofNat 128 (t.cursor.toNat % 8 +
      if t.cursor.toNat % 8 = 0 then 0 else n 240 / 8 % 2 ^ 29 * 8 + n 241 % 2 ^ 8 * 2 ^ 32 + n 242 * 2 ^ 64)
    urs := cellsOf (fun _ b => decide (b ≠ 0#8)) 0 (freeBytes (k + 2048) 65536)
    ctx := t.ctx.scrambled (k + 16384)
    hmode := handler
    seen := n 243 % 4
    frozen := if handler then some (((t.frozen.map Prod.fst).getD {}).scrambled (k + 32768), w 244, w 245) else none }

/-- An image read from its slot: as it was saved, or unpredictable where the slot has been written since (18 R374). -/
def State.readImage (s : State) (i : Nat × Nat × Strand) : Strand :=
  let k := SMap.get 0 s.saves (256 * i.2.1 + i.1)
  if s.intact (s.saveSlot i.1 i.2.1) k slotUsed then i.2.2 else i.2.2.scrambled (s.fresh + scrambleSize * (i.2.1 % 4))

/-- The images of a partition on a core, read from the save area. -/
def State.fillImages (s : State) (c p : Nat) : List Strand :=
  (coreStrands c).map (fun g => ((s.savedOn c p).find? (fun i => i.2.1 == g)).elim ({} : Strand) s.readImage)

/-- Live strands replaced by four images, their pending matrix results with them. -/
def State.putLive (s : State) (c : Nat) (l : List Strand) : State :=
  (l.zip (coreStrands c)).foldl (fun (s : State) e =>
    (s.setStrand e.2 { e.1 with results := [] }).modCore c (fun k => { k with results := k.results ++ e.1.results })) s

/-- The images of a core's live strands. -/
def State.liveImages (s : State) (c : Nat) : List Strand :=
  (coreStrands c).map (fun g => { s.strand g with results := (s.core c).results.filter (fun r => r.strand == g) })

/-- What the shadow storage holds after a swap: the live images, or nothing when no strand held a task. -/
def State.outgoing (s : State) (c : Nat) : Option (Nat × List Strand) :=
  if (s.liveImages c).all (fun t => t.task.isNone) then none else some ((s.core c).part, s.liveImages c)

/-- The saved images of core `c` of a partition whose slots fail their checks, each with the first address that fails: a fill of one
consumes it for the strand's task, which ends with 0x21 (20 R405). DESIGN CHOICE, log 114: no bundle raised it. -/
def State.badImages (s : State) (c p : Nat) : List (Nat × Nat) :=
  (s.savedOn c p).filterMap (fun i =>
    let a := s.saveSlot i.1 i.2.1
    (s.badAt 0 [⟨a, a, slotUsed, .ms⟩]).map (fun e => (i.2.1, e.2)))

/-- Live state and shadow storage exchanged, the images `l` coming in. -/
def State.exchange (s : State) (c : Nat) (l : List Strand) : State :=
  let out := s.outgoing c
  (s.modCore c (fun k => { k with shadow := out, results := [] })).putLive c l

/-- The image in shadow storage of a partition other than `p` spilled. -/
def State.makeRoom (s : State) (c p : Nat) : State :=
  match (s.core c).shadow with
  | some (q, l) => if q = p then s else s.spill c q l
  | none => s

/-- The outgoing partition's strands go to shadow storage with none coming in. -/
def State.swapOut (s : State) (c : Nat) : State :=
  if (s.outgoing c).isNone then s else (s.makeRoom c (s.core c).part).exchange c [{}, {}, {}, {}]

/-- A swap that brings in partition `p` (18 R374): from shadow storage, or from the save area after the shadow image is
spilled. -/
def State.swap (s : State) (c p : Nat) : State :=
  match (s.core c).shadow with
  | some (q, l) => if q = p then s.exchange c l else swapFilled
  | none => swapFilled
where
  /-- The swap through the save area. -/
  swapFilled : State :=
    let s1 := s.makeRoom c p
    let s2 := ({ s1 with images := s1.images.filter (fun i => !(i.1 == p && i.2.1 / 4 == c)), fresh := s1.fresh + 4 * scrambleSize } :
      State).exchange c (s1.fillImages c p)
    s1.badImages c p |>.foldl (fun (s : State) e =>
      let t := s.strand e.1
      if t.task.isNone then s.ierrUnc
      else if t.abort.isSome then s
      else s.abortTask e.1 0x21 0 e.2 (mkTsl false 0 0 0) false) s2

/-- The parked commands of the partition go back to their queues in order (18 R375). -/
def State.unpark (s : State) (c p : Nat) : State :=
  let mine := (s.core c).parked.filter (fun e => e.1 == p)
  let s1 := s.modCore c (fun k => { k with parked := k.parked.filter (fun e => e.1 != p) })
  mine.foldl (fun (s : State) e =>
    match e.2 with
    | .copy x => (s.modCore c (fun k => { k with copies := k.copies ++ [x] })).due (.copyStart c)
    | .nm n =>
      if n.op = 8 then s.queuePermit n
      else (s.modCore c (fun k => { k with nmq := k.nmq ++ [n] })).due (nmDue n)
    | .matrix _ => s) s1

/-- Flush cursors go back to the flush engine (14 R308); a pass of a replay that has ended goes on as it would have (19 R396). -/
def State.cursors (s : State) (c : Nat) : State :=
  (coreStrands c).foldl (fun (s : State) g =>
    match (s.strand g).ph with
    | 0 => s
    | 1 => s.askEdge g (.startOfTaskActions g)
    | 2 =>
      if (match s.replayAny g with | some (_, r) => !r.once && !r.ended | none => false) then s.due (.replayPassEnd g)
      else s.askEdge g (.endOfTaskActions g)
    | _ => s.askEdge g (.endOfTaskActions g)) s

/-- The strands of a core that are live again go on (18 R375): their cursors, then the commands held for them. -/
def State.resumeOn (s : State) (c p : Nat) : State := (s.cursors c).unpark c p

/-- ROW_CHANGE (18 R370): the next usable row is entered without a switch when it names the partition the core runs, or
when the core has entered none; otherwise a cadence switch is due. Strands that a host stop has saved are live again. With no
usable row the core stays where it is. -/
def execRowChange (c : Nat) (s : State) : Host.Outcome State Fault Refusal :=
  match s.nextRow c (fun _ => true) with
  | none => whenLive ((s.core c).stop == .none && (s.core c).spent) (fun s => s.modCore c (fun k => { k with spent := false })) s
  | some r =>
    whenLive (s.dieAwake (c / 288) && (s.core c).stop == .none && s.mustLeave c) (fun s =>
      let p := s.cadRow c r % 256
      if !(s.core c).entered || p == (s.core c).part then
        (if s.awaySaved c then ((s.swap c p).resumeOn c p).enterRow c r else s.enterRow c r)
      else s.due (.cadenceSwitch c)) s

/-- The rows that may follow a stop: any, or those of the priority partition. -/
def stopAllows : StopFor → Nat → Bool
  | .priority p, q => p == q
  | _, _ => true

/-- PARTITION_SWAP (18 R374): the images change places, and the core moves to its next usable row. With none a core that the host
stopped stays idle, its strands saved and their commands held; any other goes on as it was. -/
def execPartitionSwap (c : Nat) (s : State) : Host.Outcome State Fault Refusal :=
  let k := s.core c
  whenLive (k.stop != .none && k.saved) (fun s =>
    let row := s.nextRow c (stopAllows k.stop)
    let s0 := s.modCore c (fun k => { k with stop := .none, saved := false, spent := false, asked := false })
    let inP := match row with | some r => s.cadRow c r % 256 | none => k.part
    let s1 := match row with
      | some r => if inP = k.part then (s0.enterRow c r).resumeOn c inP else ((s0.swap c inP).enterRow c r).resumeOn c inP
      | none => if s.hstop k.part then s0.swapOut c else s0.resumeOn c inP
    s1.trace (c / 16) 0x08 (c % 16) 0 inP 0 0 (k.part + 256 * inP)) s

-- Forced pre-emption (18 R376, R377).

/-- PPRE.BUSY: a stop that the host asked for is in progress on some core, alone or joined to one under way (18 R377). -/
def State.ppreBusy (s : State) : Bool := s.cores.any (fun c => c.2.stop != .none && c.2.asked)

/-- PPRE_STOP: HSTOP is set and the stop sequence runs on every core that holds the partition live; one that is in a stop sequence
already is joined (18 R377). -/
def execPpreStop (p : BitVec 8) (s : State) : Host.Outcome State Fault Refusal :=
  .next (if s.ppreBusy then s
    else
      let on := s.cores.filter (fun c => c.2.entered && c.2.part == p.toNat)
      let cs := (on.filter (fun c => c.2.stop == .none)).map Prod.fst
      let s1 := (on.map Prod.fst).foldl (fun (s : State) c => s.modCore c (fun k => { k with asked := true })) (s.setHstop p.toNat true)
      cs.foldl (fun (s : State) c => (s.modCore c (fun k => { k with stop := .host })).due (.stopSequence c)) s1)

/-- PPRE_RESUME: HSTOP is cleared. -/
def execPpreResume (p : BitVec 8) (s : State) : Host.Outcome State Fault Refusal :=
  .next (if s.ppreBusy then s else s.setHstop p.toNat false)

/-- The core that a priority partition takes in a cluster (18 R376). -/
def State.victim (s : State) (u p : Nat) : Option Nat :=
  leastBy (fun c => s.tasksOn c) (((List.range 16).map (fun i => 16 * u + i)).filter (fun c =>
    (s.core c).entered && (s.core c).stop == .none && !bit (s.preg (s.core c).part 0) 3 &&
    (List.range 32).any (fun r => s.cadRow c r % 256 == p && s.rowUsable c r)))

/-- The eligible task of a cluster for which a core may be taken: the next of those that have had none (18 R376). -/
def State.wanting (s : State) (u p : Nat) : Option (QEnt × DEnt) :=
  pickLevel ((s.eligibles u p).filter (fun e => !e.2.taken))

/-- PRIORITY_PREEMPTION (18 R376): at most one core is taken for each task. With no core that qualifies the task waits for an ordinary
cadence switch, and none is taken for it later. -/
def execPriorityPreemption (u : Nat) (p : BitVec 8) (s : State) : Host.Outcome State Fault Refusal :=
  match s.wanting u p.toNat with
  | some (_, e) =>
    whenLive (bit (s.preg p.toNat 0) 3 && (s.startStrand u p.toNat).isNone) (fun s =>
      let s1 := s.modDeps (u / 18) (fun l => l.map (fun x => if x.loc = e.loc ∧ x.seq = e.seq then { x with taken := true } else x))
      match s.victim u p.toNat with
      | some c => (s1.modCore c (fun k => { k with stop := .priority p.toNat })).due (.stopSequence c)
      | none => s1) s
  | none => .next s

end Sys2Proof.Machine
end

