-- ==== Sys2Proof/Machine/Debug.lean ====
section
/-! DEFINITION. Debug (19): the device freeze and its end, the debug access port, trace control and samples, arming a
replay. -/

namespace Sys2Proof.Machine

-- Freeze and resume (19 R378-R386).

/-- DEBUG_FREEZE (19 R384): no effect while the device is frozen or freezing. -/
def execDebugFreeze (s : State) : Host.Outcome State Fault Refusal :=
  .next (if s.frz = 0 then { s.setReg 0 0x60008 0x50 with frz := 1 } else s)

/-- FREEZE_COMPLETE (19 R382): every agent has halted; FRZ is set, and vector 8 is sent (21 R411). -/
def execFreezeComplete (s : State) : Host.Outcome State Fault Refusal :=
  .next (if s.frz = 1 then
    ({ s.setReg 0 0x60008 (s.reg 0 0x60008 ||| 1) with frz := 2 } : State).msix 8 else s)

/-- The strands stopped at a debug stop become ready again, and every DSR and DPC entry clears, and no
freeze has a cause any more (19 R378, R383, R385). -/
def State.resume (s : State) : State :=
  let s1 := (s.cores.map Prod.fst).foldl (fun (s : State) c =>
    let b := 0x20000 + 64 * (c % 288)
    [24, 32, 40, 48, 56].foldl (fun (s : State) o => s.setReg (c / 288) (b + o) 0) s) s
  let back (t : Strand) : Strand := if t.run = .stopped ∧ !t.doubled then { t with run := .ready } else t
  ({ s1.setReg 0 0x60008 0 with
    strands := s1.strands.map (fun e => (e.1, back e.2))
    frz := 0 } : State).pump

/-- DEBUG_RESUME (19 R385): ignored unless the device is frozen. -/
def execDebugResume (s : State) : Host.Outcome State Fault Refusal :=
  .next (if s.frz = 2 then { s.resume with stepArm := none } else s)

/-- DEBUG_STEP (19 R386): after a freeze by the host it resumes without stepping. -/
def execDebugStep (s : State) : Host.Outcome State Fault Refusal :=
  let v := s.reg 0 0x60008
  .next (if s.frz = 2 then { s.resume with stepArm := if bits v 7 4 = 5 then none else some (bits v 28 16) } else s)

-- The debug access port (19 R387).

/-- DASEL of the port. -/
def State.dasel (s : State) : Nat := s.reg 0 0x61000
/-- The strand that DASEL names. -/
def State.daStrand (s : State) : Nat := bits s.dasel 28 16
/-- DAADDR. -/
def State.daAddr (s : State) : Nat := s.reg 0 0x61008
/-- DASTAT.BUSY: an access waits (19 R387). -/
def State.daBusy (s : State) : Bool := bit (s.reg 0 0x61018) 0
/-- An access ends with an error code. -/
def State.daErr (s : State) (e : Nat) : State := s.setReg 0 0x61018 (e * 256)
/-- An access ends with data read. -/
def State.daGet (s : State) (v : Nat) : State := (s.setReg 0 0x61010 v).daErr 0

/-- The system registers of 01 R30. -/
def srKnown (r : Nat) : Bool := decide (r ≤ 0x14) || (decide (0x18 ≤ r) && decide (r ≤ 0x1F))

/-- A system register as it stands in a frozen strand. -/
def frozenSr (fxd : Bool) (t : Strand) (r : Nat) : W64 := if r = 4 then t.cyc else readSr fxd t r

/-- An entry of the branch-pending FIFO as the port shows it. -/
def bpfWord (l : List Bpf) (i : Nat) : Nat :=
  match l[i]? with
  | none => 0
  | some e => (if e.rot then 2 ^ 62 else 0) + e.count % 4 * 2 ^ 60 + e.target % 2 ^ 57

/-- The state a number names; `none` is error 0x91, and the inner `none` state whose arrangement is not architectural. -/
def daState (fxd : Bool) (t : Strand) (n : Nat) : Option (Option Nat) :=
  if n < 0x40 then some (some (t.rs n).toNat)
  else if n < 0x60 then some (some (t.ra (n - 0x40)).toNat)
  else if n < 0x80 then some (some ((t.rm ((n - 0x60) / 2)).toNat / 2 ^ (64 * (n % 2)) % 2 ^ 64))
  else if n = 0x80 then some (some (t.preg.toNat ||| 1))
  else if 0xC0 ≤ n ∧ n < 0xE0 then some (some ((t.rq ((n - 0xC0) / 4)).toNat / 2 ^ (64 * (n % 4)) % 2 ^ 64))
  else if 0x100 ≤ n ∧ n < 0x200 then (if srKnown (n - 0x100) then some (some (frozenSr fxd t (n - 0x100)).toNat) else none)
  else if n = 0x200 then some (some t.ctx.pc)
  else if n = 0x201 ∨ n = 0x202 then some (some (bpfWord t.ctx.bpf (n - 0x201)))
  else if n = 0x203 then some (some (t.ctx.anc % 4 + t.ctx.sc % 16 * 256))
  else if 0x300 ≤ n ∧ n < 0x400 then some (some (t.seed (n - 0x300)).toNat)
  else if 0x1000 ≤ n ∧ n < 0x2000 then some none
  else none

/-- DA_READ_STATE. -/
def execDaReadState (s : State) : Host.Outcome State Fault Refusal :=
  let t := s.strand s.daStrand
  .next (if s.frz ≠ 2 then s.daErr 0x90
    else match daState (s.fxd (coreOf s.daStrand)) t s.daAddr with
      | none => s.daErr 0x91
      | some none => if t.task.isNone then s.daGet 0 else s.freeWord.1.daGet s.freeWord.2.toNat
      | some (some v) => s.daGet (if t.task.isNone then 0 else v))

/-- A frozen strand with the state of a number written; `none` is error 0x92. -/
def daPut (t : Strand) (n v : Nat) : Option Strand :=
  let w := BitVec.ofNat 64 v
  if n < 0x40 then some (t.ws n w)
  else if n < 0x60 then some (t.wa (n - 0x40) w)
  else if n < 0x80 then
    let i := (n - 0x60) / 2
    let o := (t.rm i).toNat
    let k := 64 * (n % 2)
    let x := if n % 2 = 0 then v &&& mdMask.1 else v &&& mdMask.2
    some { t with mreg := SMap.set 0#128 t.mreg i (BitVec.ofNat 128 (o - o / 2 ^ k % 2 ^ 64 * 2 ^ k + x * 2 ^ k)) }
  else if n = 0x80 then some { t with preg := BitVec.ofNat 8 (v % 256 - v % 2) }
  else if 0xC0 ≤ n ∧ n < 0xE0 then
    let k := 64 * (n % 4)
    some (t.wq ((n - 0xC0) / 4) (BitVec.ofNat 256 ((2 ^ 64 - 1) * 2 ^ k)) (BitVec.ofNat 256 (v * 2 ^ k)))
  else if n = 0x101 then (if 5 ≤ v % 8 then none else some { t with efr := BitVec.ofNat 64 (v &&& efrMask) })
  else if 0x100 ≤ n ∧ n < 0x200 then (if srWritable (n - 0x100) then some (writeSr t (n - 0x100) w) else none)
  else if n = 0x200 then
    (if t.ctx.done = 0 ∧ v % 32 = 0 ∧ v < 2 ^ 57 then some { t with ctx := { t.ctx with pc := v } } else none)
  else if 0x300 ≤ n ∧ n < 0x400 then some (t.setSeed (n - 0x300) (BitVec.ofNat 32 v))
  else none

/-- DA_WRITE_STATE: the value lands at once. -/
def execDaWriteState (s : State) : Host.Outcome State Fault Refusal :=
  let g := s.daStrand
  let t := s.strand g
  .next (if s.frz ≠ 2 then s.daErr 0x90
    else if t.task.isNone then s.daErr 0x92
    else if (daState false t s.daAddr).isNone then s.daErr 0x91
    else match daPut t s.daAddr (s.reg 0 0x61010) with
      | none => s.daErr 0x92
      | some u => (s.setStrand g u).daErr 0)

/-- DA_READ_URS. -/
def execDaReadUrs (s : State) : Host.Outcome State Fault Refusal :=
  let t := s.strand s.daStrand
  .next (if s.frz ≠ 2 then s.daErr 0x90
    else if s.daAddr % 8 ≠ 0 ∨ 65536 ≤ s.daAddr then s.daErr 0x91
    else if t.task.isNone then s.daGet 0
    else if (t.ursBad s.daAddr 8).isSome then s.daErr 0x93
    else s.daGet (leNat (t.ursRead s.daAddr 8)))

/-- DA_WRITE_URS. -/
def execDaWriteUrs (s : State) : Host.Outcome State Fault Refusal :=
  let g := s.daStrand
  .next (if s.frz ≠ 2 then s.daErr 0x90
    else if (s.strand g).task.isNone then s.daErr 0x92
    else if s.daAddr % 8 ≠ 0 ∨ 65536 ≤ s.daAddr then s.daErr 0x91
    else (s.modStrand g (fun t => t.ursPut s.daAddr (leBytes 8 (s.reg 0 0x61010)))).daErr 0)

/-- The tile-cache line holds a byte of the eight at a key. -/
def State.tileHolds (s : State) (key : Nat) (x : TLine) : Bool :=
  match s.lay x.part x.handle with
  | some l => l.cached && rangesMeet (l.unitKey (l.tileIx x.pos)) 512 key 8
  | none => false

/-- Dirty bytes of the lines that hold eight bytes written back from every data cache and tile cache; the lines dropped
when `inval`. -/
def State.flushKey (s : State) (key : Nat) (inval : Bool) : State :=
  let s1 := (s.cores.map Prod.fst).foldl (fun (s : State) c => s.wbLines c (fun l => rangesMeet l.key 64 key 8) inval) s
  (s1.tiles.map Prod.fst).foldl (fun (s : State) u => s.wbTiles u (fun x => s1.tileHolds key x) inval) s1

/-- An access to memory waits while some stack retrains, with BUSY set (19 R387, 20 R399). -/
def State.daWait (s : State) (i : Instr) : State := (s.setReg 0 0x61018 1).due i

/-- A PA that the port may reach: 8-aligned, with HOST 0. -/
def daPa (a : Nat) : Bool := a % 8 == 0 && decide (a < 2 ^ 39)

/-- DA_READ_MEMORY. -/
def execDaReadMemory (s : State) : Host.Outcome State Fault Refusal :=
  .next (if s.frz ≠ 2 then s.daErr 0x90
    else if !daPa s.daAddr then s.daErr 0x91
    else if s.hbmBusy then s.daWait .daReadMemory
    else
      let s1 := if bit s.dasel 3 then s.flushKey s.daAddr false else s
      match s1.badAt 0 [⟨s.daAddr, s.daAddr, 8, .ms⟩] with
      | some _ => s1.daErr 0x93
      | none => s1.daGet (s1.memNat s.daAddr 8))

/-- DA_WRITE_MEMORY: written back, written, then invalidated. -/
def execDaWriteMemory (s : State) : Host.Outcome State Fault Refusal :=
  .next (if s.frz ≠ 2 then s.daErr 0x90
    else if !daPa s.daAddr then s.daErr 0x91
    else if s.hbmBusy then s.daWait .daWriteMemory
    else (((s.flushKey s.daAddr false).memWrite s.daAddr (leBytes 8 (s.reg 0 0x61010))).flushKey s.daAddr true).daErr 0)

-- Trace (19 R388, R390).

/-- A power of two in a range. -/
def pow2In (v lo hi : Nat) : Bool := decide (lo ≤ v) && decide (v ≤ hi) && decide (2 ^ v.log2 = v)

/-- The ring of a cluster may be used (19 R388). -/
def State.ringOk (s : State) (u : Nat) : Bool :=
  let d := u / 18
  let b := s.reg d (trBlock u)
  let z := s.reg d (trBlock u + 8)
  pow2In z 4096 (2 ^ 28) && decide (b < 2 ^ 39) && b / 2 ^ 36 == (b + z - 1) / 2 ^ 36

/-- TRCTL written: a write that sets EN is refused when the ring breaks its limits. -/
def State.writeTrctl (s : State) (u v : Nat) : State :=
  let w := v % 2 ^ 32 - bits v 7 0
  s.setReg (u / 18) (trBlock u + 32)
    (w + if bit v 0 && (bit (s.reg (u / 18) (trBlock u + 32)) 0 || s.ringOk u) then 1 else 0)

/-- TRCTL_WRITE. -/
def execTrctlWrite (u : Nat) (v : BitVec 64) (s : State) : Host.Outcome State Fault Refusal :=
  .next (s.writeTrctl (u % 72) v.toNat)

/-- The class of the array's clock and the bundle charged (10 R233, 19 R390), by the command it has started. -/
def State.arrayClass (s : State) (c : Nat) : Nat :=
  match (s.core c).running with
  | none => 4
  | some x => x.addr / 32 * 32 + x.cls

-- Arming a replay (19 R394).

/-- RPCTL of a slot written. -/
def State.writeRpctl (s : State) (k v : Nat) : State :=
  let old := s.rp k 8
  let w1c := if bit v 1 then old - (if bit old 1 then 2 else 0) else old
  let np := bits v 6 4
  let buf := s.rp k 16
  let len := s.rp k 24
  if bit old 2 then
    let s1 := s.setRp k 8 w1c
    if bit v 0 then s1.rpErr k 0x83 else s1
  else
    let part := bits v 39 32 * 2 ^ 32
    if bit v 0 then
      if np = 0 ∨ 4 < np ∨ 2 ^ 39 ≤ buf ∨ buf / 2 ^ 36 ≠ (buf + len - 1) / 2 ^ 36 then
        (s.setRp k 8 (old - bits old 39 32 * 2 ^ 32 - bits old 6 4 * 16 - old % 2 + part + np * 16)).rpErr k 0x83
      else s.setRp k 8 (part + np * 16 + 1)
    else s.setRp k 8 (w1c - bits w1c 39 32 * 2 ^ 32 - bits w1c 6 4 * 16 - w1c % 2 + part + np * 16)

/-- REPLAY_ARM. -/
def execReplayArm (d n : Nat) (v : BitVec 64) (s : State) : Host.Outcome State Fault Refusal :=
  .next (s.writeRpctl (8 * (d % 4) + n % 8) v.toNat)

end Sys2Proof.Machine
end

