-- ==== Sys2Proof/Machine/Reset.lean ====
section
/-! DEFINITION. Resets (20 R398-R400), the power and thermal governor (20 R407), the power states of the function
(21 R408), and errors in storage (12 R268-R270, 20 R405). -/

namespace Sys2Proof.Machine

/-- The retrains of the eight stacks that follow a reset (20 R399). -/
def retrains : List Instr := (List.range 8).map Instr.hbmRetrainDone

/-- What a reset leaves: memory outside the package always, and inside it what `keep` says. The model's own counters and
schedule go on. -/
def State.resetTo (s : State) (keep : Nat → Bool) (bad : List (Nat × Nat)) : State :=
  { State.reset with
    agenda := s.agenda
    work := retrains
    mem := s.mem.filter (fun e => keep e.1)
    bad := bad
    peerLay := s.peerLay
    d3 := s.d3
    idlePw := s.idlePw
    nid := s.nid
    fresh := s.fresh }

/-- COLD_RESET (20 R398): every byte inside the package is zero. -/
def execColdReset (s : State) : Host.Outcome State Fault Refusal :=
  .next { s.resetTo (fun a => decide (2 ^ 41 ≤ a)) [] with d3 := false }

/-- The registers that a warm reset leaves as they stand: those that the table of 20 R398 does not list (00 R9; log 83). They are
the core error records, the layout port, the memory-side caches, translation invalidation, the die event counts, the event counters,
the counts of the ports, and the registers of power and integrity. Those of the global step clear with the sweep list (17 R343), and
ULQST stands at its reset value until the Uliquin controller has verified the images again (20 R401). -/
def warmKeeps (o : Nat) : Bool :=
  (decide (0x20000 ≤ o) && decide (o < 0x24800) && (o % 64 == 8 || o % 64 == 16)) ||
  (decide (0x30000 ≤ o) && decide (o < 0x36000)) || (decide (0x62000 ≤ o) && decide (o < 0x62018)) ||
  (decide (0x70000 ≤ o) && decide (o < 0x74800)) || (decide (0x80100 ≤ o) && decide (o < 0x90000) && o != 0x80400) ||
  (decide (0x91000 ≤ o) && decide (o < 0x91600) && (o % 64 == 16 || o % 64 == 24))

/-- A register kept through a warm reset: no invalidation is in progress, no trip is the last one's, and no replay owns the
event counters. -/
def warmVal (o : Nat) (v : W64) : W64 :=
  if o = 0x34010 then v &&& 0xFF#64
  else if o = 0x80108 then v &&& 0xFFFFFFFDFFFFFFFF#64
  else if 0x70000 ≤ o ∧ o < 0x74800 ∧ o % 64 = 0 then v &&& 0x7FFFFFFFFFFFFFFF#64
  else v

/-- Every stack retrains. -/
def State.retrain (s : State) : State :=
  (List.range 8).foldl (fun (s : State) k => s.setReg (hcst k).1 (hcst k).2 (s.reg (hcst k).1 (hcst k).2 ||| 1)) s

/-- A warm reset (20 R398, R400): HBM is kept, with what its checks say; `last` is RSTSTAT.LAST. The host's MSI-X table is
not part of what the manual lists, nor is the power state of the function (21 R408, R412). -/
def State.warm (s : State) (last : Nat) : State :=
  ({ s.resetTo (fun a => decide (a < 2 ^ 39) || decide (2 ^ 41 ≤ a)) (s.bad.filter (fun b => decide (b.1 < 2 ^ 39))) with
      regs := (s.regs.filter (fun e => warmKeeps (e.1 % 2 ^ 20))).foldl
        (fun l e => SMap.set (BitVec.ofNat 64 (regInit (e.1 % 2 ^ 20))) l e.1 (warmVal (e.1 % 2 ^ 20) e.2)) []
      msixMask := s.msixMask
      msixPend := s.msixPend
      msixSent := s.msixSent
      msixTab := s.msixTab
      d3 := s.d3 } : State).retrain.setReg 0 0x80008 (2 ^ 16 + 256 + last)

/-- RSTCTL_WARM (20 R400): the write acts only with its key. -/
def execRstctlWarm (v : BitVec 64) (s : State) : Host.Outcome State Fault Refusal :=
  .next (if bits v.toNat 15 8 = 0xA5 ∧ bit v.toNat 0 then s.warm 1 else s)

/-- ULIQUIN_WARM_RESET (20 R398). -/
def execUliquinWarmReset (s : State) : Host.Outcome State Fault Refusal := .next (s.warm 3)

/-- THERMAL_TRIP (20 R407): the message of vector 10, then a warm reset that PWRSTAT.TRIP records. -/
def execThermalTrip (s : State) : Host.Outcome State Fault Refusal :=
  let s1 := (s.msix 10).warm 2
  .next (s1.setReg 0 0x80108 (s1.reg 0 0x80108 ||| 2 ^ 33))

/-- HBM_RETRAIN_DONE (20 R399): TRN of the stack clears, and RSTSTAT.TRN with the last stack or link. -/
def execHbmRetrainDone (k : Nat) (s : State) : Host.Outcome State Fault Refusal :=
  let a := hcst k
  .next (s.setReg a.1 a.2 (s.reg a.1 a.2 - s.reg a.1 a.2 % 2)).trnNow

/-- The governor begins to throttle (20 R407): PWRSTAT.THR, and vector 10 when it becomes 1. -/
def State.throttle (s : State) : State :=
  let v := s.reg 0 0x80108
  if bit v 32 then s else (s.setReg 0 0x80108 (v + 2 ^ 32)).msix 10

/-- A cap below the idle power throttles every core to zero clocks (20 R407). -/
def State.throttleNow (s : State) : State := if s.starved then s.throttle else s

/-- PWRCAP_WRITE (20 R407): clamped to PWRSTAT.FUSED. The governor holds the measured power at or below the new cap. -/
def execPwrcapWrite (v : BitVec 64) (s : State) : Host.Outcome State Fault Refusal :=
  let w := s.reg 0 0x80108
  let cap := min (v.toNat % 65536) (bits w 31 16)
  .next ((s.setReg 0 0x80100 cap).setReg 0 0x80108 (w - w % 65536 + min (w % 65536) cap)).throttleNow

/-- GOVERNOR_THROTTLE (20 R407): PWRSTAT.THR, and vector 10 when it becomes 1. It does not clear while the cap withholds every clock. -/
def execGovernorThrottle (c : BitVec 1) (s : State) : Host.Outcome State Fault Refusal :=
  let v := s.reg 0 0x80108
  .next (if c = 1#1 then s.throttle else if bit v 32 && !s.starved then s.setReg 0 0x80108 (v - 2 ^ 32) else s)

/-- PCIE_POWER_STATE (21 R408): as D3hot is entered the package is reset as by a warm reset, LAST left as it was, and every agent
is held until D0 (DEDUCED, log 84). -/
def execPciePowerState (h : BitVec 1) (s : State) : Host.Outcome State Fault Refusal :=
  .next (if h = 1#1 then (if s.d3 then s else { s.warm (s.reg 0 0x80008 % 8) with d3 := true }) else { s with d3 := false })

/-- The Uliquin controller has verified the images (20 R401, R403): the images that failed, the version, and whether the
attestation service is ready. Each image is measured. -/
def State.boot (s : State) (fail svn : Nat) (att : Bool) : State :=
  { s.setReg 0 0x80400 (fail % 64 * 2 ^ 32 + svn % 65536 * 2 ^ 16 + (if att then 2 else 0) + if fail % 64 = 0 then 1 else 0) with
    measured := List.range 6 }

/-- The measured power of the package (20 R407): the governor holds it at or below the cap, and the cap below the fused one. -/
def State.measure (s : State) (w : Nat) : State :=
  let v := s.reg 0 0x80108
  s.setReg 0 0x80108 (v - v % 65536 + min w (min (s.reg 0 0x80100) (bits v 31 16)))

-- Errors in storage.

/-- CERR of a core. -/
def State.cerr (s : State) (c : Nat) : Nat := s.reg (c / 288) (0x20008 + 64 * (c % 288))

/-- A correctable error of a core (12 R269, R270). -/
def State.corrected (s : State) (c e : Nat) : State :=
  let v := s.cerr c
  let n := min 0xFFFF (v / 2 ^ 48 + 1)
  s.setReg (c / 288) (0x20008 + 64 * (c % 288)) (n * 2 ^ 48 + (v % 2 ^ 48 - bits v 31 24 * 2 ^ 24) + e % 256 * 2 ^ 24)

/-- An uncorrectable error of a core is reported to its die's processor, and the first is recorded: its kind, the strand charged,
its address (12 R269, R270). -/
def State.uncorrected (s0 : State) (c e : Nat) (str : Option Nat) (a : Nat) : State :=
  let s : State := { s0 with coreReports := s0.coreReports ++ [(c, e, a)] }
  let v := s.cerr c
  if bit v 0 then s
  else
    let w := v - bits v 42 32 * 2 ^ 32 + (match str with | some k => 2 ^ 42 + k % 4 * 2 ^ 40 | none => 0) + e % 256 * 2 ^ 32 + 1
    (s.setReg (c / 288) (0x20008 + 64 * (c % 288)) w).setReg (c / 288) (0x20010 + 64 * (c % 288)) (a % 2 ^ 57)

/-- An error noted on URS bytes of a strand. -/
def noteUrs (o : Nat) (t : Strand) : Strand := { t with errs := t.errs ++ [(.urs (o / 8 * 8) 8, 0x121, 0)] }

/-- The strand runs the task that last wrote a line. -/
def Strand.wrote (t : Strand) (l : DLine) : Bool :=
  t.ofPart l.part && (match t.task with | some k => k.seq == l.wseq | none => false)

/-- A strand of the core is in phase 2 of its edge, and the line lies in a W region of its task (14 R297, R306). -/
def State.inPhase (s : State) (c : Nat) (l : DLine) : Option Nat :=
  (coreStrands c).find? (fun g =>
    let t := s.strand g
    t.ph == 3 && t.abort.isNone && t.regions.any (fun r => bit r.acc 1 && r.hasLine t.part l))

/-- An uncorrectable error on the dirty line of a core at an address (12 R270, 14 R306): the line is dropped. The task whose phase
2 meets it is aborted; otherwise the strand that last wrote it raises 0x21. If that task has ended it is only reported, and the
words that it held keep wrong checks (20 R405). -/
def State.lineLost (s : State) (c a : Nat) : State :=
  match (s.core c).dc.find? (fun l => l.va == a / 64 * 64 && l.dirty != 0) with
  | none => s
  | some l =>
    let va := a / 64 * 64
    let s1 := (s.uncorrected c 4 (some (l.writer % 4)) va).dropLines c (fun x => x.part == l.part && x.va == l.va)
    let t := s1.strand l.writer
    match s1.inPhase c l with
    | some g => s1.edgeAbort g va
    | none =>
      if t.wrote l ∧ t.ph < 4 then s1.modStrand l.writer (noteDue va)
      else if s1.savedStrands.any (fun t => t.wrote l) then s1.noteSaved (fun t => t.wrote l) va
      else (s1.markBad l.key 64 l.dirty).ierrUnc

/-- A result with an error recorded against every destination of it (12 R270). -/
def MRes.lose (r : MRes) : MRes :=
  { r with effs := withLoss true r.effs, fam := r.fam.map (fun x => { x with lost := true }) }

/-- An uncorrectable error in the `n`th result buffer, or with any other number on the accumulator path of the command in the array: it
is recorded against every destination of the result (12 R270). CEAR.ADDR records 0, the kind having no data or line address (DESIGN
CHOICE, log 105). -/
def State.resultLost (s : State) (c n : Nat) : State :=
  match (s.core c).results[n]?, (s.core c).running with
  | some r, _ =>
    (s.uncorrected c 6 (some (r.strand % 4)) 0).modCore c (fun k =>
      { k with results := k.results.map (fun x => if x.id = r.id ∧ x.strand = r.strand then x.lose else x) })
  | none, some x =>
    (s.uncorrected c 6 (some (x.strand % 4)) 0).modCore c (fun k =>
      { k with mq := k.mq.map (fun y => if y.id = x.id then { y with lost := true } else y) })
  | none, none => s

/-- The entries of a core's instruction cache and micro-translation cache at an address are given up, to be fetched or filled again
(12 R270). -/
def State.entryLost (s : State) (c a : Nat) : State :=
  (coreStrands c).foldl (fun (s : State) g => s.modStrand g (fun t =>
      { t with ahead := t.ahead.filter (fun e => e.1 != a / 32 * 32) }))
    (s.modCore c (fun k => { k with utlb := k.utlb.filter (fun e => !(decide (e.va ≤ a) && decide (a < e.va + e.size))) }))

/-- An effect is lost from a control state: of its landing-queue entries and then the entries of its completion buffer the
`n`th, with the address of its bundle. -/
def Ctx.lose (x : Ctx) (n : Nat) : Option (Ctx × Nat) :=
  match x.lq[n]? with
  | some e => some ({ x with lq := x.lq.eraseIdx n }, e.addr)
  | none => if n - x.lq.length < x.buf.length then some ({ x with buf := x.buf.eraseIdx (n - x.lq.length) }, x.pc) else none

/-- An uncorrectable error in the `n`th entry of a strand's landing queue or bundle completion buffer, those frozen by a trap
after the others: its effect is lost (12 R270). CEAR.ADDR records 0, the kind having no data or line address (DESIGN CHOICE,
log 105). -/
def State.landingLost (s : State) (c g n : Nat) : State :=
  let t := s.strand g
  let s1 := s.uncorrected c 7 (some (g % 4)) 0
  match t.ctx.lose n with
  | some x => s1.modStrand g (fun t => noteDue x.2 { t with ctx := x.1 })
  | none =>
    match t.frozen with
    | none => s
    | some (f, a, b) =>
      match f.lose (n - t.ctx.lq.length - t.ctx.buf.length) with
      | some x => s1.modStrand g (fun t => noteDue x.2 { t with frozen := some (x.1, a, b) })
      | none => s

/-- An uncorrectable error in core storage, by kind (12 R270). `a` is an address for kinds 3 to 5; the strand of the core is
`a / 65536` and its URS byte or landing entry `a % 65536` for kinds 1, 2 and 7; the number of a result buffer for kind 6. -/
def State.coreError (s : State) (c e a : Nat) : State :=
  let k := a / 65536 % 4
  let g := 4 * c + k
  match e with
  | 1 => (s.uncorrected c 1 (some k) (a % 65536)).modStrand g (noteUrs (a % 65536))
  | 2 => (s.uncorrected c 2 (some k) (a % 65536)).modCore c (fun x =>
      { x with shadow := x.shadow.map (fun p => (p.1, (p.2.zip [0, 1, 2, 3]).map (fun t =>
          if t.2 = k then noteDue t.1.ctx.pc t.1 else t.1))) })
  | 3 => (s.corrected c 3).dropLines c (fun l => l.va == a / 64 * 64 && l.dirty == 0)
  | 4 => s.lineLost c a
  | 5 => (s.corrected c 5).entryLost c a
  | 6 => s.resultLost c a
  | _ => s.landingLost c g (a % 65536)

/-- A stored word outside the cores fails its check: a vault's 8-byte word, or a 512-byte line of HBM (20 R404, R405). A corrected
one is counted, and one of a stack at its base die too (16 R334). -/
def State.memError (s : State) (u : Bool) (a : Nat) : State :=
  if u then { s with bad := s.bad ++ [if a < 2 ^ 39 then (a / 512 * 512, 512) else (a / 8 * 8, 8)] }
  else if a < 2 ^ 39 then
    let r := hcst (a / 2 ^ 36)
    let v := s.reg r.1 r.2
    (s.setReg r.1 r.2 (v % 2 ^ 16 + min 0xFFFF (bits v 31 16 + 1) * 2 ^ 16)).ierrCor
  else s.ierrCor

/-- The `n`th line of a cluster's tile cache fails its checks (20 R405). -/
def State.tileError (s : State) (n u : Nat) : State :=
  match (SMap.get [] s.tiles u)[n]? with
  | none => s
  | some x => s.tileSet u { x with bad := 2 ^ 512 - 1 }

/-- STORAGE_ERROR (12 R270, 20 R405): kinds 1 to 7 are those of a core; kind 8 is a line of its cluster's tile cache; another
kind is a word of a vault or of HBM. -/
def execStorageError (c : Nat) (e : BitVec 8) (u : BitVec 1) (a : Nat) (s : State) : Host.Outcome State Fault Refusal :=
  let k := e.toNat
  .next (if 1 ≤ k ∧ k ≤ 7 then (if u = 1#1 then s.coreError c k a else s.corrected c k)
    else if k = 8 then (if u = 1#1 then s.tileError a (c / 16) else s.ierrCor)
    else s.memError (u == 1#1) a)

end Sys2Proof.Machine
end

