-- ==== Sys2Proof/Machine/Registers.lean ====
section
/-! DEFINITION. The register windows (15 R318): what a write to each register does.
Registers that act on the package are held once, at die 0; those of a die at the die. -/

namespace Sys2Proof.Machine

/-- The state an event leaves. -/
def outState (o : Host.Outcome State Fault Refusal) (s : State) : State := match o with | .next t => t | _ => s

/-- The bits of a register that a write sets. -/
def State.put (s : State) (d o mask v : Nat) : State :=
  let old := s.reg d o
  s.setReg d o ((old - (old &&& mask)) + (v &&& mask))

/-- Bits written as 1 clear. -/
def State.w1c (s : State) (d o mask v : Nat) : State :=
  let old := s.reg d o
  s.setReg d o (old - (old &&& (v &&& mask)))

/-- All bits of a register. -/
def all64 : Nat := 2 ^ 64 - 1

/-- A register of a stream written (15 R318, R319). -/
def State.writeStream (s : State) (d n o v : Nat) : State :=
  let a := 0x10000 + 0x100 * n + o
  match o with
  | 0 => s.put d a (2 ^ 57 - 1) v
  | 8 => s.put d a all64 v
  | 24 => s.doorbell d n v
  | 32 => s.put d a 0x1FF v
  | 40 => if bit v 0 then outState (execCsstHaltClear d n s) s else s
  | _ => s

/-- A register of a core written (12 R268, R269). -/
def State.writeCore (s : State) (d a v : Nat) : State :=
  if a % 64 = 8 then (s.put d a (0xFFFF * 2 ^ 48) v).w1c d a 1 v else s

/-- A register at 0x30000 to 0x3FFFF written: the layout port (16 R331), the memory-side caches (16 R334), translation
invalidation (16 R325), the global step (17 R343). -/
def State.write3 (s : State) (d o v : Nat) : State :=
  if o < 0x30040 then s.put d o all64 v
  else if o = 0x30040 then s.layoutOp d (bits v 33 32) (bits v 31 24) (bits v 23 0)
  else if 0x31000 ≤ o ∧ o < 0x31200 then
    match o % 256 with
    | 0 => s.put d o 1 v
    | 8 => s.put d o all64 v
    | 16 => s.put d o all64 v
    | 24 => s.put d o all64 v
    | 32 => s.put d o 0xFFFF v
    | 40 => s.put d o 0xFFFF0000 v
    | _ => s
  else match o with
    | 0x34000 => s.put 0 o (2 ^ 57 - 1) v
    | 0x34008 => s.put 0 o all64 v
    | 0x34010 => if bit v 8 then outState (execTictlGo (BitVec.ofNat 8 v) s) s else s.put 0 o 0xFF v
    | 0x36000 => outState (execGstepWrite (BitVec.ofNat 64 v) s) s
    | 0x36008 => s.put 0 o 0x1FF v
    | 0x36010 => s.w1c 0 o 1 v
    | 0x36018 => s.put d o all64 v
    | 0x36020 => s.put d o all64 v
    | _ => s

/-- A register at 0x40000 to 0x4FFFF written: the partitions (18 R367) and PPRE (18 R376). -/
def State.write4 (s : State) (o v : Nat) : State :=
  if o < 0x44000 then
    let p := (o - 0x40000) / 64
    let free (m : Nat) : State := if bit (s.preg p 0) 0 then s else s.put 0 o m v
    match o % 64 with
    | 0 => s.writePctl p v
    | 8 => free (2 ^ 40 - 1)
    | 16 => free (2 ^ 57 - 1)
    | 24 => free (2 ^ 40 - 1)
    | 32 => free all64
    | 40 => free 0xFF
    | 56 => s.put 0 o all64 v
    | _ => s
  else if o = 0x44000 then
    match bits v 9 8 with
    | 1 => outState (execPpreStop (BitVec.ofNat 8 v) s) s
    | 2 => outState (execPpreResume (BitVec.ofNat 8 v) s) s
    | _ => s
  else s

/-- An access of the debug access port (19 R387). -/
def State.daGo (s : State) : State :=
  let wr := bit s.dasel 2
  match s.dasel % 4 with
  | 0 => outState (if wr then execDaWriteState s else execDaReadState s) s
  | 1 => outState (if wr then execDaWriteUrs s else execDaReadUrs s) s
  | 2 => outState (if wr then execDaWriteMemory s else execDaReadMemory s) s
  | _ => s.daErr (if s.frz = 2 then 0x91 else 0x90)

/-- DBGCTL written (19 R378): FREEZE acts on a running device, RESUME on a frozen one. -/
def State.writeDbgctl (s : State) (v : Nat) : State :=
  let s1 := s.put 0 0x60000 0x100 v
  if s.frz = 2 then
    (if bit v 10 then (if bit v 11 then outState (execDebugStep s1) s1 else outState (execDebugResume s1) s1) else s1)
  else if bit v 9 then outState (execDebugFreeze s1) s1
  else s1

/-- A register at 0x60000 to 0x6FFFF written: debug (19 R378, R379), the access port (19 R387), die counts (19 R393),
replay (19 R394) and trace (19 R388). -/
def State.write6 (s : State) (d o v : Nat) : State :=
  if o = 0x60000 then s.writeDbgctl v
  else if 0x60040 ≤ o ∧ o < 0x600C0 then
    (if o % 16 = 0 then s.put 0 o (2 ^ 57 - 25) v else s.put 0 o 0x1FF01 v)
  else if 0x600C0 ≤ o ∧ o < 0x60140 then
    (if o % 16 = 0 then s.put 0 o (2 ^ 57 - 1) v else s.put 0 o 0xFF1F07 v)
  else if o = 0x61000 then
    let s1 := s.put 0 o 0x1FFF000F v
    if bit v 4 && !s.daBusy then s1.daGo else s1
  else if o = 0x61008 ∨ o = 0x61010 then s.put 0 o all64 v
  else if 0x62000 ≤ o ∧ o < 0x62018 then s.put d o all64 v
  else if 0x63000 ≤ o ∧ o < 0x63200 then
    let k := 8 * d + (o - 0x63000) / 64
    let free (m : Nat) : State := if bit (s.rp k 8) 2 then s else s.put d o m v
    match o % 64 with
    | 0 => free (2 ^ 57 - 1)
    | 8 => s.writeRpctl k v
    | 16 => free (2 ^ 40 - 1)
    | 24 => free all64
    | 32 => free all64
    | 40 => free all64
    | _ => s
  else if 0x64000 ≤ o ∧ o < 0x64480 then
    let u := 18 * d + (o - 0x64000) / 64
    let free (m : Nat) : State := if bit (s.reg d (trBlock u + 32)) 0 then s else s.put d o m v
    match o % 64 with
    | 0 => free (2 ^ 40 - 1)
    | 8 => free all64
    | 24 => s.put d o all64 v
    | 32 => s.writeTrctl u v
    | 40 => s.put d o all64 v
    | _ => s
  else s

/-- The bits of ECSEL that a write sets (19 R391). -/
def ecMask : Nat := 2 ^ 57 - 1

/-- An event counter or its selection written: ignored while a replay owns the counters. -/
def State.write7 (s : State) (d o v : Nat) : State :=
  if 0x74800 ≤ o ∨ 40 ≤ o % 64 ∨ bit (s.reg d (o / 64 * 64)) 63 then s
  else s.put d o (if o % 64 = 0 then ecMask else all64) v

/-- VLCTL written (21 R416): the port trains while EN is 1 and goes down when it is 0. -/
def State.writeVlctl (s : State) (p v : Nat) : State :=
  let s1 := s.put 0 (vlPort p) 1 v
  if bit v 0 then (if s.vlState p = 0 then outState (execVlPortStateChange p 1#4 0#12 s1) s1 else s1)
  else if s.vlState p ≠ 0 then outState (execVlPortStateChange p 0#4 0#12 s1) s1
  else s1

/-- A register from 0x80000 on written: the package (20) and the fabric (21). -/
def State.write8 (s : State) (o v : Nat) : State :=
  if 0xA0000 ≤ o ∧ o < 0xA0400 then s.writeWin ((o - 0xA0000) / 32) (o % 32 / 8) v
  else if 0x98000 ≤ o ∧ o < 0xA0000 then s.put 0 o 0x11F v
  else if 0x91000 ≤ o ∧ o < 0x91600 then
    match o % 64 with
    | 0 => s.writeVlctl ((o - 0x91000) / 64) v
    | 16 => s.put 0 o all64 v
    | 24 => s.put 0 o all64 v
    | _ => s
  else match o with
    | 0x80000 => outState (execRstctlWarm (BitVec.ofNat 64 v) s) s
    | 0x80100 => outState (execPwrcapWrite (BitVec.ofNat 64 v) s) s
    | 0x80108 => s.w1c 0 o (2 ^ 33) v
    | 0x80200 => s.put 0 o all64 v
    | 0x90000 => s.writePkgid v
    | 0x90100 => s.put 0 o (2 ^ 44 - 1) v
    | 0x90108 => s.fabricOp (bits v 33 32) (bits v 31 24) (bits v 23 0)
    | _ => s

/-- A size that FQSIZE takes (15 R318). -/
def fqSizeOk (v : Nat) : Bool := v == 0 || pow2In v 16 65536

/-- A register of die `d` written with 64 bits; an offset that no register occupies ignores it (21 R409). -/
def State.writeReg (s : State) (d o v : Nat) : State :=
  if o % 8 ≠ 0 ∨ 4 ≤ d then s
  else if o < 0x10000 then
    match o with
    | 0 => s.put d 0 (2 ^ 40 - 1) v
    | 8 => if fqSizeOk v then s.put d 8 all64 v else s
    | 24 => s.put d 24 all64 v
    | _ => s
  else if o < 0x10800 then s.writeStream d ((o - 0x10000) / 256) (o % 256) v
  else if o < 0x20000 then s
  else if o < 0x24800 then s.writeCore d o v
  else if o < 0x30000 then s
  else if o < 0x40000 then s.write3 d o v
  else if o < 0x50000 then s.write4 o v
  else if o < 0x51200 then s.put d o 0xFFFFFFFF000001FF v
  else if o < 0x60000 then s
  else if o < 0x70000 then s.write6 d o v
  else if o < 0x80000 then s.write7 d o v
  else s.write8 o v

/-- REGISTER_WRITE: 64 bits written to a register of a die's window, with what the register's own rule makes of it. -/
def execRegisterWrite (d o : Nat) (v : BitVec 64) (s : State) : Host.Outcome State Fault Refusal :=
  .next (s.writeReg d o v.toNat)

/-- An agent of outside adds to a count that depends on timing. -/
def State.countUp (s : State) (d o n : Nat) : State :=
  let mc := (o / 256 == 0x310 || o / 256 == 0x311) && [8, 16, 24].contains (o % 256)
  let vl := decide (0x91000 ≤ o) && decide (o < 0x91600) && [16, 24].contains (o % 64)
  if mc then s.setReg (d % 4) o (s.reg (d % 4) o + n) else if vl then s.setReg 0 o (s.reg 0 o + n) else s

end Sys2Proof.Machine
end

