-- ==== Sys2Proof/Machine/Scalar.lean ====
section
/-! DEFINITION. The S slot (04 R94-R109): integer arithmetic, compares, predicate logic, scalar FP32 and single-element
moves between scalar registers and the URS. -/

namespace Sys2Proof.Machine

/-- An S operation that writes `s[d]` with latency `l` (04 R94, R95). -/
def sSem (t : Strand) (k : BitVec 3) (g : BitVec 1) (rd : List Nat) (d : BitVec 6) (l : Nat) (v : W64) : SlotSem :=
  { guard := t.guard k g, guarded := isGuarded k g, srcs := srcS rd, dsts := [.s d.toNat],
    lands := [(l, .sreg d.toNat v)] }

/-- An S operation that writes `p[d]` with latency 1. -/
def pSem (t : Strand) (k : BitVec 3) (g : BitVec 1) (rd : List Dst) (d : BitVec 3) (v : Bool) : SlotSem :=
  { guard := t.guard k g, guarded := isGuarded k g, srcs := rd, dsts := [.p d.toNat], lands := [(1, .preg d.toNat v)] }

/-- Two register operands and an integer function of them. -/
def semRR (f : W64 → W64 → W64) (l : Nat) (k : BitVec 3) (g : BitVec 1) (d a b : BitVec 6) (s : State) : SlotSem :=
  let t := s.me
  sSem t k g [a.toNat, b.toNat] d l (f (t.rs a.toNat) (t.rs b.toNat))

/-- One register operand (04 R100). -/
def semR1 (f : W64 → W64) (k : BitVec 3) (g : BitVec 1) (d a : BitVec 6) (s : State) : SlotSem :=
  let t := s.me
  sSem t k g [a.toNat] d 1 (f (t.rs a.toNat))

/-- A register and a 10-bit immediate, sign-extended (04 R98). -/
def semRI (f : W64 → W64 → W64) (k : BitVec 3) (g : BitVec 1) (d a : BitVec 6) (i : BitVec 10) (s : State) : SlotSem :=
  let t := s.me
  sSem t k g [a.toNat] d 1 (f (t.rs a.toNat) (sext64 10 i.toNat))

/-- A register and a shift count of six bits (04 R98). -/
def semRC (f : W64 → Nat → W64) (k : BitVec 3) (g : BitVec 1) (d a : BitVec 6) (i : BitVec 6) (s : State) : SlotSem :=
  let t := s.me
  sSem t k g [a.toNat] d 1 (f (t.rs a.toNat) i.toNat)

/-- The shift count in a register: its low six bits (04 R97). -/
def cnt (b : W64) : Nat := b.toNat % 64

/-- Minimum and maximum, signed or unsigned (04 R97). -/
def minS64 (a b : W64) : W64 := if b.slt a then b else a
def minZ64 (a b : W64) : W64 := if b.ult a then b else a
def maxS64 (a b : W64) : W64 := if a.slt b then b else a
def maxZ64 (a b : W64) : W64 := if a.ult b then b else a

/-- High half of the signed product (04 R99). -/
def mulhS64 (a b : W64) : W64 := BitVec.ofInt 64 ((a.toInt * b.toInt) / (2 ^ 64 : Int))
/-- High half of the unsigned product (04 R99). -/
def mulhZ64 (a b : W64) : W64 := BitVec.ofNat 64 (a.toNat * b.toNat / 2 ^ 64)

/-- `div.s` (04 R99): all ones for a zero divisor; the most negative number by −1 is itself. -/
def divS64 (a b : W64) : W64 :=
  if b = 0#64 then BitVec.allOnes 64 else BitVec.ofInt 64 (Int.tdiv a.toInt b.toInt)
/-- `div.z` (04 R99). -/
def divZ64 (a b : W64) : W64 := if b = 0#64 then BitVec.allOnes 64 else BitVec.ofNat 64 (a.toNat / b.toNat)
/-- `rem.s` (04 R99): the dividend for a zero divisor. -/
def remS64 (a b : W64) : W64 := if b = 0#64 then a else BitVec.ofInt 64 (Int.tmod a.toInt b.toInt)
/-- `rem.z` (04 R99). -/
def remZ64 (a b : W64) : W64 := if b = 0#64 then a else BitVec.ofNat 64 (a.toNat % b.toNat)

/-- Leading zero bits (04 R100). -/
def clz64 (a : W64) : W64 := if a = 0#64 then 64#64 else BitVec.ofNat 64 (63 - a.toNat.log2)
/-- Trailing zero bits from bit `i` on. -/
def ctzFrom : Nat → Nat → Nat → Nat
  | 0, _, i => i
  | f + 1, n, i => if n.testBit i then i else ctzFrom f n (i + 1)
/-- Trailing zero bits (04 R100). -/
def ctz64 (a : W64) : W64 := BitVec.ofNat 64 (ctzFrom 64 a.toNat 0)
/-- One bits among the lowest. -/
def popFrom : Nat → Nat → Nat
  | 0, _ => 0
  | f + 1, n => n % 2 + popFrom f (n / 2)
/-- One bits (04 R100). -/
def popc64 (a : W64) : W64 := BitVec.ofNat 64 (popFrom 64 a.toNat)
/-- SignExtend of the low `w` bits (03 R71). -/
def sextOf (w : Nat) (a : W64) : W64 := sext64 w (a.toNat % 2 ^ w)
/-- ZeroExtend of the low `w` bits (03 R71). -/
def zextOf (w : Nat) (a : W64) : W64 := BitVec.ofNat 64 (a.toNat % 2 ^ w)

/-- `add` (04 R97). -/
def semAdd (k : BitVec 3) (g : BitVec 1) (d a b : BitVec 6) (s : State) : SlotSem :=
  semRR (· + ·) 1 k g d a b s

/-- `sub` (04 R97). -/
def semSub (k : BitVec 3) (g : BitVec 1) (d a b : BitVec 6) (s : State) : SlotSem :=
  semRR (· - ·) 1 k g d a b s

/-- `and` (04 R97). -/
def semAnd (k : BitVec 3) (g : BitVec 1) (d a b : BitVec 6) (s : State) : SlotSem :=
  semRR (· &&& ·) 1 k g d a b s

/-- `or` (04 R97). -/
def semOr (k : BitVec 3) (g : BitVec 1) (d a b : BitVec 6) (s : State) : SlotSem :=
  semRR (· ||| ·) 1 k g d a b s

/-- `xor` (04 R97). -/
def semXor (k : BitVec 3) (g : BitVec 1) (d a b : BitVec 6) (s : State) : SlotSem :=
  semRR (· ^^^ ·) 1 k g d a b s

/-- `andn` (04 R97). -/
def semAndn (k : BitVec 3) (g : BitVec 1) (d a b : BitVec 6) (s : State) : SlotSem :=
  semRR (fun x y => x &&& ~~~y) 1 k g d a b s

/-- `shl` (04 R97). -/
def semShl (k : BitVec 3) (g : BitVec 1) (d a b : BitVec 6) (s : State) : SlotSem :=
  semRR (fun x y => x <<< cnt y) 1 k g d a b s

/-- `shr.s` (04 R97). -/
def semShrS (k : BitVec 3) (g : BitVec 1) (d a b : BitVec 6) (s : State) : SlotSem :=
  semRR (fun x y => x.sshiftRight (cnt y)) 1 k g d a b s

/-- `shr.z` (04 R97). -/
def semShrZ (k : BitVec 3) (g : BitVec 1) (d a b : BitVec 6) (s : State) : SlotSem :=
  semRR (fun x y => x >>> cnt y) 1 k g d a b s

/-- `rotr` (04 R97). -/
def semRotr (k : BitVec 3) (g : BitVec 1) (d a b : BitVec 6) (s : State) : SlotSem :=
  semRR (fun x y => x.rotateRight (cnt y)) 1 k g d a b s

/-- `min.s` (04 R97). -/
def semMinS (k : BitVec 3) (g : BitVec 1) (d a b : BitVec 6) (s : State) : SlotSem :=
  semRR minS64 1 k g d a b s

/-- `min.z` (04 R97). -/
def semMinZ (k : BitVec 3) (g : BitVec 1) (d a b : BitVec 6) (s : State) : SlotSem :=
  semRR minZ64 1 k g d a b s

/-- `max.s` (04 R97). -/
def semMaxS (k : BitVec 3) (g : BitVec 1) (d a b : BitVec 6) (s : State) : SlotSem :=
  semRR maxS64 1 k g d a b s

/-- `max.z` (04 R97). -/
def semMaxZ (k : BitVec 3) (g : BitVec 1) (d a b : BitVec 6) (s : State) : SlotSem :=
  semRR maxZ64 1 k g d a b s

/-- `mul` (04 R99), latency 3 (R95). -/
def semMul (k : BitVec 3) (g : BitVec 1) (d a b : BitVec 6) (s : State) : SlotSem :=
  semRR (· * ·) 3 k g d a b s

/-- `mulh.s` (04 R99). -/
def semMulhS (k : BitVec 3) (g : BitVec 1) (d a b : BitVec 6) (s : State) : SlotSem :=
  semRR mulhS64 3 k g d a b s

/-- `mulh.z` (04 R99). -/
def semMulhZ (k : BitVec 3) (g : BitVec 1) (d a b : BitVec 6) (s : State) : SlotSem :=
  semRR mulhZ64 3 k g d a b s

/-- `div.s` (04 R99), latency 18 (R95). -/
def semDivS (k : BitVec 3) (g : BitVec 1) (d a b : BitVec 6) (s : State) : SlotSem :=
  semRR divS64 18 k g d a b s

/-- `div.z` (04 R99). -/
def semDivZ (k : BitVec 3) (g : BitVec 1) (d a b : BitVec 6) (s : State) : SlotSem :=
  semRR divZ64 18 k g d a b s

/-- `rem.s` (04 R99). -/
def semRemS (k : BitVec 3) (g : BitVec 1) (d a b : BitVec 6) (s : State) : SlotSem :=
  semRR remS64 18 k g d a b s

/-- `rem.z` (04 R99). -/
def semRemZ (k : BitVec 3) (g : BitVec 1) (d a b : BitVec 6) (s : State) : SlotSem :=
  semRR remZ64 18 k g d a b s

/-- `clz` (04 R100). -/
def semClz (k : BitVec 3) (g : BitVec 1) (d a : BitVec 6) (s : State) : SlotSem :=
  semR1 clz64 k g d a s

/-- `ctz` (04 R100). -/
def semCtz (k : BitVec 3) (g : BitVec 1) (d a : BitVec 6) (s : State) : SlotSem :=
  semR1 ctz64 k g d a s

/-- `popc` (04 R100). -/
def semPopc (k : BitVec 3) (g : BitVec 1) (d a : BitVec 6) (s : State) : SlotSem :=
  semR1 popc64 k g d a s

/-- `sext.b` (04 R100). -/
def semSextB (k : BitVec 3) (g : BitVec 1) (d a : BitVec 6) (s : State) : SlotSem :=
  semR1 (sextOf 8) k g d a s

/-- `sext.h` (04 R100). -/
def semSextH (k : BitVec 3) (g : BitVec 1) (d a : BitVec 6) (s : State) : SlotSem :=
  semR1 (sextOf 16) k g d a s

/-- `sext.w` (04 R100). -/
def semSextW (k : BitVec 3) (g : BitVec 1) (d a : BitVec 6) (s : State) : SlotSem :=
  semR1 (sextOf 32) k g d a s

/-- `zext.b` (04 R100). -/
def semZextB (k : BitVec 3) (g : BitVec 1) (d a : BitVec 6) (s : State) : SlotSem :=
  semR1 (zextOf 8) k g d a s

/-- `zext.h` (04 R100). -/
def semZextH (k : BitVec 3) (g : BitVec 1) (d a : BitVec 6) (s : State) : SlotSem :=
  semR1 (zextOf 16) k g d a s

/-- `zext.w` (04 R100). -/
def semZextW (k : BitVec 3) (g : BitVec 1) (d a : BitVec 6) (s : State) : SlotSem :=
  semR1 (zextOf 32) k g d a s

/-- `cmp` (04 R101). -/
def semCmp (k : BitVec 3) (g : BitVec 1) (p : BitVec 3) (a b : BitVec 6) (c : BitVec 4) (s : State) : SlotSem :=
  let t := s.me
  pSem t k g (srcS [a.toNat, b.toNat]) p (cond (relS c.toNat) (t.rs a.toNat) (t.rs b.toNat))

/-- `cmpi` (04 R101). -/
def semCmpi (k : BitVec 3) (g : BitVec 1) (c : BitVec 4) (p : BitVec 3) (a : BitVec 6) (i : BitVec 9) (s : State) : SlotSem :=
  let t := s.me
  pSem t k g (srcS [a.toNat]) p (cond (relS c.toNat) (t.rs a.toNat) (sext64 9 i.toNat))

/-- `sel` (04 R102). -/
def semSel (k : BitVec 3) (g : BitVec 1) (d a b : BitVec 6) (c : BitVec 3) (s : State) : SlotSem :=
  let t := s.me
  sSem t k g [a.toNat, b.toNat] d 1 (if t.rp c.toNat then t.rs a.toNat else t.rs b.toNat)

/-- `pand` (04 R103). -/
def semPand (k : BitVec 3) (g : BitVec 1) (d a b : BitVec 3) (s : State) : SlotSem :=
  let t := s.me
  pSem t k g [.p a.toNat, .p b.toNat] d (t.rp a.toNat && t.rp b.toNat)

/-- `por` (04 R103). -/
def semPor (k : BitVec 3) (g : BitVec 1) (d a b : BitVec 3) (s : State) : SlotSem :=
  let t := s.me
  pSem t k g [.p a.toNat, .p b.toNat] d (t.rp a.toNat || t.rp b.toNat)

/-- `pxor` (04 R103). -/
def semPxor (k : BitVec 3) (g : BitVec 1) (d a b : BitVec 3) (s : State) : SlotSem :=
  let t := s.me
  pSem t k g [.p a.toNat, .p b.toNat] d (t.rp a.toNat != t.rp b.toNat)

/-- `pnot` (04 R103). -/
def semPnot (k : BitVec 3) (g : BitVec 1) (d a : BitVec 3) (s : State) : SlotSem :=
  let t := s.me
  pSem t k g [.p a.toNat] d (!t.rp a.toNat)

/-- `pmov` (04 R103). -/
def semPmov (k : BitVec 3) (g : BitVec 1) (d a : BitVec 3) (s : State) : SlotSem :=
  let t := s.me
  pSem t k g [.p a.toNat] d (t.rp a.toNat)

/-- `addi` (04 R98). -/
def semAddi (k : BitVec 3) (g : BitVec 1) (d a : BitVec 6) (i : BitVec 10) (s : State) : SlotSem :=
  semRI (· + ·) k g d a i s

/-- `andi` (04 R98). -/
def semAndi (k : BitVec 3) (g : BitVec 1) (d a : BitVec 6) (i : BitVec 10) (s : State) : SlotSem :=
  semRI (· &&& ·) k g d a i s

/-- `ori` (04 R98). -/
def semOri (k : BitVec 3) (g : BitVec 1) (d a : BitVec 6) (i : BitVec 10) (s : State) : SlotSem :=
  semRI (· ||| ·) k g d a i s

/-- `xori` (04 R98). -/
def semXori (k : BitVec 3) (g : BitVec 1) (d a : BitVec 6) (i : BitVec 10) (s : State) : SlotSem :=
  semRI (· ^^^ ·) k g d a i s

/-- `andni` (04 R98). -/
def semAndni (k : BitVec 3) (g : BitVec 1) (d a : BitVec 6) (i : BitVec 10) (s : State) : SlotSem :=
  semRI (fun x y => x &&& ~~~y) k g d a i s

/-- `shli` (04 R98). -/
def semShli (k : BitVec 3) (g : BitVec 1) (d a i : BitVec 6) (s : State) : SlotSem :=
  semRC (fun x n => x <<< n) k g d a i s

/-- `shri.s` (04 R98). -/
def semShriS (k : BitVec 3) (g : BitVec 1) (d a i : BitVec 6) (s : State) : SlotSem :=
  semRC (fun x n => x.sshiftRight n) k g d a i s

/-- `shri.z` (04 R98). -/
def semShriZ (k : BitVec 3) (g : BitVec 1) (d a i : BitVec 6) (s : State) : SlotSem :=
  semRC (fun x n => x >>> n) k g d a i s

/-- `lui` (04 R98): the immediate in bits [25:10], bit 25 copied upward. -/
def semLui (k : BitVec 3) (g : BitVec 1) (d : BitVec 6) (i : BitVec 16) (s : State) : SlotSem :=
  sSem s.me k g [] d 1 (sext64 26 (i.toNat * 1024))

/-- FP32 in bits [31:0] of a scalar register (04 R104). -/
def fOf (t : Strand) (n : Nat) : Num := Fmt.fp32.decode ((t.rs n).toNat % 2 ^ 32)

/-- The LFSR bits that an S-slot rounding takes under RSTO: lane 0's (04 R105). -/
def sBits (t : Strand) (kb : Nat) : Nat := (t.seed 0).toNat / 2 ^ (32 - kb)

/-- One RSTO rounding on lane 0 steps its LFSR (02 R61, 04 R105). -/
def sStep (s : State) : State := if s.me.rmode = .rsto then s.modMe (fun t => t.reserve [(0, 1)]) else s

/-- The FP32 code of a value under the mode in force. -/
def sRound (f : Fmt) (t : Strand) (x : Num) : W64 :=
  BitVec.ofNat 64 (roundFloat f t.rmode t.e4s (sBits t f.kbits) x)

/-- An S-slot operation with one rounding (04 R104, R105, R107). -/
def sFp (t : Strand) (k : BitVec 3) (g : BitVec 1) (rd : List Nat) (d : BitVec 6) (l : Nat) (v : W64) : SlotSem :=
  { sSem t k g rd d l v with post := sStep }

/-- The sign of an exact zero sum under the mode in force (02 R42). -/
def Strand.rdn (t : Strand) : Bool := t.rmode == .rdn

/-- `fadd` (04 R104), latency 3. -/
def semFadd (k : BitVec 3) (g : BitVec 1) (d a b : BitVec 6) (s : State) : SlotSem :=
  let t := s.me
  sFp t k g [a.toNat, b.toNat] d 3 (sRound .fp32 t (Num.add t.rdn (fOf t a.toNat) (fOf t b.toNat)))

/-- `fsub` (04 R104). -/
def semFsub (k : BitVec 3) (g : BitVec 1) (d a b : BitVec 6) (s : State) : SlotSem :=
  let t := s.me
  sFp t k g [a.toNat, b.toNat] d 3 (sRound .fp32 t (Num.sub t.rdn (fOf t a.toNat) (fOf t b.toNat)))

/-- `fmul` (04 R104). -/
def semFmul (k : BitVec 3) (g : BitVec 1) (d a b : BitVec 6) (s : State) : SlotSem :=
  let t := s.me
  sFp t k g [a.toNat, b.toNat] d 3 (sRound .fp32 t (Num.mul (fOf t a.toNat) (fOf t b.toNat)))

/-- `fma` (04 R104), latency 5: one rounding, the destination as the addend. -/
def semFma (k : BitVec 3) (g : BitVec 1) (d a b : BitVec 6) (s : State) : SlotSem :=
  let t := s.me
  sFp t k g [a.toNat, b.toNat, d.toNat] d 5 (sRound .fp32 t (Num.add t.rdn (Num.mul (fOf t a.toNat) (fOf t b.toNat)) (fOf t d.toNat)))

/-- `fcmp` (04 R106). -/
def semFcmp (k : BitVec 3) (g : BitVec 1) (p : BitVec 3) (a b : BitVec 6) (c : BitVec 4) (s : State) : SlotSem :=
  let t := s.me
  pSem t k g (srcS [a.toNat, b.toNat]) p (condF (relF c.toNat) (fOf t a.toNat) (fOf t b.toNat))

/-- `fcvt.f2i.s` (04 R107). -/
def semFcvtF2iS (k : BitVec 3) (g : BitVec 1) (d a : BitVec 6) (s : State) : SlotSem :=
  let t := s.me
  sFp t k g [a.toNat] d 3 (BitVec.ofInt 64 (roundInt 64 true t.rmode (sBits t 16) (fOf t a.toNat)))

/-- `fcvt.f2i.z` (04 R107). -/
def semFcvtF2iZ (k : BitVec 3) (g : BitVec 1) (d a : BitVec 6) (s : State) : SlotSem :=
  let t := s.me
  sFp t k g [a.toNat] d 3 (BitVec.ofInt 64 (roundInt 64 false t.rmode (sBits t 16) (fOf t a.toNat)))

/-- `fcvt.i2f.s` (04 R107). -/
def semFcvtI2fS (k : BitVec 3) (g : BitVec 1) (d a : BitVec 6) (s : State) : SlotSem :=
  let t := s.me
  sFp t k g [a.toNat] d 3 (sRound .fp32 t (Num.ofInt (t.rs a.toNat).toInt))

/-- `fcvt.i2f.z` (04 R107). -/
def semFcvtI2fZ (k : BitVec 3) (g : BitVec 1) (d a : BitVec 6) (s : State) : SlotSem :=
  let t := s.me
  sFp t k g [a.toNat] d 3 (sRound .fp32 t (Num.ofInt (t.rs a.toNat).toNat))

/-- `fcvt.f2h` (04 R107). -/
def semFcvtF2h (k : BitVec 3) (g : BitVec 1) (d a : BitVec 6) (s : State) : SlotSem :=
  let t := s.me
  sFp t k g [a.toNat] d 3 (sRound .fp16 t (fOf t a.toNat))

/-- `fcvt.f2b` (04 R107). -/
def semFcvtF2b (k : BitVec 3) (g : BitVec 1) (d a : BitVec 6) (s : State) : SlotSem :=
  let t := s.me
  sFp t k g [a.toNat] d 3 (sRound .bf16 t (fOf t a.toNat))

/-- `fcvt.h2f` (04 R107), exact: no LFSR state is taken. -/
def semFcvtH2f (k : BitVec 3) (g : BitVec 1) (d a : BitVec 6) (s : State) : SlotSem :=
  let t := s.me
  sSem t k g [a.toNat] d 3 (BitVec.ofNat 64 (rne32 (Fmt.fp16.decode ((t.rs a.toNat).toNat % 65536))))

/-- `fcvt.b2f` (04 R107), exact. -/
def semFcvtB2f (k : BitVec 3) (g : BitVec 1) (d a : BitVec 6) (s : State) : SlotSem :=
  let t := s.me
  sSem t k g [a.toNat] d 3 (BitVec.ofNat 64 (rne32 (Fmt.bf16.decode ((t.rs a.toNat).toNat % 65536))))

/-- `s.get` (04 R108): one element of the entry of a name, through a shared port, which carries 1024 bytes. -/
def semSGet (k : BitVec 3) (g : BitVec 1) (d n b : BitVec 6) (_p w : BitVec 2) (s : State) : SlotSem :=
  let t := s.me
  let e := 2 ^ w.toNat
  let i := (t.rs b.toNat).toNat
  let m := sSem t k g [b.toNat] d 1 0#64
  match resolve t n.toNat with
  | none => { m with fault := some (t.unmapped n.toNat) }
  | some r =>
    if i * e + e > min r.pitch 1024 then { m with fault := some t.illegal }
    else
      { m with srcs := [.s b.toNat, .urs (r.addr + i * e) e]
               lands := [(1, .sreg d.toNat (BitVec.ofNat 64 (leNat (t.ursRead (r.addr + i * e) e))))] }

/-- `s.put` (04 R109): one element of the entry of a name, written at completion. -/
def semSPut (k : BitVec 3) (g : BitVec 1) (d n b : BitVec 6) (w : BitVec 2) (s : State) : SlotSem :=
  let t := s.me
  let e := 2 ^ w.toNat
  let i := (t.rs b.toNat).toNat
  let m : SlotSem := { guard := t.guard k g, guarded := isGuarded k g, srcs := srcS [d.toNat, b.toNat] }
  match resolve t n.toNat with
  | none => { m with fault := some (t.unmapped n.toNat) }
  | some r =>
    if i * e + e > r.pitch then { m with fault := some t.illegal }
    else
      { m with dsts := [.urs (r.addr + i * e) e]
               lands := [(1, .urs (r.addr + i * e) (wholeBytes (leBytes e (t.rs d.toNat).toNat)))] }

/-- ADD in slot 1 (R97). -/
def execAdd (k : BitVec 3) (g : BitVec 1) (d : BitVec 6) (a : BitVec 6) (b : BitVec 6) (s : State) : Host.Outcome State Fault Refusal :=
  .next (runSlot 1 (semAdd k g d a b s) s)

/-- SUB in slot 1 (R97). -/
def execSub (k : BitVec 3) (g : BitVec 1) (d : BitVec 6) (a : BitVec 6) (b : BitVec 6) (s : State) : Host.Outcome State Fault Refusal :=
  .next (runSlot 1 (semSub k g d a b s) s)

/-- AND in slot 1 (R97). -/
def execAnd (k : BitVec 3) (g : BitVec 1) (d : BitVec 6) (a : BitVec 6) (b : BitVec 6) (s : State) : Host.Outcome State Fault Refusal :=
  .next (runSlot 1 (semAnd k g d a b s) s)

/-- OR in slot 1 (R97). -/
def execOr (k : BitVec 3) (g : BitVec 1) (d : BitVec 6) (a : BitVec 6) (b : BitVec 6) (s : State) : Host.Outcome State Fault Refusal :=
  .next (runSlot 1 (semOr k g d a b s) s)

/-- XOR in slot 1 (R97). -/
def execXor (k : BitVec 3) (g : BitVec 1) (d : BitVec 6) (a : BitVec 6) (b : BitVec 6) (s : State) : Host.Outcome State Fault Refusal :=
  .next (runSlot 1 (semXor k g d a b s) s)

/-- ANDN in slot 1 (R97). -/
def execAndn (k : BitVec 3) (g : BitVec 1) (d : BitVec 6) (a : BitVec 6) (b : BitVec 6) (s : State) : Host.Outcome State Fault Refusal :=
  .next (runSlot 1 (semAndn k g d a b s) s)

/-- SHL in slot 1 (R97). -/
def execShl (k : BitVec 3) (g : BitVec 1) (d : BitVec 6) (a : BitVec 6) (b : BitVec 6) (s : State) : Host.Outcome State Fault Refusal :=
  .next (runSlot 1 (semShl k g d a b s) s)

/-- SHR_S in slot 1 (R97). -/
def execShrS (k : BitVec 3) (g : BitVec 1) (d : BitVec 6) (a : BitVec 6) (b : BitVec 6) (s : State) : Host.Outcome State Fault Refusal :=
  .next (runSlot 1 (semShrS k g d a b s) s)

/-- SHR_Z in slot 1 (R97). -/
def execShrZ (k : BitVec 3) (g : BitVec 1) (d : BitVec 6) (a : BitVec 6) (b : BitVec 6) (s : State) : Host.Outcome State Fault Refusal :=
  .next (runSlot 1 (semShrZ k g d a b s) s)

/-- ROTR in slot 1 (R97). -/
def execRotr (k : BitVec 3) (g : BitVec 1) (d : BitVec 6) (a : BitVec 6) (b : BitVec 6) (s : State) : Host.Outcome State Fault Refusal :=
  .next (runSlot 1 (semRotr k g d a b s) s)

/-- MIN_S in slot 1 (R97). -/
def execMinS (k : BitVec 3) (g : BitVec 1) (d : BitVec 6) (a : BitVec 6) (b : BitVec 6) (s : State) : Host.Outcome State Fault Refusal :=
  .next (runSlot 1 (semMinS k g d a b s) s)

/-- MIN_Z in slot 1 (R97). -/
def execMinZ (k : BitVec 3) (g : BitVec 1) (d : BitVec 6) (a : BitVec 6) (b : BitVec 6) (s : State) : Host.Outcome State Fault Refusal :=
  .next (runSlot 1 (semMinZ k g d a b s) s)

/-- MAX_S in slot 1 (R97). -/
def execMaxS (k : BitVec 3) (g : BitVec 1) (d : BitVec 6) (a : BitVec 6) (b : BitVec 6) (s : State) : Host.Outcome State Fault Refusal :=
  .next (runSlot 1 (semMaxS k g d a b s) s)

/-- MAX_Z in slot 1 (R97). -/
def execMaxZ (k : BitVec 3) (g : BitVec 1) (d : BitVec 6) (a : BitVec 6) (b : BitVec 6) (s : State) : Host.Outcome State Fault Refusal :=
  .next (runSlot 1 (semMaxZ k g d a b s) s)

/-- MUL in slot 1 (R99). -/
def execMul (k : BitVec 3) (g : BitVec 1) (d : BitVec 6) (a : BitVec 6) (b : BitVec 6) (s : State) : Host.Outcome State Fault Refusal :=
  .next (runSlot 1 (semMul k g d a b s) s)

/-- MULH_S in slot 1 (R99). -/
def execMulhS (k : BitVec 3) (g : BitVec 1) (d : BitVec 6) (a : BitVec 6) (b : BitVec 6) (s : State) : Host.Outcome State Fault Refusal :=
  .next (runSlot 1 (semMulhS k g d a b s) s)

/-- MULH_Z in slot 1 (R99). -/
def execMulhZ (k : BitVec 3) (g : BitVec 1) (d : BitVec 6) (a : BitVec 6) (b : BitVec 6) (s : State) : Host.Outcome State Fault Refusal :=
  .next (runSlot 1 (semMulhZ k g d a b s) s)

/-- DIV_S in slot 1 (R99). -/
def execDivS (k : BitVec 3) (g : BitVec 1) (d : BitVec 6) (a : BitVec 6) (b : BitVec 6) (s : State) : Host.Outcome State Fault Refusal :=
  .next (runSlot 1 (semDivS k g d a b s) s)

/-- DIV_Z in slot 1 (R99). -/
def execDivZ (k : BitVec 3) (g : BitVec 1) (d : BitVec 6) (a : BitVec 6) (b : BitVec 6) (s : State) : Host.Outcome State Fault Refusal :=
  .next (runSlot 1 (semDivZ k g d a b s) s)

/-- REM_S in slot 1 (R99). -/
def execRemS (k : BitVec 3) (g : BitVec 1) (d : BitVec 6) (a : BitVec 6) (b : BitVec 6) (s : State) : Host.Outcome State Fault Refusal :=
  .next (runSlot 1 (semRemS k g d a b s) s)

/-- REM_Z in slot 1 (R99). -/
def execRemZ (k : BitVec 3) (g : BitVec 1) (d : BitVec 6) (a : BitVec 6) (b : BitVec 6) (s : State) : Host.Outcome State Fault Refusal :=
  .next (runSlot 1 (semRemZ k g d a b s) s)

/-- CLZ in slot 1 (R100). -/
def execClz (k : BitVec 3) (g : BitVec 1) (d : BitVec 6) (a : BitVec 6) (s : State) : Host.Outcome State Fault Refusal :=
  .next (runSlot 1 (semClz k g d a s) s)

/-- CTZ in slot 1 (R100). -/
def execCtz (k : BitVec 3) (g : BitVec 1) (d : BitVec 6) (a : BitVec 6) (s : State) : Host.Outcome State Fault Refusal :=
  .next (runSlot 1 (semCtz k g d a s) s)

/-- POPC in slot 1 (R100). -/
def execPopc (k : BitVec 3) (g : BitVec 1) (d : BitVec 6) (a : BitVec 6) (s : State) : Host.Outcome State Fault Refusal :=
  .next (runSlot 1 (semPopc k g d a s) s)

/-- SEXT_B in slot 1 (R100). -/
def execSextB (k : BitVec 3) (g : BitVec 1) (d : BitVec 6) (a : BitVec 6) (s : State) : Host.Outcome State Fault Refusal :=
  .next (runSlot 1 (semSextB k g d a s) s)

/-- SEXT_H in slot 1 (R100). -/
def execSextH (k : BitVec 3) (g : BitVec 1) (d : BitVec 6) (a : BitVec 6) (s : State) : Host.Outcome State Fault Refusal :=
  .next (runSlot 1 (semSextH k g d a s) s)

/-- SEXT_W in slot 1 (R100). -/
def execSextW (k : BitVec 3) (g : BitVec 1) (d : BitVec 6) (a : BitVec 6) (s : State) : Host.Outcome State Fault Refusal :=
  .next (runSlot 1 (semSextW k g d a s) s)

/-- ZEXT_B in slot 1 (R100). -/
def execZextB (k : BitVec 3) (g : BitVec 1) (d : BitVec 6) (a : BitVec 6) (s : State) : Host.Outcome State Fault Refusal :=
  .next (runSlot 1 (semZextB k g d a s) s)

/-- ZEXT_H in slot 1 (R100). -/
def execZextH (k : BitVec 3) (g : BitVec 1) (d : BitVec 6) (a : BitVec 6) (s : State) : Host.Outcome State Fault Refusal :=
  .next (runSlot 1 (semZextH k g d a s) s)

/-- ZEXT_W in slot 1 (R100). -/
def execZextW (k : BitVec 3) (g : BitVec 1) (d : BitVec 6) (a : BitVec 6) (s : State) : Host.Outcome State Fault Refusal :=
  .next (runSlot 1 (semZextW k g d a s) s)

/-- CMP in slot 1 (R101). -/
def execCmp (k : BitVec 3) (g : BitVec 1) (p : BitVec 3) (a : BitVec 6) (b : BitVec 6) (c : BitVec 4) (s : State) : Host.Outcome State Fault Refusal :=
  .next (runSlot 1 (semCmp k g p a b c s) s)

/-- CMPI in slot 1 (R101). -/
def execCmpi (k : BitVec 3) (g : BitVec 1) (c : BitVec 4) (p : BitVec 3) (a : BitVec 6) (i : BitVec 9) (s : State) : Host.Outcome State Fault Refusal :=
  .next (runSlot 1 (semCmpi k g c p a i s) s)

/-- SEL in slot 1 (R102). -/
def execSel (k : BitVec 3) (g : BitVec 1) (d : BitVec 6) (a : BitVec 6) (b : BitVec 6) (c : BitVec 3) (s : State) : Host.Outcome State Fault Refusal :=
  .next (runSlot 1 (semSel k g d a b c s) s)

/-- PAND in slot 1 (R103). -/
def execPand (k : BitVec 3) (g : BitVec 1) (d : BitVec 3) (a : BitVec 3) (b : BitVec 3) (s : State) : Host.Outcome State Fault Refusal :=
  .next (runSlot 1 (semPand k g d a b s) s)

/-- POR in slot 1 (R103). -/
def execPor (k : BitVec 3) (g : BitVec 1) (d : BitVec 3) (a : BitVec 3) (b : BitVec 3) (s : State) : Host.Outcome State Fault Refusal :=
  .next (runSlot 1 (semPor k g d a b s) s)

/-- PXOR in slot 1 (R103). -/
def execPxor (k : BitVec 3) (g : BitVec 1) (d : BitVec 3) (a : BitVec 3) (b : BitVec 3) (s : State) : Host.Outcome State Fault Refusal :=
  .next (runSlot 1 (semPxor k g d a b s) s)

/-- PNOT in slot 1 (R103). -/
def execPnot (k : BitVec 3) (g : BitVec 1) (d : BitVec 3) (a : BitVec 3) (s : State) : Host.Outcome State Fault Refusal :=
  .next (runSlot 1 (semPnot k g d a s) s)

/-- PMOV in slot 1 (R103). -/
def execPmov (k : BitVec 3) (g : BitVec 1) (d : BitVec 3) (a : BitVec 3) (s : State) : Host.Outcome State Fault Refusal :=
  .next (runSlot 1 (semPmov k g d a s) s)

/-- ADDI in slot 1 (R98). -/
def execAddi (k : BitVec 3) (g : BitVec 1) (d : BitVec 6) (a : BitVec 6) (i : BitVec 10) (s : State) : Host.Outcome State Fault Refusal :=
  .next (runSlot 1 (semAddi k g d a i s) s)

/-- ANDI in slot 1 (R98). -/
def execAndi (k : BitVec 3) (g : BitVec 1) (d : BitVec 6) (a : BitVec 6) (i : BitVec 10) (s : State) : Host.Outcome State Fault Refusal :=
  .next (runSlot 1 (semAndi k g d a i s) s)

/-- ORI in slot 1 (R98). -/
def execOri (k : BitVec 3) (g : BitVec 1) (d : BitVec 6) (a : BitVec 6) (i : BitVec 10) (s : State) : Host.Outcome State Fault Refusal :=
  .next (runSlot 1 (semOri k g d a i s) s)

/-- XORI in slot 1 (R98). -/
def execXori (k : BitVec 3) (g : BitVec 1) (d : BitVec 6) (a : BitVec 6) (i : BitVec 10) (s : State) : Host.Outcome State Fault Refusal :=
  .next (runSlot 1 (semXori k g d a i s) s)

/-- ANDNI in slot 1 (R98). -/
def execAndni (k : BitVec 3) (g : BitVec 1) (d : BitVec 6) (a : BitVec 6) (i : BitVec 10) (s : State) : Host.Outcome State Fault Refusal :=
  .next (runSlot 1 (semAndni k g d a i s) s)

/-- SHLI in slot 1 (R98). -/
def execShli (k : BitVec 3) (g : BitVec 1) (d : BitVec 6) (a : BitVec 6) (i : BitVec 6) (s : State) : Host.Outcome State Fault Refusal :=
  .next (runSlot 1 (semShli k g d a i s) s)

/-- SHRI_S in slot 1 (R98). -/
def execShriS (k : BitVec 3) (g : BitVec 1) (d : BitVec 6) (a : BitVec 6) (i : BitVec 6) (s : State) : Host.Outcome State Fault Refusal :=
  .next (runSlot 1 (semShriS k g d a i s) s)

/-- SHRI_Z in slot 1 (R98). -/
def execShriZ (k : BitVec 3) (g : BitVec 1) (d : BitVec 6) (a : BitVec 6) (i : BitVec 6) (s : State) : Host.Outcome State Fault Refusal :=
  .next (runSlot 1 (semShriZ k g d a i s) s)

/-- LUI in slot 1 (R98). -/
def execLui (k : BitVec 3) (g : BitVec 1) (d : BitVec 6) (i : BitVec 16) (s : State) : Host.Outcome State Fault Refusal :=
  .next (runSlot 1 (semLui k g d i s) s)

/-- FADD in slot 1 (R104). -/
def execFadd (k : BitVec 3) (g : BitVec 1) (d : BitVec 6) (a : BitVec 6) (b : BitVec 6) (s : State) : Host.Outcome State Fault Refusal :=
  .next (runSlot 1 (semFadd k g d a b s) s)

/-- FSUB in slot 1 (R104). -/
def execFsub (k : BitVec 3) (g : BitVec 1) (d : BitVec 6) (a : BitVec 6) (b : BitVec 6) (s : State) : Host.Outcome State Fault Refusal :=
  .next (runSlot 1 (semFsub k g d a b s) s)

/-- FMUL in slot 1 (R104). -/
def execFmul (k : BitVec 3) (g : BitVec 1) (d : BitVec 6) (a : BitVec 6) (b : BitVec 6) (s : State) : Host.Outcome State Fault Refusal :=
  .next (runSlot 1 (semFmul k g d a b s) s)

/-- FMA in slot 1 (R104). -/
def execFma (k : BitVec 3) (g : BitVec 1) (d : BitVec 6) (a : BitVec 6) (b : BitVec 6) (s : State) : Host.Outcome State Fault Refusal :=
  .next (runSlot 1 (semFma k g d a b s) s)

/-- FCMP in slot 1 (R106). -/
def execFcmp (k : BitVec 3) (g : BitVec 1) (p : BitVec 3) (a : BitVec 6) (b : BitVec 6) (c : BitVec 4) (s : State) : Host.Outcome State Fault Refusal :=
  .next (runSlot 1 (semFcmp k g p a b c s) s)

/-- FCVT_F2I_S in slot 1 (R107). -/
def execFcvtF2iS (k : BitVec 3) (g : BitVec 1) (d : BitVec 6) (a : BitVec 6) (s : State) : Host.Outcome State Fault Refusal :=
  .next (runSlot 1 (semFcvtF2iS k g d a s) s)

/-- FCVT_F2I_Z in slot 1 (R107). -/
def execFcvtF2iZ (k : BitVec 3) (g : BitVec 1) (d : BitVec 6) (a : BitVec 6) (s : State) : Host.Outcome State Fault Refusal :=
  .next (runSlot 1 (semFcvtF2iZ k g d a s) s)

/-- FCVT_I2F_S in slot 1 (R107). -/
def execFcvtI2fS (k : BitVec 3) (g : BitVec 1) (d : BitVec 6) (a : BitVec 6) (s : State) : Host.Outcome State Fault Refusal :=
  .next (runSlot 1 (semFcvtI2fS k g d a s) s)

/-- FCVT_I2F_Z in slot 1 (R107). -/
def execFcvtI2fZ (k : BitVec 3) (g : BitVec 1) (d : BitVec 6) (a : BitVec 6) (s : State) : Host.Outcome State Fault Refusal :=
  .next (runSlot 1 (semFcvtI2fZ k g d a s) s)

/-- FCVT_F2H in slot 1 (R107). -/
def execFcvtF2h (k : BitVec 3) (g : BitVec 1) (d : BitVec 6) (a : BitVec 6) (s : State) : Host.Outcome State Fault Refusal :=
  .next (runSlot 1 (semFcvtF2h k g d a s) s)

/-- FCVT_H2F in slot 1 (R107). -/
def execFcvtH2f (k : BitVec 3) (g : BitVec 1) (d : BitVec 6) (a : BitVec 6) (s : State) : Host.Outcome State Fault Refusal :=
  .next (runSlot 1 (semFcvtH2f k g d a s) s)

/-- FCVT_F2B in slot 1 (R107). -/
def execFcvtF2b (k : BitVec 3) (g : BitVec 1) (d : BitVec 6) (a : BitVec 6) (s : State) : Host.Outcome State Fault Refusal :=
  .next (runSlot 1 (semFcvtF2b k g d a s) s)

/-- FCVT_B2F in slot 1 (R107). -/
def execFcvtB2f (k : BitVec 3) (g : BitVec 1) (d : BitVec 6) (a : BitVec 6) (s : State) : Host.Outcome State Fault Refusal :=
  .next (runSlot 1 (semFcvtB2f k g d a s) s)

/-- S_GET in slot 1 (R108). -/
def execSGet (k : BitVec 3) (g : BitVec 1) (d : BitVec 6) (n : BitVec 6) (b : BitVec 6) (p : BitVec 2) (w : BitVec 2) (s : State) : Host.Outcome State Fault Refusal :=
  .next (runSlot 1 (semSGet k g d n b p w s) s)

/-- S_PUT in slot 1 (R109). -/
def execSPut (k : BitVec 3) (g : BitVec 1) (d : BitVec 6) (n : BitVec 6) (b : BitVec 6) (w : BitVec 2) (s : State) : Host.Outcome State Fault Refusal :=
  .next (runSlot 1 (semSPut k g d n b w s) s)

end Sys2Proof.Machine
end

