-- ==== Sys2Proof/Machine/Sem.lean ====
section
/-! DEFINITION. The slot operations as the issue of a bundle looks at them before any slot commits (03 R92): the same
meanings that the dispatch runs. -/

namespace Sys2Proof.Machine

/-- The meaning of a slot operation in a state; an event has none. -/
def semOf (i : Instr) (s : State) : SlotSem :=
  match i with
  | .nop sc => semNop sc s
  | .br k g r d sc => semBr k g r d sc s
  | .brA k g r d sc => semBrA k g r d sc s
  | .brZ k g r d sc => semBrZ k g r d sc s
  | .jmp k g d sc => semJmp k g d sc s
  | .call k g d sc => semCall k g d sc s
  | .ret k g sc => semRet k g sc s
  | .jr k g a sc => semJr k g a sc s
  | .rot k g sc => semRot k g sc s
  | .doneTask k g sc => semDoneTask k g sc s
  | .trap k g c sc => semTrap k g c sc s
  | .sys k g v sc => semSys k g v sc s
  | .rfe k g sc => semRfe k g sc s
  | .brk k g c sc => semBrk k g c sc s
  | .segend k g c sc => semSegend k g c sc s
  | .mfsr k g d r sc => semMfsr k g d r sc s
  | .mtsr k g a r sc => semMtsr k g a r sc s
  | .isync k g sc => semIsync k g sc s
  | .yield k g sc => semYield k g sc s
  | .fence k g o e sc => semFence k g o e sc s
  | .drain k g e sc => semDrain k g e sc s
  | .add k g d a b => semAdd k g d a b s
  | .sub k g d a b => semSub k g d a b s
  | .and k g d a b => semAnd k g d a b s
  | .or k g d a b => semOr k g d a b s
  | .xor k g d a b => semXor k g d a b s
  | .andn k g d a b => semAndn k g d a b s
  | .shl k g d a b => semShl k g d a b s
  | .shrS k g d a b => semShrS k g d a b s
  | .shrZ k g d a b => semShrZ k g d a b s
  | .rotr k g d a b => semRotr k g d a b s
  | .minS k g d a b => semMinS k g d a b s
  | .minZ k g d a b => semMinZ k g d a b s
  | .maxS k g d a b => semMaxS k g d a b s
  | .maxZ k g d a b => semMaxZ k g d a b s
  | .mul k g d a b => semMul k g d a b s
  | .mulhS k g d a b => semMulhS k g d a b s
  | .mulhZ k g d a b => semMulhZ k g d a b s
  | .divS k g d a b => semDivS k g d a b s
  | .divZ k g d a b => semDivZ k g d a b s
  | .remS k g d a b => semRemS k g d a b s
  | .remZ k g d a b => semRemZ k g d a b s
  | .clz k g d a => semClz k g d a s
  | .ctz k g d a => semCtz k g d a s
  | .popc k g d a => semPopc k g d a s
  | .sextB k g d a => semSextB k g d a s
  | .sextH k g d a => semSextH k g d a s
  | .sextW k g d a => semSextW k g d a s
  | .zextB k g d a => semZextB k g d a s
  | .zextH k g d a => semZextH k g d a s
  | .zextW k g d a => semZextW k g d a s
  | .cmp k g p a b c => semCmp k g p a b c s
  | .cmpi k g c p a i => semCmpi k g c p a i s
  | .sel k g d a b c => semSel k g d a b c s
  | .pand k g d a b => semPand k g d a b s
  | .por k g d a b => semPor k g d a b s
  | .pxor k g d a b => semPxor k g d a b s
  | .pnot k g d a => semPnot k g d a s
  | .pmov k g d a => semPmov k g d a s
  | .addi k g d a i => semAddi k g d a i s
  | .andi k g d a i => semAndi k g d a i s
  | .ori k g d a i => semOri k g d a i s
  | .xori k g d a i => semXori k g d a i s
  | .andni k g d a i => semAndni k g d a i s
  | .shli k g d a i => semShli k g d a i s
  | .shriS k g d a i => semShriS k g d a i s
  | .shriZ k g d a i => semShriZ k g d a i s
  | .lui k g d i => semLui k g d i s
  | .fadd k g d a b => semFadd k g d a b s
  | .fsub k g d a b => semFsub k g d a b s
  | .fmul k g d a b => semFmul k g d a b s
  | .fma k g d a b => semFma k g d a b s
  | .fcmp k g p a b c => semFcmp k g p a b c s
  | .fcvtF2iS k g d a => semFcvtF2iS k g d a s
  | .fcvtF2iZ k g d a => semFcvtF2iZ k g d a s
  | .fcvtI2fS k g d a => semFcvtI2fS k g d a s
  | .fcvtI2fZ k g d a => semFcvtI2fZ k g d a s
  | .fcvtF2h k g d a => semFcvtF2h k g d a s
  | .fcvtH2f k g d a => semFcvtH2f k g d a s
  | .fcvtF2b k g d a => semFcvtF2b k g d a s
  | .fcvtB2f k g d a => semFcvtB2f k g d a s
  | .sGet k g d n b p w => semSGet k g d n b p w s
  | .sPut k g d n b w => semSPut k g d n b w s
  | .amov d a => semAmov d a s
  | .aset d sc => semAset d sc s
  | .aget sc a => semAget sc a s
  | .aadd d a b => semAadd d a b s
  | .aaddi d a i => semAaddi d a i s
  | .mset m f sc => semMset m f sc s
  | .astep d m => semAstep d m s
  | .acmp c p a b => semAcmp c p a b s
  | .ldBS k g sc a p m o => semLdBS k g sc a p m o s
  | .ldBZ k g sc a p m o => semLdBZ k g sc a p m o s
  | .ldHS k g sc a p m o => semLdHS k g sc a p m o s
  | .ldHZ k g sc a p m o => semLdHZ k g sc a p m o s
  | .ldWS k g sc a p m o => semLdWS k g sc a p m o s
  | .ldWZ k g sc a p m o => semLdWZ k g sc a p m o s
  | .ldD k g sc a p m o => semLdD k g sc a p m o s
  | .stB k g sc a p m o => semStB k g sc a p m o s
  | .stH k g sc a p m o => semStH k g sc a p m o s
  | .stW k g sc a p m o => semStW k g sc a p m o s
  | .stD k g sc a p m o => semStD k g sc a p m o s
  | .ldV k g n a p m o => semLdV k g n a p m o s
  | .stV k g n a p m t o => semStV k g n a p m t o s
  | .ldBlk k g n a p m o => semLdBlk k g n a p m o s
  | .stBlk k g n a p m t o => semStBlk k g n a p m t o s
  | .pf k g a p m o => semPf k g a p m o s
  | .atom k g d a b z o => semAtom k g d a b z o s
  | .ldRow k g n a p m h => semLdRow k g n a p m h s
  | .ldFw k g n a p m o => semLdFw k g n a p m o s
  | .stFw k g n a p m t o => semStFw k g n a p m t o s
  | .vaddF k g d a x b y => semVaddF k g d a x b y s
  | .vsubF k g d a x b y => semVsubF k g d a x b y s
  | .vmulF k g d a x b y => semVmulF k g d a x b y s
  | .vfmaF k g d a x b y => semVfmaF k g d a x b y s
  | .vminF k g d a x b y => semVminF k g d a x b y s
  | .vmaxF k g d a x b y => semVmaxF k g d a x b y s
  | .vabsF k g d a x => semVabsF k g d a x s
  | .vnegF k g d a x => semVnegF k g d a x s
  | .vrcp k g d a x => semVrcp k g d a x s
  | .vrsq k g d a x => semVrsq k g d a x s
  | .vexp2 k g d a x => semVexp2 k g d a x s
  | .vlog2 k g d a x => semVlog2 k g d a x s
  | .vaddI k g d a x b y => semVaddI k g d a x b y s
  | .vsubI k g d a x b y => semVsubI k g d a x b y s
  | .vmulI k g d a x b y => semVmulI k g d a x b y s
  | .vminI k g d a x b y => semVminI k g d a x b y s
  | .vmaxI k g d a x b y => semVmaxI k g d a x b y s
  | .vand k g d a x b y => semVand k g d a x b y s
  | .vor k g d a x b y => semVor k g d a x b y s
  | .vxor k g d a x b y => semVxor k g d a x b y s
  | .vshl k g d a x b y => semVshl k g d a x b y s
  | .vshrS k g d a x b y => semVshrS k g d a x b y s
  | .vshrZ k g d a x b y => semVshrZ k g d a x b y s
  | .vcmpF k g c q a x b y => semVcmpF k g c q a x b y s
  | .vcmpI k g c q a x b y => semVcmpI k g c q a x b y s
  | .vsel k g d a x b y => semVsel k g d a x b y s
  | .vcvt k g d a x => semVcvt k g d a x s
  | .vpack k g d a x => semVpack k g d a x s
  | .vunpack k g d a x => semVunpack k g d a x s
  | .vsum k g d a x => semVsum k g d a x s
  | .vdot k g d a x b y => semVdot k g d a x b y s
  | .vperm k g d a x b y => semVperm k g d a x b y s
  | .vbcast k g d sc => semVbcast k g d sc s
  | .vmov k g d a x => semVmov k g d a x s
  | .vld k g d a p m => semVld k g d a p m s
  | .vseedSet k g a x => semVseedSet k g a x s
  | .vseedGet k g d => semVseedGet k g d s
  | .vdecay k g d a x => semVdecay k g d a x s
  | .vfwadd k g d a x b y => semVfwadd k g d a x b y s
  | .mmul d a b l => semMmul d a b l s
  | .mmulWt d a l => semMmulWt d a l s
  | .mmula d a b l => semMmula d a b l s
  | .mmulaWt d a l => semMmulaWt d a l s
  | .mmulSp d a b l => semMmulSp d a b l s
  | .mmulSpWt d a l => semMmulSpWt d a l s
  | .mconv d a b l => semMconv d a b l s
  | .mconvWt d a l => semMconvWt d a l s
  | .mconva d a b l => semMconva d a b l s
  | .mconvaWt d a l => semMconvaWt d a l s
  | .mwld b l => semMwld b l s
  | .mdrain d a l z => semMdrain d a l z s
  | .mzero d l => semMzero d l s
  | .mlu d l => semMlu d l s
  | .mchol d l => semMchol d l s
  | .mtri d l => semMtri d l s
  | .mtrs d a b l f => semMtrs d a b l f s
  | .mqr d b l => semMqr d b l s
  | .mqapply d a l t => semMqapply d a l t s
  | .mperm d l i => semMperm d l i s
  | .mres d l => semMres d l s
  | .cp l t d sc n => semCp l t d sc n s
  | .cpT l t d sc n => semCpT l t d sc n s
  | .cpf l t sc n => semCpf l t sc n s
  | .efrSet sc => semEfrSet sc s
  | .vdSet sc k => semVdSet sc k s
  | .rotSet k l r => semRotSet k l r s
  | .mlpSet a => semMlpSet a s
  | .swPermit l t a p => semSwPermit l t a p s
  | .nmRadd l n p a t o f => semNmRadd l n p a t o f s
  | .nmFwadd l n p a t f => semNmFwadd l n p a t f s
  | .nmRed l n p a t o => semNmRed l n p a t o s
  | .nmOpt l n p a t => semNmOpt l n p a t s
  | .nmSweepReg l a t => semNmSweepReg l a t s
  | .nmSweepUnreg l a t => semNmSweepUnreg l a t s
  | .tspawn l t a => semTspawn l t a s
  | .tjoin l a => semTjoin l a s
  | .gstepAdv i => semGstepAdv i s
  | _ => {}

/-- The shared read ports that an operation selects (03 R84, R85). -/
def ports (i : Instr) : List Nat :=
  match i with
  | .sGet _ _ _ _ _ p _ => [p.toNat]
  | .stV _ _ _ _ _ _ t _ => [t.toNat]
  | .stBlk _ _ _ _ _ _ t _ => [t.toNat]
  | .stFw _ _ _ _ _ _ t _ => [t.toNat]
  | .vaddF _ _ _ _ x _ y => [x.toNat, y.toNat]
  | .vsubF _ _ _ _ x _ y => [x.toNat, y.toNat]
  | .vmulF _ _ _ _ x _ y => [x.toNat, y.toNat]
  | .vfmaF _ _ _ _ x _ y => [x.toNat, y.toNat, 3 - x.toNat - y.toNat]
  | .vminF _ _ _ _ x _ y => [x.toNat, y.toNat]
  | .vmaxF _ _ _ _ x _ y => [x.toNat, y.toNat]
  | .vabsF _ _ _ _ x => [x.toNat]
  | .vnegF _ _ _ _ x => [x.toNat]
  | .vrcp _ _ _ _ x => [x.toNat]
  | .vrsq _ _ _ _ x => [x.toNat]
  | .vexp2 _ _ _ _ x => [x.toNat]
  | .vlog2 _ _ _ _ x => [x.toNat]
  | .vaddI _ _ _ _ x _ y => [x.toNat, y.toNat]
  | .vsubI _ _ _ _ x _ y => [x.toNat, y.toNat]
  | .vmulI _ _ _ _ x _ y => [x.toNat, y.toNat]
  | .vminI _ _ _ _ x _ y => [x.toNat, y.toNat]
  | .vmaxI _ _ _ _ x _ y => [x.toNat, y.toNat]
  | .vand _ _ _ _ x _ y => [x.toNat, y.toNat]
  | .vor _ _ _ _ x _ y => [x.toNat, y.toNat]
  | .vxor _ _ _ _ x _ y => [x.toNat, y.toNat]
  | .vshl _ _ _ _ x _ y => [x.toNat, y.toNat]
  | .vshrS _ _ _ _ x _ y => [x.toNat, y.toNat]
  | .vshrZ _ _ _ _ x _ y => [x.toNat, y.toNat]
  | .vcmpF _ _ _ _ _ x _ y => [x.toNat, y.toNat]
  | .vcmpI _ _ _ _ _ x _ y => [x.toNat, y.toNat]
  | .vsel _ _ _ _ x _ y => [x.toNat, y.toNat]
  | .vcvt _ _ _ _ x => [x.toNat]
  | .vpack _ _ _ _ x => [x.toNat]
  | .vunpack _ _ _ _ x => [x.toNat]
  | .vsum _ _ _ _ x => [x.toNat]
  | .vdot _ _ _ _ x _ y => [x.toNat, y.toNat]
  | .vperm _ _ _ _ x _ y => [x.toNat, y.toNat]
  | .vmov _ _ _ _ x => [x.toNat]
  | .vseedSet _ _ _ x => [x.toNat]
  | .vdecay _ _ _ _ x => [x.toNat]
  | .vfwadd _ _ _ _ x _ y => [x.toNat, y.toNat, 3 - x.toNat - y.toNat]
  | .nmRadd _ _ p _ _ _ _ => [p.toNat]
  | .nmFwadd _ _ p _ _ _ => [p.toNat]
  | .nmRed _ _ p _ _ _ => [p.toNat]
  | .nmOpt _ _ p _ _ => [p.toNat]
  | _ => []

end Sys2Proof.Machine
end

