-- ==== Sys2Proof/Machine/Bundle.lean ====
section
/-! DEFINITION. A bundle as its issue looks at it before any slot commits (03 R68, R84-R93): its open slots, what it waits for,
its fault, and the two faults of fetch and decoding that are steps of the table. -/

namespace Sys2Proof.Machine

/-- An open slot of a bundle: its number, its operation (none for a NOP), its meaning, and whether its word is illegal. -/
structure Slot where
  k : Nat
  op : Option Instr
  sem : SlotSem
  bad : Bool

/-- The fence refreshes the step view before other slots of its bundle read it (17 R344). -/
def refreshes (i : Option Instr) (m : SlotSem) : Bool :=
  match i with
  | some (.fence _ _ o e _) => m.guard && ordAcq o && decide (4 ≤ e.toNat)
  | _ => false

/-- The word of slot `k` looked at. -/
def slotOf (s : State) (g k : Nat) (w : W32) : Slot :=
  let op := if w = 0#32 then none else decodeSlot k w
  { k, op, bad := w != 0#32 && op.isNone,
    sem := match op with | some i => semOf i { s with cur := { g, slot := k } } | none => {} }

/-- The slots of a bundle whose done bits are clear. -/
def openSlots (s : State) (g : Nat) (ws : List W32) : List Slot :=
  let done := (s.strand g).ctx.done
  let ks := (List.range 8).filter (fun k => !done.testBit k)
  let first := slotOf s g 0 (ws.getD 0 0#32)
  let s1 := if refreshes first.op first.sem && !done.testBit 0 then refresh { s with cur := { g } } else s
  ks.map (fun k => if k = 0 then first else slotOf s1 g k (ws.getD k 0#32))

/-- `efr.set` with an `mtsr` to EFR, exempt from 03 R86 (03 R88). -/
def exempt (ds : List Dst) : List Dst := ds.filter (fun d => decide (d ≠ .efr))

/-- A slot's encoding is illegal: its own word, a port that a lower slot selects (03 R84, R85), or an unguarded
destination in common with a lower slot (03 R86). -/
def badSlot (l : List Slot) (x : Slot) : Bool :=
  x.bad || l.any (fun y => decide (y.k < x.k) &&
    ((match x.op, y.op with | some i, some j => (ports i).any (fun p => (ports j).contains p) | _, _ => false) ||
      (!x.sem.guarded && !y.sem.guarded && dstsMeet (exempt x.sem.dsts) (exempt y.sem.dsts))))

/-- Lower slots whose destinations a slot writes over, both executing (03 R87, R88). -/
def duals (l : List Slot) (x : Slot) : List Slot :=
  l.filter (fun y => decide (y.k < x.k) && x.sem.guard && y.sem.guard && dstsMeet x.sem.dsts y.sem.dsts)

/-- What higher slots that execute write over the slot's destinations (03 R87). -/
def cancels (l : List Slot) (x : Slot) : List Dst :=
  (l.filter (fun y => decide (x.k < y.k) && y.sem.guard)).flatMap (fun y => y.sem.dsts)

/-- The slots below the first illegal encoding. -/
def belowBad (l : List Slot) : List Slot :=
  match l.find? (badSlot l) with
  | none => l
  | some x => l.filter (fun y => decide (y.k < x.k))

/-- What the bundle waits for: the brake line before a block, a block before a hold, for bytes of a peer before another, then room in
the landing queue. -/
def bundleBar (t : Strand) (l : List Slot) : Option Bar :=
  let low := belowBad l
  let bs := low.filterMap (fun x => slotBar t x.sem)
  let full := decide (64 < t.ctx.lq.length + low.foldl (fun n x => n + slotEnts x.sem) 0)
  if bs.contains .brake then some .brake
  else match bs.find? (fun b => match b with | .block _ => true | _ => false) with
    | some b => some b
    | none => match bs.find? (fun b => match b with | .ask _ _ => true | _ => false) with
      | some b => some b
      | none => if bs.contains .hold then some .hold else if full then some .full else none

/-- The fault of one slot: its encoding first; the double write of the checking scoreboard (06 R144) before an
uncorrectable error. -/
def faultAt (t : Strand) (l : List Slot) (x : Slot) : Option Flt :=
  if badSlot l x then some ⟨0x03, 0, t.ctx.pc⟩
  else
    let csb := t.scr.getLsbD 0 && !t.ctx.csbpass && (duals l x).any (fun y => dstsMeet (exempt x.sem.dsts) (exempt y.sem.dsts))
    match slotFlt t x.sem with
    | some f => if f.cause = 0x21 ∧ csb then some ⟨0x0B, 3, t.ctx.pc⟩ else some f
    | none => if csb then some ⟨0x0B, 3, t.ctx.pc⟩ else none

/-- The lowest slot that faults, with its fault (03 R93). -/
def bundleFlt (t : Strand) (l : List Slot) : Option (Slot × Flt) :=
  l.findSome? (fun x => (faultAt t l x).map (fun f => (x, f)))

-- The faults of fetch and decoding.

/-- The strand's bundle issues in the next clock of its core, if nothing of it waits or faults: no stop, brake, hold, stall count
or annulment is in the way. -/
def State.atIssue (s : State) (g : Nat) : Bool :=
  let t := s.strand g
  s.mayGo g && !s.braked g && !s.landHeld g && t.hold == .none && t.ctx.sc == 0 && t.ctx.done != 0xFF &&
    (t.ctx.anc == 0 || t.ctx.done != 0)

/-- The bundle of the strand fetched: the state with the translations kept, and the open slots; `none` is a bundle fetch
fault, or a fetch that waits for a peer. -/
def State.fetched (s : State) (g : Nat) : Option (State × List Slot) :=
  match s.bundleAt g (s.strand g).ctx.pc with
  | none => none
  | some (bs, ts) =>
    let s1 := keepTlbs ts { s with cur := { g } }
    some (s1, openSlots s1 g (words bs))

/-- The fault of a fetch that fails (03 R92): 0x21 for an error in the bundle's bytes or in the tables (20 R405). -/
def State.fetchFlt (s : State) (g : Nat) : Flt :=
  let t := s.strand g
  let bad := match s.linPieces (coreOf g) t.part 4 false 2 t.ctx.pc 32 with
    | .ok (ps, _) => (s.badAt 0 ps).isSome
    | .error va => s.xlateBad (coreOf g) t.part va
  ⟨if bad then 0x21 else 0x01, 0, t.ctx.pc⟩

/-- The bundle raises the fault of its slot `x`. -/
def faultBundle (g : Nat) (x : Slot) (f : Flt) (s : State) : State :=
  (clearHorizon x.sem { s.asksOver g with cur := { g, slot := x.k } }).raise g x.k f

/-- BUNDLE_FETCH_FAULT (03 R92): the strand's bundle cannot be fetched. -/
def execBundleFetchFault (g : Nat) (s : State) : Host.Outcome State Fault Refusal :=
  whenLive (s.atIssue g && (s.strand g).due.isNone && (s.fetched g).isNone && (s.fetchAsk g (s.strand g).ctx.pc).isNone)
    (fun s => (s.asksOver g).raise g 0 (s.fetchFlt g)) s

/-- ILLEGAL_ENCODING (03 R92, R93): slot `k` is the lowest of the bundle that faults, nothing of the bundle waits, and its
encoding is illegal. -/
def execIllegalEncoding (g : Nat) (k : BitVec 3) (s : State) : Host.Outcome State Fault Refusal :=
  match s.fetched g with
  | none => .next s
  | some (s1, l) =>
    match bundleFlt (s1.strand g) l with
    | none => .next s
    | some (x, f) =>
      whenLive (s.atIssue g && (s.strand g).due.isNone && (bundleBar (s1.strand g) l).isNone && x.k == k.toNat && f.cause == 3)
        (fun _ => faultBundle g x f s1) s

-- Samples of the trace (19 R390).

/-- The slot accesses memory through a translation that the core's micro-translation cache does not hold (08 R173). -/
def State.slotMisses (s : State) (c part : Nat) (x : Slot) : Bool :=
  x.sem.guard && x.sem.acc.any (fun r => r.2.1 != 0 && [r.1, r.1 + r.2.1 - 1].any (fun a =>
    decide (a < apBase) && !(s.core c).utlb.any (fun t => t.covers part a)))

/-- The lowest slot of a fetched bundle that holds it: the lowest below an illegal encoding that waits; of a bundle that raises no fault
the lowest that waits after the faults are found, or, where the bundle has missed, the lowest whose translation is missing. -/
def State.holdsAt (s : State) (g : Nat) (l : List Slot) : Option Slot :=
  let t := s.strand g
  match (belowBad l).find? (fun x => (slotBar t x.sem).isSome) with
  | some x => some x
  | none =>
    if (bundleFlt t l).isSome then none
    else match l.find? (fun x => x.sem.guard && x.sem.hold.isSome) with
      | some x => some x
      | none => if t.miss = some t.ctx.pc then l.find? (s.slotMisses (coreOf g) t.part) else none

/-- The lowest slot of a strand's next bundle that holds it; `none` where no slot does. -/
def State.holder (s : State) (g : Nat) : Option Nat :=
  let t := s.strand g
  if t.hold = .none ∧ t.ctx.sc = 0 ∧ (t.ctx.anc = 0 ∨ t.ctx.done ≠ 0) then
    (s.fetched g).bind (fun q => ((({ q.1 with cores := s.cores } : State).holdsAt g q.2).map Slot.k))
  else none

/-- A sample of one core: the bundle that the strand in position issues next, its slot, and the array's class. -/
def State.sample (u : Nat) (s : State) (i : Nat) : State :=
  let c := 16 * u + i
  match (s.core c).pos with
  | none => s.trace u 0x04 i 0 0 0 0 (s.arrayClass c)
  | some k =>
    let t := s.strand (4 * c + k)
    s.traceS (4 * c + k) 0x04 ((s.holder (4 * c + k)).getD 0) t.ctx.pc (s.arrayClass c)

/-- TRACE_SAMPLE (19 R390): one record per core; other values of SPER disable samples. -/
def execTraceSample (u : Nat) (s : State) : Host.Outcome State Fault Refusal :=
  let sper := bits (s.reg (u / 18) (trBlock u + 32)) 15 8
  whenUp (s.dieAwake (u / 18) && decide (8 ≤ sper) && decide (sper ≤ 24)) (fun s => (List.range 16).foldl (State.sample u) s) s

end Sys2Proof.Machine
end

