-- ==== Sys2Proof/Machine/Dispatch.lean ====
section
/-! DEFINITION. The meaning of every step of the table: one arm for each constructor, each a call of the definition that
gives its meaning. -/

namespace Sys2Proof.Machine

open Sys2Proof

def exec (i : Instr) (s : State) : Host.Outcome State Fault Refusal :=
  match i with
  | .nop sc => Sys2Proof.Machine.execNop sc s
  | .br k g r d sc => Sys2Proof.Machine.execBr k g r d sc s
  | .brA k g r d sc => Sys2Proof.Machine.execBrA k g r d sc s
  | .brZ k g r d sc => Sys2Proof.Machine.execBrZ k g r d sc s
  | .jmp k g d sc => Sys2Proof.Machine.execJmp k g d sc s
  | .call k g d sc => Sys2Proof.Machine.execCall k g d sc s
  | .ret k g sc => Sys2Proof.Machine.execRet k g sc s
  | .jr k g a sc => Sys2Proof.Machine.execJr k g a sc s
  | .rot k g sc => Sys2Proof.Machine.execRot k g sc s
  | .doneTask k g sc => Sys2Proof.Machine.execDoneTask k g sc s
  | .trap k g c sc => Sys2Proof.Machine.execTrap k g c sc s
  | .sys k g v sc => Sys2Proof.Machine.execSys k g v sc s
  | .rfe k g sc => Sys2Proof.Machine.execRfe k g sc s
  | .brk k g c sc => Sys2Proof.Machine.execBrk k g c sc s
  | .segend k g c sc => Sys2Proof.Machine.execSegend k g c sc s
  | .mfsr k g d r sc => Sys2Proof.Machine.execMfsr k g d r sc s
  | .mtsr k g a r sc => Sys2Proof.Machine.execMtsr k g a r sc s
  | .isync k g sc => Sys2Proof.Machine.execIsync k g sc s
  | .yield k g sc => Sys2Proof.Machine.execYield k g sc s
  | .fence k g o e sc => Sys2Proof.Machine.execFence k g o e sc s
  | .drain k g e sc => Sys2Proof.Machine.execDrain k g e sc s
  | .add k g d a b => Sys2Proof.Machine.execAdd k g d a b s
  | .sub k g d a b => Sys2Proof.Machine.execSub k g d a b s
  | .and k g d a b => Sys2Proof.Machine.execAnd k g d a b s
  | .or k g d a b => Sys2Proof.Machine.execOr k g d a b s
  | .xor k g d a b => Sys2Proof.Machine.execXor k g d a b s
  | .andn k g d a b => Sys2Proof.Machine.execAndn k g d a b s
  | .shl k g d a b => Sys2Proof.Machine.execShl k g d a b s
  | .shrS k g d a b => Sys2Proof.Machine.execShrS k g d a b s
  | .shrZ k g d a b => Sys2Proof.Machine.execShrZ k g d a b s
  | .rotr k g d a b => Sys2Proof.Machine.execRotr k g d a b s
  | .minS k g d a b => Sys2Proof.Machine.execMinS k g d a b s
  | .minZ k g d a b => Sys2Proof.Machine.execMinZ k g d a b s
  | .maxS k g d a b => Sys2Proof.Machine.execMaxS k g d a b s
  | .maxZ k g d a b => Sys2Proof.Machine.execMaxZ k g d a b s
  | .mul k g d a b => Sys2Proof.Machine.execMul k g d a b s
  | .mulhS k g d a b => Sys2Proof.Machine.execMulhS k g d a b s
  | .mulhZ k g d a b => Sys2Proof.Machine.execMulhZ k g d a b s
  | .divS k g d a b => Sys2Proof.Machine.execDivS k g d a b s
  | .divZ k g d a b => Sys2Proof.Machine.execDivZ k g d a b s
  | .remS k g d a b => Sys2Proof.Machine.execRemS k g d a b s
  | .remZ k g d a b => Sys2Proof.Machine.execRemZ k g d a b s
  | .clz k g d a => Sys2Proof.Machine.execClz k g d a s
  | .ctz k g d a => Sys2Proof.Machine.execCtz k g d a s
  | .popc k g d a => Sys2Proof.Machine.execPopc k g d a s
  | .sextB k g d a => Sys2Proof.Machine.execSextB k g d a s
  | .sextH k g d a => Sys2Proof.Machine.execSextH k g d a s
  | .sextW k g d a => Sys2Proof.Machine.execSextW k g d a s
  | .zextB k g d a => Sys2Proof.Machine.execZextB k g d a s
  | .zextH k g d a => Sys2Proof.Machine.execZextH k g d a s
  | .zextW k g d a => Sys2Proof.Machine.execZextW k g d a s
  | .cmp k g p a b c => Sys2Proof.Machine.execCmp k g p a b c s
  | .cmpi k g c p a im => Sys2Proof.Machine.execCmpi k g c p a im s
  | .sel k g d a b c => Sys2Proof.Machine.execSel k g d a b c s
  | .pand k g d a b => Sys2Proof.Machine.execPand k g d a b s
  | .por k g d a b => Sys2Proof.Machine.execPor k g d a b s
  | .pxor k g d a b => Sys2Proof.Machine.execPxor k g d a b s
  | .pnot k g d a => Sys2Proof.Machine.execPnot k g d a s
  | .pmov k g d a => Sys2Proof.Machine.execPmov k g d a s
  | .addi k g d a im => Sys2Proof.Machine.execAddi k g d a im s
  | .andi k g d a im => Sys2Proof.Machine.execAndi k g d a im s
  | .ori k g d a im => Sys2Proof.Machine.execOri k g d a im s
  | .xori k g d a im => Sys2Proof.Machine.execXori k g d a im s
  | .andni k g d a im => Sys2Proof.Machine.execAndni k g d a im s
  | .shli k g d a im => Sys2Proof.Machine.execShli k g d a im s
  | .shriS k g d a im => Sys2Proof.Machine.execShriS k g d a im s
  | .shriZ k g d a im => Sys2Proof.Machine.execShriZ k g d a im s
  | .lui k g d im => Sys2Proof.Machine.execLui k g d im s
  | .fadd k g d a b => Sys2Proof.Machine.execFadd k g d a b s
  | .fsub k g d a b => Sys2Proof.Machine.execFsub k g d a b s
  | .fmul k g d a b => Sys2Proof.Machine.execFmul k g d a b s
  | .fma k g d a b => Sys2Proof.Machine.execFma k g d a b s
  | .fcmp k g p a b c => Sys2Proof.Machine.execFcmp k g p a b c s
  | .fcvtF2iS k g d a => Sys2Proof.Machine.execFcvtF2iS k g d a s
  | .fcvtF2iZ k g d a => Sys2Proof.Machine.execFcvtF2iZ k g d a s
  | .fcvtI2fS k g d a => Sys2Proof.Machine.execFcvtI2fS k g d a s
  | .fcvtI2fZ k g d a => Sys2Proof.Machine.execFcvtI2fZ k g d a s
  | .fcvtF2h k g d a => Sys2Proof.Machine.execFcvtF2h k g d a s
  | .fcvtH2f k g d a => Sys2Proof.Machine.execFcvtH2f k g d a s
  | .fcvtF2b k g d a => Sys2Proof.Machine.execFcvtF2b k g d a s
  | .fcvtB2f k g d a => Sys2Proof.Machine.execFcvtB2f k g d a s
  | .sGet k g d n b p w => Sys2Proof.Machine.execSGet k g d n b p w s
  | .sPut k g d n b w => Sys2Proof.Machine.execSPut k g d n b w s
  | .amov d a => Sys2Proof.Machine.execAmov d a s
  | .aset d sc => Sys2Proof.Machine.execAset d sc s
  | .aget sc a => Sys2Proof.Machine.execAget sc a s
  | .aadd d a b => Sys2Proof.Machine.execAadd d a b s
  | .aaddi d a im => Sys2Proof.Machine.execAaddi d a im s
  | .mset m f sc => Sys2Proof.Machine.execMset m f sc s
  | .astep d m => Sys2Proof.Machine.execAstep d m s
  | .acmp c p a b => Sys2Proof.Machine.execAcmp c p a b s
  | .ldBS k g sc a p m o => Sys2Proof.Machine.execLdBS k g sc a p m o s
  | .ldBZ k g sc a p m o => Sys2Proof.Machine.execLdBZ k g sc a p m o s
  | .ldHS k g sc a p m o => Sys2Proof.Machine.execLdHS k g sc a p m o s
  | .ldHZ k g sc a p m o => Sys2Proof.Machine.execLdHZ k g sc a p m o s
  | .ldWS k g sc a p m o => Sys2Proof.Machine.execLdWS k g sc a p m o s
  | .ldWZ k g sc a p m o => Sys2Proof.Machine.execLdWZ k g sc a p m o s
  | .ldD k g sc a p m o => Sys2Proof.Machine.execLdD k g sc a p m o s
  | .stB k g sc a p m o => Sys2Proof.Machine.execStB k g sc a p m o s
  | .stH k g sc a p m o => Sys2Proof.Machine.execStH k g sc a p m o s
  | .stW k g sc a p m o => Sys2Proof.Machine.execStW k g sc a p m o s
  | .stD k g sc a p m o => Sys2Proof.Machine.execStD k g sc a p m o s
  | .ldV k g n a p m o => Sys2Proof.Machine.execLdV k g n a p m o s
  | .stV k g n a p m t o => Sys2Proof.Machine.execStV k g n a p m t o s
  | .ldBlk k g n a p m o => Sys2Proof.Machine.execLdBlk k g n a p m o s
  | .stBlk k g n a p m t o => Sys2Proof.Machine.execStBlk k g n a p m t o s
  | .pf k g a p m o => Sys2Proof.Machine.execPf k g a p m o s
  | .atom k g d a b z o => Sys2Proof.Machine.execAtom k g d a b z o s
  | .ldRow k g n a p m h => Sys2Proof.Machine.execLdRow k g n a p m h s
  | .ldFw k g n a p m o => Sys2Proof.Machine.execLdFw k g n a p m o s
  | .stFw k g n a p m t o => Sys2Proof.Machine.execStFw k g n a p m t o s
  | .vaddF k g d a x b y => Sys2Proof.Machine.execVaddF k g d a x b y s
  | .vsubF k g d a x b y => Sys2Proof.Machine.execVsubF k g d a x b y s
  | .vmulF k g d a x b y => Sys2Proof.Machine.execVmulF k g d a x b y s
  | .vfmaF k g d a x b y => Sys2Proof.Machine.execVfmaF k g d a x b y s
  | .vminF k g d a x b y => Sys2Proof.Machine.execVminF k g d a x b y s
  | .vmaxF k g d a x b y => Sys2Proof.Machine.execVmaxF k g d a x b y s
  | .vabsF k g d a x => Sys2Proof.Machine.execVabsF k g d a x s
  | .vnegF k g d a x => Sys2Proof.Machine.execVnegF k g d a x s
  | .vrcp k g d a x => Sys2Proof.Machine.execVrcp k g d a x s
  | .vrsq k g d a x => Sys2Proof.Machine.execVrsq k g d a x s
  | .vexp2 k g d a x => Sys2Proof.Machine.execVexp2 k g d a x s
  | .vlog2 k g d a x => Sys2Proof.Machine.execVlog2 k g d a x s
  | .vaddI k g d a x b y => Sys2Proof.Machine.execVaddI k g d a x b y s
  | .vsubI k g d a x b y => Sys2Proof.Machine.execVsubI k g d a x b y s
  | .vmulI k g d a x b y => Sys2Proof.Machine.execVmulI k g d a x b y s
  | .vminI k g d a x b y => Sys2Proof.Machine.execVminI k g d a x b y s
  | .vmaxI k g d a x b y => Sys2Proof.Machine.execVmaxI k g d a x b y s
  | .vand k g d a x b y => Sys2Proof.Machine.execVand k g d a x b y s
  | .vor k g d a x b y => Sys2Proof.Machine.execVor k g d a x b y s
  | .vxor k g d a x b y => Sys2Proof.Machine.execVxor k g d a x b y s
  | .vshl k g d a x b y => Sys2Proof.Machine.execVshl k g d a x b y s
  | .vshrS k g d a x b y => Sys2Proof.Machine.execVshrS k g d a x b y s
  | .vshrZ k g d a x b y => Sys2Proof.Machine.execVshrZ k g d a x b y s
  | .vcmpF k g c q a x b y => Sys2Proof.Machine.execVcmpF k g c q a x b y s
  | .vcmpI k g c q a x b y => Sys2Proof.Machine.execVcmpI k g c q a x b y s
  | .vsel k g d a x b y => Sys2Proof.Machine.execVsel k g d a x b y s
  | .vcvt k g d a x => Sys2Proof.Machine.execVcvt k g d a x s
  | .vpack k g d a x => Sys2Proof.Machine.execVpack k g d a x s
  | .vunpack k g d a x => Sys2Proof.Machine.execVunpack k g d a x s
  | .vsum k g d a x => Sys2Proof.Machine.execVsum k g d a x s
  | .vdot k g d a x b y => Sys2Proof.Machine.execVdot k g d a x b y s
  | .vperm k g d a x b y => Sys2Proof.Machine.execVperm k g d a x b y s
  | .vbcast k g d sc => Sys2Proof.Machine.execVbcast k g d sc s
  | .vmov k g d a x => Sys2Proof.Machine.execVmov k g d a x s
  | .vld k g d a p m => Sys2Proof.Machine.execVld k g d a p m s
  | .vseedSet k g a x => Sys2Proof.Machine.execVseedSet k g a x s
  | .vseedGet k g d => Sys2Proof.Machine.execVseedGet k g d s
  | .vdecay k g d a x => Sys2Proof.Machine.execVdecay k g d a x s
  | .vfwadd k g d a x b y => Sys2Proof.Machine.execVfwadd k g d a x b y s
  | .mmul d a b l => Sys2Proof.Machine.execMmul d a b l s
  | .mmulWt d a l => Sys2Proof.Machine.execMmulWt d a l s
  | .mmula d a b l => Sys2Proof.Machine.execMmula d a b l s
  | .mmulaWt d a l => Sys2Proof.Machine.execMmulaWt d a l s
  | .mmulSp d a b l => Sys2Proof.Machine.execMmulSp d a b l s
  | .mmulSpWt d a l => Sys2Proof.Machine.execMmulSpWt d a l s
  | .mconv d a b l => Sys2Proof.Machine.execMconv d a b l s
  | .mconvWt d a l => Sys2Proof.Machine.execMconvWt d a l s
  | .mconva d a b l => Sys2Proof.Machine.execMconva d a b l s
  | .mconvaWt d a l => Sys2Proof.Machine.execMconvaWt d a l s
  | .mwld b l => Sys2Proof.Machine.execMwld b l s
  | .mdrain d a l z => Sys2Proof.Machine.execMdrain d a l z s
  | .mzero d l => Sys2Proof.Machine.execMzero d l s
  | .mlu d l => Sys2Proof.Machine.execMlu d l s
  | .mchol d l => Sys2Proof.Machine.execMchol d l s
  | .mtri d l => Sys2Proof.Machine.execMtri d l s
  | .mtrs d a b l f => Sys2Proof.Machine.execMtrs d a b l f s
  | .mqr d b l => Sys2Proof.Machine.execMqr d b l s
  | .mqapply d a l t => Sys2Proof.Machine.execMqapply d a l t s
  | .mperm d l im => Sys2Proof.Machine.execMperm d l im s
  | .mres d l => Sys2Proof.Machine.execMres d l s
  | .cp l t d sc n => Sys2Proof.Machine.execCp l t d sc n s
  | .cpT l t d sc n => Sys2Proof.Machine.execCpT l t d sc n s
  | .cpf l t sc n => Sys2Proof.Machine.execCpf l t sc n s
  | .efrSet sc => Sys2Proof.Machine.execEfrSet sc s
  | .vdSet sc k => Sys2Proof.Machine.execVdSet sc k s
  | .rotSet k l r => Sys2Proof.Machine.execRotSet k l r s
  | .mlpSet a => Sys2Proof.Machine.execMlpSet a s
  | .swPermit l t a p => Sys2Proof.Machine.execSwPermit l t a p s
  | .nmRadd l n p a t o f => Sys2Proof.Machine.execNmRadd l n p a t o f s
  | .nmFwadd l n p a t f => Sys2Proof.Machine.execNmFwadd l n p a t f s
  | .nmRed l n p a t o => Sys2Proof.Machine.execNmRed l n p a t o s
  | .nmOpt l n p a t => Sys2Proof.Machine.execNmOpt l n p a t s
  | .nmSweepReg l a t => Sys2Proof.Machine.execNmSweepReg l a t s
  | .nmSweepUnreg l a t => Sys2Proof.Machine.execNmSweepUnreg l a t s
  | .tspawn l t a => Sys2Proof.Machine.execTspawn l t a s
  | .tjoin l a => Sys2Proof.Machine.execTjoin l a s
  | .gstepAdv im => Sys2Proof.Machine.execGstepAdv im s
  | .annulledBundle g => Sys2Proof.Machine.execAnnulledBundle g s
  | .stallCountExpiry g => Sys2Proof.Machine.execStallCountExpiry g s
  | .bundleComplete g => Sys2Proof.Machine.execBundleComplete g s
  | .landing g => Sys2Proof.Machine.execLanding g s
  | .engineLaunch g => Sys2Proof.Machine.execEngineLaunch g s
  | .loadDataArrival g n => Sys2Proof.Machine.execLoadDataArrival g n s
  | .vldDataArrival g n => Sys2Proof.Machine.execVldDataArrival g n s
  | .atomicReturn g n => Sys2Proof.Machine.execAtomicReturn g n s
  | .positionHoldEnd g => Sys2Proof.Machine.execPositionHoldEnd g s
  | .blockClear g => Sys2Proof.Machine.execBlockClear g s
  | .strandSwitch c => Sys2Proof.Machine.execStrandSwitch c s
  | .taskAbort g => Sys2Proof.Machine.execTaskAbort g s
  | .copyStart c => Sys2Proof.Machine.execCopyStart c s
  | .copyCompletion c n => Sys2Proof.Machine.execCopyCompletion c n s
  | .matrixCommandStart c => Sys2Proof.Machine.execMatrixCommandStart c s
  | .matrixResultProduced c => Sys2Proof.Machine.execMatrixResultProduced c s
  | .familyCommandDone c => Sys2Proof.Machine.execFamilyCommandDone c s
  | .factorisationBreakdown c => Sys2Proof.Machine.execFactorisationBreakdown c s
  | .taskRegistration n => Sys2Proof.Machine.execTaskRegistration n s
  | .dependenceEntryGrant d => Sys2Proof.Machine.execDependenceEntryGrant d s
  | .dispatch u => Sys2Proof.Machine.execDispatch u s
  | .startOfTaskActions g => Sys2Proof.Machine.execStartOfTaskActions g s
  | .endOfTaskActions g => Sys2Proof.Machine.execEndOfTaskActions g s
  | .permitStart d p => Sys2Proof.Machine.execPermitStart d p s
  | .permitCompletion d p => Sys2Proof.Machine.execPermitCompletion d p s
  | .nmCommandExecute c n => Sys2Proof.Machine.execNmCommandExecute c n s
  | .nmCommandCompletion c n => Sys2Proof.Machine.execNmCommandCompletion c n s
  | .streamNop d n => Sys2Proof.Machine.execStreamNop d n s
  | .launch d n r => Sys2Proof.Machine.execLaunch d n r s
  | .launchn d n m r a => Sys2Proof.Machine.execLaunchn d n m r a s
  | .streamLoop d n b im a => Sys2Proof.Machine.execStreamLoop d n b im a s
  | .streamSkip d n c b a v => Sys2Proof.Machine.execStreamSkip d n c b a v s
  | .waitv d n c a v => Sys2Proof.Machine.execWaitv d n c a v s
  | .waitvSatisfied d n => Sys2Proof.Machine.execWaitvSatisfied d n s
  | .waitg d n q => Sys2Proof.Machine.execWaitg d n q s
  | .waitgDone d n => Sys2Proof.Machine.execWaitgDone d n s
  | .streamWrite d n a v => Sys2Proof.Machine.execStreamWrite d n a v s
  | .streamJoin d n r => Sys2Proof.Machine.execStreamJoin d n r s
  | .disposeTakedown d n q => Sys2Proof.Machine.execDisposeTakedown d n q s
  | .disposeRelease d n q => Sys2Proof.Machine.execDisposeRelease d n q s
  | .faultRecordAppend d => Sys2Proof.Machine.execFaultRecordAppend d s
  | .translationInvalidationDone => Sys2Proof.Machine.execTranslationInvalidationDone s
  | .rowChange c => Sys2Proof.Machine.execRowChange c s
  | .cadenceSwitch c => Sys2Proof.Machine.execCadenceSwitch c s
  | .priorityPreemption u p => Sys2Proof.Machine.execPriorityPreemption u p s
  | .stopSequence c => Sys2Proof.Machine.execStopSequence c s
  | .partitionSwap c => Sys2Proof.Machine.execPartitionSwap c s
  | .freezeComplete => Sys2Proof.Machine.execFreezeComplete s
  | .replayPassEnd g => Sys2Proof.Machine.execReplayPassEnd g s
  | .hbmRetrainDone k => Sys2Proof.Machine.execHbmRetrainDone k s
  | .pathLost p => Sys2Proof.Machine.execPathLost p s
  | .jobCardRegister p a b => Sys2Proof.Machine.execJobCardRegister p a b s
  | .stagingFetch u n => Sys2Proof.Machine.execStagingFetch u n s
  | .cswrDoorbell d n v => Sys2Proof.Machine.execCswrDoorbell d n v s
  | .dbell v => Sys2Proof.Machine.execDbell v s
  | .csstHaltClear d n => Sys2Proof.Machine.execCsstHaltClear d n s
  | .msixUnmask v => Sys2Proof.Machine.execMsixUnmask v s
  | .tictlGo p => Sys2Proof.Machine.execTictlGo p s
  | .layoutBind p h => Sys2Proof.Machine.execLayoutBind p h s
  | .layoutUnbind p h => Sys2Proof.Machine.execLayoutUnbind p h s
  | .fabricHandleBind p h => Sys2Proof.Machine.execFabricHandleBind p h s
  | .fabricHandleUnbind p h => Sys2Proof.Machine.execFabricHandleUnbind p h s
  | .gstepWrite v => Sys2Proof.Machine.execGstepWrite v s
  | .pctlWrite p v => Sys2Proof.Machine.execPctlWrite p v s
  | .ppreStop p => Sys2Proof.Machine.execPpreStop p s
  | .ppreResume p => Sys2Proof.Machine.execPpreResume p s
  | .debugFreeze => Sys2Proof.Machine.execDebugFreeze s
  | .debugResume => Sys2Proof.Machine.execDebugResume s
  | .debugStep => Sys2Proof.Machine.execDebugStep s
  | .daReadState => Sys2Proof.Machine.execDaReadState s
  | .daWriteState => Sys2Proof.Machine.execDaWriteState s
  | .daReadUrs => Sys2Proof.Machine.execDaReadUrs s
  | .daWriteUrs => Sys2Proof.Machine.execDaWriteUrs s
  | .daReadMemory => Sys2Proof.Machine.execDaReadMemory s
  | .daWriteMemory => Sys2Proof.Machine.execDaWriteMemory s
  | .trctlWrite u v => Sys2Proof.Machine.execTrctlWrite u v s
  | .traceSample u => Sys2Proof.Machine.execTraceSample u s
  | .replayArm d n v => Sys2Proof.Machine.execReplayArm d n v s
  | .coldReset => Sys2Proof.Machine.execColdReset s
  | .rstctlWarm v => Sys2Proof.Machine.execRstctlWarm v s
  | .thermalTrip => Sys2Proof.Machine.execThermalTrip s
  | .pwrcapWrite v => Sys2Proof.Machine.execPwrcapWrite v s
  | .pkgidWrite v => Sys2Proof.Machine.execPkgidWrite v s
  | .dmaWindowWrite w r v => Sys2Proof.Machine.execDmaWindowWrite w r v s
  | .vlPortStateChange p t e => Sys2Proof.Machine.execVlPortStateChange p t e s
  | .flitReceive p f => Sys2Proof.Machine.execFlitReceive p f s
  | .pciePowerState h => Sys2Proof.Machine.execPciePowerState h s
  | .registerWrite d o v => Sys2Proof.Machine.execRegisterWrite d o v s
  | .illegalEncoding g k => Sys2Proof.Machine.execIllegalEncoding g k s
  | .bundleFetchFault g => Sys2Proof.Machine.execBundleFetchFault g s
  | .governorThrottle c => Sys2Proof.Machine.execGovernorThrottle c s
  | .uliquinWarmReset => Sys2Proof.Machine.execUliquinWarmReset s
  | .translationCacheDrop c n => Sys2Proof.Machine.execTranslationCacheDrop c n s
  | .storageError c e u a => Sys2Proof.Machine.execStorageError c e u a s

end Sys2Proof.Machine
end

