-- ==== Sys2Proof/Machine/Issue.lean ====
section
/-! DEFINITION. The issue of a bundle (03 R68, R84-R93, 06 R133, 19 R380, R381), one core clock of a core (12 R257-R265),
and what the machine does next: the moves of outside, then the work that is due, then the cores in turn. -/

namespace Sys2Proof.Machine

/-- The state an instruction leaves. -/
def run (i : Instr) (s : State) : State := outState (exec i s) s

-- Comparators (19 R379-R381).

/-- Breakpoint `i` matches a slot. -/
def State.bpHit (s : State) (t : Strand) (x : Slot) (i : Nat) : Bool :=
  let a := s.reg 0 (0x60040 + 16 * i)
  let c := s.reg 0 (0x60048 + 16 * i)
  bit c 0 && a / 32 == t.ctx.pc / 32 && a % 8 == x.k && bits c 15 8 == t.part && (!bit c 16 || x.sem.guard)

/-- Watchpoint `i` matches a slot. -/
def State.wpHit (s : State) (g : Nat) (t : Strand) (x : Slot) (i : Nat) : Bool :=
  let a := s.reg 0 (0x600C0 + 16 * i)
  let c := s.reg 0 (0x600C8 + 16 * i)
  let z := bits c 12 8
  bit c 0 && decide (z ≤ 24) && bits c 23 16 == t.part && x.sem.guard &&
  x.sem.acc.any (fun r => (if r.2.2 then bit c 2 else bit c 1) && r.2.1 != 0 &&
    rangesMeet (resolveVault (cluOf g) r.1) r.2.1 (a / 2 ^ z * 2 ^ z) (2 ^ z))

/-- The comparator that stops the strand before a slot: its source and number. One that has stopped it there already is
suppressed (19 R385). -/
def State.stopAt (s : State) (g : Nat) (x : Slot) : Option (Nat × Nat) :=
  let t := s.strand g
  match (List.range 8).find? (fun i => !t.ctx.supp.contains (16 * x.k + i) && s.bpHit t x i) with
  | some i => some (1, i)
  | none => ((List.range 8).find? (fun i => !t.ctx.supp.contains (16 * x.k + 8 + i) && s.wpHit g t x i)).map (fun i => (2, i))

/-- The lowest open slot before which the strand stops. -/
def State.stopSlot (s : State) (g : Nat) (l : List Slot) : Option (Slot × Nat × Nat) :=
  l.findSome? (fun x => (s.stopAt g x).map (fun r => (x, r.1, r.2)))

-- Issue.

/-- One slot committed: a NOP only sets its done bit. -/
def commitOne (g : Nat) (l : List Slot) (s : State) (x : Slot) : State :=
  if !s.inPos g || (s.strand g).abort.isSome then s
  else
    let s1 : State := { s with cur := { g, slot := x.k, cancel := cancels l x } }
    match x.op with
    | some i => run i s1
    | none => (if (s1.strand g).ctx.done = 0 then markFirst s1 else s1).modMe (fun t => { t with ctx := markDone x.k t.ctx })

/-- What a bundle counts as its first slot commits: a bundle issued, and its dual writes (03 R87, 19 R392). Its misses are over. -/
def countIssue (g : Nat) (l : List Slot) (s : State) : State :=
  if (s.strand g).ctx.done ≠ 0 then s
  else
    let n := (l.map (fun x => (duals l x).length)).foldl (· + ·) 0
    ((s.event g 0x02 1).event g 0x1D n).modStrand g (fun t => { t with ctx := { t.ctx with evDual := n }, miss := none })

/-- The bundle completes once every slot has committed. -/
def finish (g : Nat) (s : State) : State :=
  if (s.strand g).ctx.done = 0xFF ∧ s.inPos g then
    let pc := (s.strand g).ctx.pc
    (run (.bundleComplete g) s).modStrand g (fun t => { t with ahead := t.ahead.filter (fun e => e.1 != pc) })
  else s

/-- The slots of a bundle commit, up to a debug stop. -/
def commitAll (g : Nat) (l : List Slot) (s : State) : State :=
  match s.stopSlot g l with
  | none => finish g (l.foldl (commitOne g l) (countIssue g l s))
  | some (x, src, i) =>
    let low := l.filter (fun y => decide (y.k < x.k))
    let s1 := if low.isEmpty then s else low.foldl (commitOne g l) (countIssue g l s)
    if !s1.inPos g || (s1.strand g).abort.isSome then s1
    else (s1.debugStop g x.k src i).modStrand g (fun t =>
      { t with ctx := { t.ctx with supp := (16 * x.k + 8 * (src - 1) + i) :: t.ctx.supp } })

/-- The strand waits in this core clock; a brake for data that may arrive lets it. The clock in which a bundle that has not
issued blocks is that of the switch (12 R261). -/
def waitFor (g : Nat) (b : Bar) (s : State) : State :=
  let s0 : State := { s with cur := { g } }
  match b with
  | .brake => s0.event g 0x0F 1
  | .hold => barred b (s0.event g 0x10 1)
  | .full => barred b (s0.event g 0x10 1)
  | .ask _ _ => barred b (s0.event g 0x10 1)
  | .block _ => run (.strandSwitch (coreOf g)) (barred b s0)

/-- A bundle that a peer has sent is kept, and its request is over. -/
def State.keepAsked (s : State) (g va : Nat) : State :=
  if (s.strand g).asks.any (fun a => a.1 == va) then s.fetchAhead g va else s

/-- The bundle of the strand has been fetched: it waits, raises its fault, or its slots commit (03 R92, 06 R133, R136). -/
def issueSlots (g : Nat) (l : List Slot) (s : State) : State :=
  let t := s.strand g
  match bundleBar t l with
  | some b => waitFor g b s
  | none =>
    match bundleFlt t l with
    | some (x, f) => faultBundle g x f (s.modStrand g (fun t => { t with adv := false }))
    | none =>
      match l.findSome? (fun x => if x.sem.guard then x.sem.hold else none) with
      | some f => waitFor g .hold (f s)
      | none => commitAll g l s

/-- A bundle issues, or what is left of one (03 R92, 06 R133). An error of a store or of a posted command that is due (08 R183) comes
first: it is raised as 0x21 with TSL.SLOT 0, before the bundle is fetched, waits or faults (DESIGN CHOICE, log 104: the manual ties the
error to no slot and gives no order against them). A bundle behind a fabric window is first asked of its peer (21 R417). -/
def issue (g : Nat) (s : State) : State :=
  let pc := (s.strand g).ctx.pc
  match (s.strand g).due, s.fetchAsk g pc with
  | some (c, va), _ =>
    ((s.asksOver g).modStrand g (fun t => { t with due := none })).raise g 0 ⟨c, 0, if va = noAddr then pc else va⟩
  | none, some ps => waitFor g (.ask pc ps) s
  | none, none =>
    match s.fetched g with
    | none => (s.asksOver g).raise g 0 (s.fetchFlt g)
    | some (s1, l) => issueSlots g l (s1.keepAsked g pc)

-- One core clock.

/-- The strand is braked for a matrix result that the array cannot give up to a buffer: the ready owner of the oldest buffered result
takes position (12 R265). -/
def switchOwner (c g : Nat) (s : State) : State :=
  match s.ownerTurn c with
  | some h => if (s.core c).mq.any (fun x => x.started && x.stalled) then (s.leave g .ready .none).switchTo h g else s
  | none => s

/-- A hold that follows a completed bundle ends, or costs a strand cycle. -/
def holdClock (g : Nat) (s : State) : State :=
  let h := (s.strand g).hold
  let s1 := run (.positionHoldEnd g) s
  if (s1.strand g).hold = h ∧ s1.inPos g then (s1.event g 0x10 1).endCycle g
  else if s1.inPos g then s1
  else run (.strandSwitch (coreOf g)) s1

/-- A bundle issues, or an annulled one passes; a `done` whose conditions hold ends the task in the same clock (05 R124). -/
def bundleClock (g : Nat) (s : State) : State :=
  let t := s.strand g
  if t.ctx.anc ≠ 0 ∧ t.ctx.done = 0 then run (.annulledBundle g) s
  else
    let s1 := issue g s
    if (s1.strand g).hold = .done ∧ s1.inPos g then run (.positionHoldEnd g) s1 else s1

/-- A core clock of a strand that the brake line does not hold. While a stop sequence runs no bundle issues, but one that has issued
completes: its stall count elapses, and the hold of an `rfe`, a `done` or a `gstep.adv` goes on (17 R350, 18 R373). -/
def goClock (c g : Nat) (s : State) : State :=
  let t := s.strand g
  if t.hold.isTrap then run (.positionHoldEnd g) s
  else if t.ctx.sc ≠ 0 then run (.stallCountExpiry g) s
  else match t.hold with
    | .none => if s.mayGo g || t.adv then bundleClock g s else s
    | .breakdown _ =>
      if (s.core c).stop ≠ .none then s
      else
        let s1 := run (.positionHoldEnd g) s
        if s1.mayGo g && (s1.strand g).hold == .none then bundleClock g s1 else s1
    | _ => holdClock g s

/-- A core clock of the strand in position. The brake line comes before all (12 R264). In the clock in which the awaited result exists
the landing that was held is made, a bundle that was held with it completes, and the strand goes on with what follows (12 R263). -/
def clockStrand (c g : Nat) (s : State) : State :=
  if s.braked g then switchOwner c g (s.event g 0x0F 1)
  else
    let s1 := finish g (s.landLate g)
    if s1.inPos g then goClock c g s1 else run (.strandSwitch c) s1

/-- In a stop sequence a strand that stands at its boundary leaves position to one whose bundle is partly committed (12 R261, 18 R373). -/
def giveWay (c k : Nat) (s : State) : State :=
  if (s.core c).stop ≠ .none ∧ s.inPos (4 * c + k) ∧ s.stopped (4 * c + k) ∧ (s.unfinished c).isSome then
    s.leave (4 * c + k) .ready .none
  else s

/-- A core clock of a core. A budget that a `segend` has spent is acted on first (05 R128, 18 R372). -/
def clockCore (c : Nat) (s : State) : State :=
  let s0 := if (s.core c).spent then run (.cadenceSwitch c) (run (.rowChange c) s) else s
  match (s0.core c).pos with
  | none => run (.strandSwitch c) s0
  | some k =>
    let s1 := giveWay c k s0
    if s1.inPos (4 * c + k) then clockStrand c (4 * c + k) s1 else s1

-- What waits on no one's clock.

/-- Steps of the engines of a core that may go on. -/
def engineSteps (s : State) (c : Nat) : List Instr :=
  let k := s.core c
  let d := c / 288
  (if k.copies.any (fun x => !x.started) then [.copyStart c] else []) ++
  (k.copies.filter (fun x => x.started)).map (fun x => .copyCompletion c x.id) ++
  (match k.running with
    | some x => xDue c x
    | none => if k.mq.isEmpty then [] else [.matrixCommandStart c]) ++
  (k.nmq.map (fun n => if n.op = 6 then Instr.taskRegistration n.id else if n.phase = 2 then .nmCommandCompletion c n.id
    else .nmCommandExecute c n.id)) ++
  ((s.permits.filter (fun q => q.1 / 32 == d)).filterMap (fun q => match q.2 with
    | [] => none
    | n :: _ => some (if n.phase = 1 then Instr.permitStart d (q.1 % 32) else .permitCompletion d (q.1 % 32))))

/-- Arrivals that may be made for a strand. -/
def arrivals (s : State) (g : Nat) : List Instr :=
  ((s.strand g).pends.filter (fun p => s.mayArrive g p.id)).filterMap (fun p =>
    match p.kind with
    | .token _ => none
    | .atom _ _ _ => if p.val.isSome then some (.atomicReturn g p.id) else none
    | _ => some (if p.vld then .vldDataArrival g p.id else .loadDataArrival g p.id))

/-- The edge of a strand's task that is in progress. -/
def edgeStepOf (s : State) (g : Nat) : List Instr :=
  let t := s.strand g
  if t.wait ≠ .actions then []
  else if t.abort.isSome then [.taskAbort g]
  else match t.ph with
    | 0 => []
    | 1 => [.startOfTaskActions g]
    | 2 => if (s.replayAny g).isSome && !s.edgeQ.contains g then [.replayPassEnd g] else [.endOfTaskActions g]
    | _ => [.endOfTaskActions g]

/-- The stop sequence of a core. -/
def stopStep (s : State) (c : Nat) : List Instr :=
  let k := s.core c
  if k.stop = .none then [] else if k.saved then [.partitionSwap c] else [.stopSequence c]

/-- The steps of the task scheduler of a core's cluster and die. -/
def schedSteps (s : State) (c : Nat) : List Instr :=
  let u := c / 16
  let d := c / 288
  let l := SMap.get [] s.deps d
  if l.isEmpty then []
  else
    (if (s.nextEntry d).isSome then [.dependenceEntryGrant d] else []) ++ (s.toStage u).map (fun n => Instr.stagingFetch u n) ++
    (dedup (l.map DEnt.part)).filterMap (fun p =>
      if bit (s.preg p 0) 3 then some (Instr.priorityPreemption u (BitVec.ofNat 8 p)) else none) ++
    (((List.range 16).map (16 * u + ·)).filter (fun c => !(s.core c).entered)).map (fun c => Instr.rowChange c) ++ [.dispatch u]

/-- A stream of the die goes on with a JOIN that is over, and with the command it finds: streams are spread over the first cores of a die. -/
def streamStep (d n : Nat) (s : State) : State :=
  let s1 := s.joinsSent d n
  match s1.csNext d n with
  | .wait => s1
  | .err e => s1.csAct d n (fun s => s.csHalt d n e)
  | .cmd i => run i s1

/-- The fault record of a die that can be appended. -/
def faultSteps (s : State) (d : Nat) : List Instr :=
  if (SMap.get [] s.faults d).isEmpty then [] else [.faultRecordAppend d]

/-- What the processors of a die and the ports do beside a core: fault records, streams, flits. -/
def dieAround (c : Nat) (s : State) : State :=
  let d := c / 288
  let s1 := (faultSteps s d).foldl (fun s i => run i s) s.pump
  if c % 288 < 8 then streamStep d (c % 288) s1 else s1

/-- What the other agents around a core do in one of its clocks. -/
def around (c : Nat) (s : State) : State :=
  let gs := coreStrands c
  let l := engineSteps s c ++ gs.flatMap (arrivals s) ++ gs.flatMap (edgeStepOf s) ++ stopStep s c ++ schedSteps s c ++
    (if (s.core c).stop = .none then [.rowChange c, .cadenceSwitch c] else []) ++
    (gs.filter (fun g => (s.strand g).run == .blocked)).map (fun g => Instr.blockClear g)
  dieAround c (l.foldl (fun s i => run i s) s.sweepStep)

/-- The core clock counts for the strands that are blocked (19 R392). -/
def countBlocked (c : Nat) (s : State) : State :=
  (coreStrands c).foldl (fun s g => if (s.strand g).run = .blocked then s.event g 0x0E 1 else s) s

/-- A step of an agent that a core's clocks do not drive (20 R407): of the dies, the clusters' memory-side ports and the fabric. -/
def offCore (i : Instr) : Bool :=
  match i with
  | .taskRegistration _ => true
  | .dependenceEntryGrant _ => true
  | .permitStart _ _ => true
  | .permitCompletion _ _ => true
  | .nmCommandExecute _ _ => true
  | .faultRecordAppend _ => true
  | .translationInvalidationDone => true
  | .traceSample _ => true
  | .pathLost _ => true
  | .stagingFetch _ _ => true
  | _ => false

/-- A step that goes on whatever else is held: a stack retrains, or the debug access port reaches HBM once every stack has
(20 R399). -/
def State.freeStep (s : State) (i : Instr) : Bool :=
  match i with
  | .hbmRetrainDone _ => true
  | .daReadMemory => !s.hbmBusy
  | .daWriteMemory => !s.hbmBusy
  | _ => false

/-- A step that is due may be taken now. -/
def State.mayStep (s : State) (i : Instr) : Bool := s.freeStep i || s.live || (s.up && offCore i)

/-- Nothing that is due may be taken now. -/
def State.rested (s : State) : Bool := !s.work.any s.mayStep

/-- One core clock of a core: the agents around it when nothing else is due, then its strand. A core of a die that stays in reset
has none (20 R401); a power cap below the idle power withholds it, and only what no core clock drives goes on (20 R407). -/
def tick (c : Nat) (s : State) : State :=
  if !s.up || !s.dieAwake (c / 288) then s
  else if s.live then clockCore c (countBlocked c (if s.rested then around c s else s))
  else if s.rested then dieAround c (((engineSteps s c ++ schedSteps s c).filter offCore).foldl (fun s i => run i s) s.sweepStep)
  else s

-- Moves.

/-- A position hold for a bundle or a translation that is not yet there (05 R116, 08 R173): one strand cycle. -/
def missCycle (g : Nat) (s : State) : State :=
  let t := s.strand g
  if s.live && s.atIssue g && t.ctx.done == 0 then
    ((s.event g 0x10 1).endCycle g).modStrand g (fun x => { x with miss := some t.ctx.pc })
  else s

/-- The host and the peers take what was sent to them: a message whose flits still wait stays. A decrement is over with that. -/
def State.taken (s : State) : State :=
  let gone (m : FabMsg) : Bool := s.ready m.id
  let ended (m : FabMsg) : Option Nat := match m with | .card _ _ _ _ _ => none | m => some m.id
  { (s.fabOut.filter gone).filterMap ended |>.foldl State.landed s with
    msixSent := []
    fabOut := s.fabOut.filter (fun m => !gone m)
    ports := s.ports.map (fun p => (p.1, { p.2 with tx := [] })) }

/-- A happening at the register windows, the ports or the debug access port: nothing comes of it before the I/O die is out of reset,
nor while its image has failed (20 R399, R401; DEDUCED, log 106). -/
def atIoDie (i : Instr) : Bool :=
  match i with
  | .cswrDoorbell _ _ _ => true
  | .dbell _ => true
  | .csstHaltClear _ _ => true
  | .msixUnmask _ => true
  | .tictlGo _ => true
  | .layoutBind _ _ => true
  | .layoutUnbind _ _ => true
  | .fabricHandleBind _ _ => true
  | .fabricHandleUnbind _ _ => true
  | .gstepWrite _ => true
  | .pctlWrite _ _ => true
  | .ppreStop _ => true
  | .ppreResume _ => true
  | .debugFreeze => true
  | .debugResume => true
  | .debugStep => true
  | .daReadState => true
  | .daWriteState => true
  | .daReadUrs => true
  | .daWriteUrs => true
  | .daReadMemory => true
  | .daWriteMemory => true
  | .trctlWrite _ _ => true
  | .replayArm _ _ _ => true
  | .rstctlWarm _ => true
  | .pwrcapWrite _ => true
  | .pkgidWrite _ => true
  | .dmaWindowWrite _ _ _ => true
  | .vlPortStateChange _ _ _ => true
  | .flitReceive _ _ => true
  | .registerWrite _ _ _ => true
  | _ => false

/-- An access of the debug access port, whose GO is ignored while another waits (19 R387). -/
def isDaGo (i : Instr) : Bool :=
  match i with
  | .daReadState => true
  | .daWriteState => true
  | .daReadUrs => true
  | .daWriteUrs => true
  | .daReadMemory => true
  | .daWriteMemory => true
  | _ => false

/-- A step of the table that happens: it is one of an agent's, and its agent is there to take it. -/
def State.mayHappen (s : State) (i : Instr) : Bool :=
  i.kind == .event && (!atIoDie i || s.ioUp) && (!isDaGo i || !s.daBusy)

/-- A move of an agent, or a happening from outside. -/
def doMove (m : Move) (s : State) : State :=
  match m with
  | .ev i => if s.mayHappen i then run i s else s
  | .tick c => tick (c % 1152) s
  | .miss g => missCycle g s
  | .perform g n =>
    match (s.strand g).outs.find? (fun o => o.id == n) with
    | some o => if s.up then s.performAll g [o] else s
    | none => s
  | .evict c part va => if s.live then s.wbLines c (fun l => l.part == part && l.va == va) true else s
  | .ahead g va => if s.live && va % 32 == 0 then s.fetchAhead g va else s
  | .evictTile u n =>
    match (SMap.get [] s.tiles u)[n]? with
    | some x => if s.up then s.wbTiles u (fun y => y.isTile x.part x.handle x.pos) true else s
    | none => s
  | .clock u n =>
    if s.up && s.dieAwake (u % 72 / 18) then s.setReg (u % 72 / 18) (trBlock u + 48) ((s.reg (u % 72 / 18) (trBlock u + 48) + n) % 2 ^ 48) else s
  | .outside a bs =>
    if decide (2 ^ 41 ≤ a) || (decide (a + bs.length ≤ 2 ^ 39) && s.up && s.anyPeer) then s.memWrite a bs else s
  | .stream d n => if s.up && s.dieAwake (d % 4) then streamStep (d % 4) (n % 8) s else s
  | .count d o n => s.countUp d o n
  | .array c code n => if s.live && s.dieAwake (c % 1152 / 288) && decide (0x14 ≤ code) then s.arrayIn (c % 1152) (code - 0x14) n else s
  | .mask v => if s.ioUp then { s with msixMask := s.msixMask ||| 2 ^ (v % 16) } else s
  | .reply c n w => if s.up then s.cardReply c n w else s
  | .launchReply d n w => if s.up then s.launchReply d n w else s
  | .peerJoin p loc gr => if s.up && s.anyPeer && decide (loc < 2 ^ 39) then s.peerJoin p loc gr else s
  | .retry p q => if s.ioUp then s.retry p q else s
  | .peerLayout p q h b =>
    let rest := s.peerLay.filter (fun r => !(r.1 == p && r.2.1 == q && r.2.2.1 == h))
    { s with peerLay := match b with | some x => rest ++ [(p, q, h, x)] | none => rest }
  | .boot f v a => if s.reg 0 0x80400 = 0 then s.boot f v a else s
  | .power w => s.measure w
  | .idlePower w => ({ s with idlePw := w } : State).throttleNow
  | .sideband o v => if (s.ioUp || s.d3) && (o == 0x80000 || o == 0x80100) then s.writeReg 0 o v else s
  | .msixEntry i v =>
    if s.ioUp && decide (i < 32) then { s with msixTab := SMap.set 0#64 s.msixTab i (BitVec.ofNat 64 v) } else s
  | .answer p n =>
    if s.up && s.anyPeer then ({ s with nid := s.nid + 1 } : State).request (postedReq s.nid) (p % 4096) 2 1 n else s
  | .taken => s.taken

/-- The first step that is due and may be taken now, with the others. -/
def nextWork (p : Instr → Bool) : List Instr → Option (Instr × List Instr)
  | [] => none
  | i :: l =>
    if p i then some (i, l)
    else match nextWork p l with
      | none => none
      | some (j, r) => some (j, i :: r)

/-- The first strand with an outstanding store that may be performed, and the store. -/
def State.nextOut (s : State) : Option (Nat × Out) :=
  s.strands.findSome? (fun e => (e.2.outs.find? (s.mayPerform e.1)).map (fun o => (e.1, o)))

/-- What happens when no move is listed: the retraining of stacks and the completion of a freeze; then the steps that are
due, outstanding stores, and the cores in turn. -/
def idleStep (s : State) : State :=
  match nextWork s.mayStep s.work with
  | some (i, l) => run i { s with work := l }
  | none =>
    if s.frz = 1 then run .freezeComplete s
    else if !s.up then s
    else match s.nextOut with
      | some (g, o) => s.performOut g o
      | none => tick (s.turn % 1152) { s with turn := (s.turn + 1) % 1152 }

/-- The next step of the machine: the first move listed, or what the machine does by itself. -/
def advance1 (s : State) : State :=
  match s.agenda with
  | m :: l => doMove m { s with agenda := l }
  | [] => idleStep s

-- A word at the place where the next step fetches.

/-- The slot whose map reads a word: the order of `decodeAny`. -/
def slotFor (w : W32) : Nat := ((decodeAny w).map (fun i => i.kind.slot)).getD 0

/-- The package awake, strand 0 of core 0 in position at address 0 with a page to fetch from, the word in its slot, and one
clock of core 0 next. -/
def State.placed (s : State) (w : W32) : State :=
  let awake := [0, 1, 2, 3].foldl (fun (s : State) d => (s.setReg d 0x31028 0).setReg d 0x31128 0) (s.setReg 0 0x80400 1)
  let t : Tlb := { part := 0, va := 0, size := 65536, key := 0, perm := 4, ms := false, win := 0 }
  let a := (s.strand 0).ctx.pc % 65536 / 32 * 32 + 4 * slotFor w
  let s1 := (awake.modCore 0 (fun k => { k with pos := some 0, utlb := [t] })).modStrand 0 (fun x =>
    { x with run := .inPos, task := some ⟨0, 0, 0, 0, 0, 0, 0⟩ })
  { s1.memWrite a (leBytes 4 w.toNat) with agenda := [.tick 0], work := [] }

end Sys2Proof.Machine
end

