-- ==== Sys2Proof/Machine/Step.lean ====
section
/-! DEFINITION. The step of the machine. -/

namespace Sys2Proof.Machine

/-- One step: the first move of the agenda, or what the machine does by itself. -/
def step (s : State) : Host.Outcome State Fault Refusal := .next (advance1 s)

/-- The state with an instruction of the table where the next step fetches and runs it: its word in its slot of the bundle
of strand 0, the other slots zero. A length other than 32 bits leaves the state as it is. -/
def State.withFetchWord (s : State) (nbits w : Nat) : State :=
  if nbits = 32 then s.placed (BitVec.ofNat 32 w) else s

end Sys2Proof.Machine
end

