-- ==== Sys2Proof/Machine/Reads.lean ====
section
/-! DEFINITION. What the registers of a die's window read as (15 R318), and the reads of the host through the BARs of the function
(21 R409, R410). -/

namespace Sys2Proof.Machine

/-- The state of a strand as CST shows it (12 R268). -/
def cstCode (t : Strand) : Nat :=
  match t.run with | .idle => 0 | .inPos => 1 | .ready => 1 | .blocked => 2 | .stopped => 3

/-- The brake line holds the strand in position (12 R263): for a matrix result, or for scoreboarded data that its bundle waits for
late. -/
def State.brakeOn (s : State) (g : Nat) : Bool :=
  s.braked g || (s.atIssue g && (s.strand g).due.isNone &&
    (match s.fetched g with
      | some (s1, l) => bundleBar (s1.strand g) l == some .brake
      | none => false))

/-- CST of core `c` (12 R268). -/
def State.cst (s : State) (c : Nat) : Nat :=
  let k := s.core c
  let sst := [0, 1, 2, 3].foldl (fun n i => n + cstCode (s.strand (4 * c + i)) * 2 ^ (16 + 2 * i)) 0
  sst + (match k.pos with
    | none => 2 ^ 10
    | some i => i % 4 * 256 + if s.brakeOn (4 * c + i) then 4 else 0) +
    (if s.hwCores.contains c then 2 else 0) + (if s.fxd c then 1 else 0)

/-- PSTAT of a partition (18 R367). -/
def State.pstat (s : State) (p : Nat) : Nat :=
  (if s.quiesced p then 4 else 0) + (if s.hstop p then 2 else 0) + (if s.liveP p then 1 else 0)

/-- A register of a die's window as it reads; an offset that no register occupies reads as zero (21 R409). -/
def State.readReg (s : State) (d o : Nat) : Nat :=
  if o % 8 ≠ 0 then 0
  else if 0x20000 ≤ o ∧ o < 0x24800 ∧ o % 64 = 0 then s.cst (288 * d + (o - 0x20000) / 64)
  else if 0x40000 ≤ o ∧ o < 0x44000 then (if o % 64 = 48 then s.pstat ((o - 0x40000) / 64) else s.reg 0 o)
  else if o = 0x44000 then (if s.ppreBusy then 2 ^ 16 else 0)
  else if 0x52000 ≤ o ∧ o < 0x52900 then
    let k := s.core (288 * d + (o - 0x52000) / 8)
    k.left % 2 ^ 32 * 2 ^ 32 + k.row % 32 * 256 + k.part % 256
  else if o = 0x36010 then
    s.reg 0 o % 2 + (if s.sweep.any (fun w => !w.todo.isEmpty) then 2 else 0) + s.sweeps.length * 2 ^ 16
  else if 0x34000 ≤ o ∧ o < 0x36018 then s.reg 0 o
  else if 0x60000 ≤ o ∧ o < 0x62000 then s.reg 0 o
  else if 0x80000 ≤ o then s.reg 0 o
  else s.reg d o

/-- A read of 4 bytes of a 64-bit value: bits [31:0], or [63:32] where bit 2 of the offset is 1 (21 R409). -/
def halfOf (v o : Nat) : Nat := if o % 4 ≠ 0 then 0 else if bit o 2 then v / 2 ^ 32 else v % 2 ^ 32

/-- Eight bytes of BAR4 (21 R409): the MSI-X table, whose entries hold an address, and data with the mask in bit 32, and the
pending-bit array. The layout of an entry is that of PCIe (PRESUMED, log 85). -/
def State.readMsix (s : State) (o : Nat) : Nat :=
  let i := o / 8
  if o < 0x100 then
    (SMap.get 0#64 s.msixTab i).toNat % (if i % 2 = 0 then 2 ^ 64 else 2 ^ 32) +
      (if i % 2 = 1 ∧ s.msixMask.testBit (i / 2) then 2 ^ 32 else 0)
  else if o / 8 = 0x100 then s.msixPend
  else 0

/-- Eight bytes at an aligned offset of a BAR (21 R409): the windows, the doorbell, whose reads return zero (21 R410), or MSI-X. -/
def State.readBar8 (s : State) (bar o : Nat) : Nat :=
  match bar with
  | 0 => if o < 2 ^ 22 then s.readReg (o / 2 ^ 20) (o % 2 ^ 20) else 0
  | 4 => s.readMsix o
  | _ => 0

/-- A host read of 8 bytes, or of 4 (21 R409). -/
def State.readBar (s : State) (bar o : Nat) (four : Bool) : Nat :=
  if four then halfOf (s.readBar8 bar (o / 8 * 8)) o else if o % 8 = 0 then s.readBar8 bar o else 0

/-- A read by the sideband, which sees the die 0 window (21 R412). -/
def State.readSide (s : State) (o : Nat) : Nat := s.readReg 0 o

end Sys2Proof.Machine
end

