-- ==== Sys2Proof/Safety.lean ====
section
/-! DEFINITION. The terms in which statements about the machine are made: when a slot operation may commit, what it then
leaves as it was, what a bundle holds for its completion, and the invariant of the machine. -/

namespace Sys2Proof

/-- Keys strictly rising. -/
def SMap.rising {α : Type} : SMap α → Bool
  | [] => true
  | (j, _) :: m => SMap.above j m && SMap.rising m

namespace Machine

/-- Offsets of the event counters of the cores (19 R391). -/
def isCounter (o : Nat) : Bool := decide (0x70000 ≤ o) && decide (o < 0x74800)

/-- Two states of a package that differ in the strand in issue, in event counters and in the registers at the offsets `ex`
alone: all of memory, every other strand, every core, every other register and every table are equal. -/
structure OnlyMe (s t : State) (ex : List Nat := []) : Prop where
  rest : ({ t with strands := s.strands, regs := s.regs } : State) = s
  others : ∀ g, g ≠ s.cur.g → t.strand g = s.strand g
  regs : ∀ d o, o < 2 ^ 20 → isCounter o = false → o ∉ ex → t.reg d o = s.reg d o

/-- Slot `slot` of the strand in issue may commit an operation that reads `srcs` and writes `dsts` and takes `n` entries
of the landing queue: it has not committed, the task is not aborted, no operand is the destination of data still to arrive
(08 R177), none has a recorded error (06 R135, 17 R348), the checking scoreboard is off, or passed, or finds nothing
(06 R144), and the landing queue has room (01 R27). -/
structure Ready (s : State) (slot : Nat) (srcs dsts : List Dst) (n : Nat) : Prop where
  clear : s.me.ctx.done.testBit slot = false
  alive : s.me.abort = none
  settled : ∀ p ∈ s.me.oldPends, dstsMeet p.dsts (srcs ++ dsts) = false
  sound : ∀ e ∈ s.me.errs, dstsMeet [e.1] srcs = false
  checked : s.me.scr.getLsbD 0 = false ∨ s.me.ctx.csbpass = true ∨
    ((∀ e ∈ s.me.oldLq, dstsMeet (landDst e.what) srcs = false) ∧ deadCount s.me srcs = 0)
  room : s.me.ctx.lq.length + n ≤ 64

/-- The effects of latency 1 as the completion buffer holds them, less what a higher slot writes over (03 R87, 06 R133). -/
def heldOf (slot : Nat) (cancel : List Dst) (lands : List (Nat × Eff)) : List Held :=
  lands.filterMap (fun e => if 1 < e.1 then none else (trimEff cancel e.2).map (fun x => ⟨slot, x⟩))

/-- The effects of longer latency as the landing queue holds them (01 R25, R27). -/
def queuedOf (slot pc : Nat) (cancel : List Dst) (lands : List (Nat × Eff)) : List Landing :=
  lands.filterMap (fun e => if 1 < e.1 then (trimEff cancel e.2).map (fun x => ⟨e.1, pc, slot, .eff x⟩) else none)

/-- The control context of a strand after a slot commits: its done bit is set, its effects are recorded, its dead reads
are counted, and the first slot of a bundle marks where its own commands and entries begin; `out` is the outcome of a C
operation. -/
def ctxAfter (s : State) (slot : Nat) (srcs : List Dst) (lands : List (Nat × Eff)) (out : COut → COut) : Ctx :=
  let c := s.me.ctx
  { c with
    done := c.done ||| 2 ^ slot
    buf := c.buf ++ heldOf slot s.cur.cancel lands
    lq := c.lq ++ queuedOf slot c.pc s.cur.cancel lands
    cout := out c.cout
    evDead := c.evDead + deadCount s.me srcs
    first := if c.done = 0 then some (s.nid, c.lq.length) else c.first }

/-- A slot of the strand in issue has committed with these effects and nothing else: `keep` is what becomes of the strand
beside its control context. -/
structure Commits (s t : State) (slot : Nat) (srcs : List Dst) (lands : List (Nat × Eff)) (out : COut → COut)
    (keep : Strand → Strand) (ex : List Nat := []) : Prop where
  only : OnlyMe s t ex
  ctx : t.me.ctx = ctxAfter s slot srcs lands out
  strand : ({ t.me with ctx := s.me.ctx } : Strand) = keep s.me

/-- The operation answers a next state in which slot `slot` has committed with the effects `lands`, from every state in
which its guard is true and the slot is ready. -/
def Writes (i : Instr) (slot : Nat) (guard : Strand → Bool) (srcs dsts : List Dst) (ents : Nat)
    (lands : Strand → List (Nat × Eff)) (out : Strand → COut → COut) (keep : Strand → Strand) : Prop :=
  ∀ s, guard s.me = true → Ready s slot srcs dsts ents →
    ∃ t, exec i s = .next t ∧ Commits s t slot srcs (lands s.me) (out s.me) keep

/-- An S operation that reads the scalar registers `rd` and writes `s[d]` with latency `l` (04 R94, R95). -/
def WritesS (i : Instr) (k : BitVec 3) (g : BitVec 1) (rd : List (BitVec 6)) (d : BitVec 6) (l : Nat) (v : Strand → W64) :
    Prop :=
  Writes i 1 (fun t => t.guard k g) (rd.map (fun r => .s r.toNat)) [.s d.toNat] (if 1 < l then 1 else 0)
    (fun t => [(l, .sreg d.toNat (v t))]) (fun _ c => c) (fun t => t)

/-- An S operation that writes `p[d]` with latency 1. -/
def WritesP (i : Instr) (k : BitVec 3) (g : BitVec 1) (rd : List Dst) (d : BitVec 3) (v : Strand → Bool) : Prop :=
  Writes i 1 (fun t => t.guard k g) rd [.p d.toNat] 0 (fun t => [(1, .preg d.toNat (v t))]) (fun _ c => c) (fun t => t)

/-- An S operation with one rounding: under RSTO it takes one state of lane 0's LFSR (02 R61, 04 R105). -/
def RoundsS (i : Instr) (k : BitVec 3) (g : BitVec 1) (rd : List (BitVec 6)) (d : BitVec 6) (l : Nat) (v : Strand → W64) :
    Prop :=
  Writes i 1 (fun t => t.guard k g) (rd.map (fun r => .s r.toNat)) [.s d.toNat] 1
    (fun t => [(l, .sreg d.toNat (v t))]) (fun _ c => c) (fun t => if t.rmode = .rsto then t.reserve [(0, 1)] else t)

/-- An A operation in slot 2 or 3, which has no guard (03 R78, 04 R115). -/
def WritesA (i : Instr) (srcs : List Dst) (dst : Dst) (e : Strand → Eff) : Prop :=
  ∀ slot, slot = 2 ∨ slot = 3 → ∀ s, s.cur.slot = slot → Ready s slot srcs [dst] 0 →
    ∃ t, exec i s = .next t ∧ Commits s t slot srcs [(1, e s.me)] (fun c => c) (fun t => t)

/-- A URS effect over the 256 lanes of an operand: each active lane is written with the four little-endian bytes of its
value, and of an inactive lane nothing is (07 R149). -/
def LanesAre (ws : List (Option (Byte × Byte))) (act : Mask) (v : Nat → Nat) : Prop :=
  ws.length = 1024 ∧ ∀ i < 256, ∀ j < 4,
    if act.getLsbD i then ws[4 * i + j]? = some (some (0xFF#8, BitVec.ofNat 8 (v i / 256 ^ j)))
    else ∃ b, ws[4 * i + j]? = some (some (0#8, b))

/-- The lanes of a V operation that hold a rounding each take one LFSR state under RSTO (02 R61). -/
def roundLanes (act : Mask) (t : Strand) : Strand :=
  if t.rmode = .rsto then t.reserve ((List.range 256).filterMap (fun i => if act.getLsbD i then some (i, 1) else none)) else t

/-- A V operation that reads the lanes of the operands named `rs` and writes the active lanes of the operand named `d` with
latency `l` (07 R148-R153): lane `i` becomes `v t i` of the values that the operands hold there. -/
def WritesV (i : Instr) (k : BitVec 3) (g : BitVec 1) (d : BitVec 6) (rs : List (BitVec 6)) (l : Nat) (rounds : Bool)
    (v : Strand → Nat → List Nat → Nat) : Prop :=
  ∀ (s : State) (rd : Res) (ra : List Res), s.me.guard k g = true → vecOperand s.me d.toNat = .ok rd →
    rs.map (fun r => vecOperand s.me r.toNat) = ra.map .ok →
    let srcs : List Dst := .q k.toNat :: ra.map (fun r => .urs r.addr 1024)
    Ready s 5 srcs [.urs rd.addr 1024] (if 1 < l then 1 else 0) →
      ∃ t ws, exec i s = .next t ∧
        Commits s t 5 srcs [(l, .urs rd.addr ws)] (fun c => c)
          (if rounds then roundLanes (s.me.rq k.toNat) else fun t => t) ∧
        LanesAre ws (s.me.rq k.toNat) (fun n => v s.me n (ra.map (fun r => (s.me.lanesAt r.addr).getD n 0)))

/-- What an L operation may change beside the strand in issue: event counters, the translation caches, the lines that the
core's data cache holds, the requests to peers with their ports, the steps that are due and the model's own numbering. All of
memory, every other strand and every other register and table are equal. -/
structure Reaches (s t : State) (ex : List Nat := []) : Prop where
  rest : ({ t with
    strands := s.strands, regs := s.regs, cores := s.cores, ctlb := s.ctlb, work := s.work, nid := s.nid, fresh := s.fresh,
    ports := s.ports, flights := s.flights } : State) = s
  others : ∀ g, g ≠ s.cur.g → t.strand g = s.strand g
  regs : ∀ d o, o < 2 ^ 20 → isCounter o = false → o ∉ ex → t.reg d o = s.reg d o
  cores : ∀ c, ({ t.core c with utlb := (s.core c).utlb, dc := (s.core c).dc } : Core) = s.core c

/-- An L operation has committed with these effects: its control context is recorded, and of the strand beside nothing
changes but its pending destinations. -/
structure Moves (s t : State) (srcs : List Dst) (lands : List (Nat × Eff)) (ex : List Nat := []) : Prop where
  reaches : Reaches s t ex
  ctx : t.me.ctx = ctxAfter s 4 srcs lands (fun c => c)
  strand : ({ t.me with ctx := s.me.ctx, pends := s.me.pends } : Strand) = s.me

/-- A pending destination beside its value. -/
def Pend.bare (p : Pend) : Pend := { p with val := none, err := none }

/-- No earlier access of the strand to the bytes is under way: no atomic that is outstanding, and no load without its value. -/
def Strand.clearOf (t : Strand) (ps : List Piece) : Prop :=
  (∀ o ∈ t.outs, o.op.atom.isSome = true → piecesMeet o.op.pcs ps = false) ∧
  (∀ p ∈ t.pends, p.val = none → piecesMeet p.pcs ps = false)

/-- The strand in issue has one more pending destination, `q`; the others are as they were, and keep their values as long as
none of them has the number that `q` takes. -/
def Adds (s t : State) (q : Pend) : Prop :=
  ∃ old, t.me.pends = old ++ [q] ∧ old.map Pend.bare = s.me.pends.map Pend.bare ∧ q.id = s.nid ∧
    ((∀ p ∈ s.me.pends, p.id ≠ s.nid) → old = s.me.pends)

/-- The registers that the address of an L operation comes from (08 R177). -/
def addrSrcs (a : BitVec 5) (p : BitVec 1) (m : BitVec 4) : List Dst :=
  .a a.toNat :: (if p = 1#1 then [.m m.toNat 0, .m m.toNat 1, .m m.toNat 2, .m m.toNat 3] else [])

/-- The register that its post-modification writes. -/
def addrDsts (a : BitVec 5) (p : BitVec 1) : List Dst := if p = 0#1 then [] else [.a a.toNat]

/-- An access of `n` bytes at `ea` raises nothing (08 R174-R176): it has a translation with the permission, made of the
pieces `ps`; it is aligned; and it lies in regions that grant it (1 read, 2 write, 3 both). -/
structure Allowed (s : State) (ea n perm align : Nat) (atomic : Bool) (ps : List Piece) (ts : List Tlb) : Prop where
  mapped : s.pieces s.cur.g ea n perm atomic = .ok (ps, ts)
  aligned : ea % align = 0
  declared : undeclared s.me s.cur.g ea n perm = none

/-- What an E or X operation does when it commits with a command. -/
structure Launch where
  slot : Nat
  srcs : List Dst
  /-- Its start delay (03 R74). -/
  delay : Nat
  cmd : Cmd
  /-- The effects that are held for the completion of the bundle. -/
  lands : List (Nat × Eff) := []
  /-- What a launch at once does to the core, the landing-queue entry it leaves, and the steps that are then due. -/
  queue : Core → Core := id
  entry : Option (Nat × LWhat) := none
  due : List Instr := []
  /-- What becomes of the strand beside its control context, at once and at a launch at once. -/
  keep : Strand → Strand := id
  joined : Strand → Strand := id
  /-- The slot commits with the operation, or only when the command completes (11 R239). -/
  commits : Bool := true
  /-- Free values that the command takes. -/
  free : Nat := 0

/-- The control context after the launch. -/
def launchCtx (s : State) (x : Launch) : Ctx :=
  let c := ctxAfter s x.slot x.srcs x.lands (fun c => c)
  let l : List Landing := if x.delay = 0 then x.entry.toList.map (fun e => ⟨e.1, s.me.ctx.pc, s.cur.slot, e.2⟩)
    else [⟨x.delay, s.me.ctx.pc, s.cur.slot, .launch x.cmd⟩]
  { c with
    done := if x.commits then c.done else s.me.ctx.done
    lq := c.lq ++ l }

/-- The slot has committed with its command: launched at once when its start delay is 0, a landing-queue entry that waits
for its start otherwise (03 R74, 09 R197). Beside the strand in issue there change event counters, the translation caches,
the queues of the core as `queue` says, the steps due and the model's own numbering: all of memory, every other strand,
register and table are equal. -/
structure Launched (s t : State) (x : Launch) : Prop where
  rest :
    ({ t with strands := s.strands, regs := s.regs, cores := s.cores, ctlb := s.ctlb, work := s.work, nid := s.nid, fresh := s.fresh } :
      State) = s
  num : t.nid = s.nid + 1 ∧ t.fresh = s.fresh + x.free
  others : ∀ g, g ≠ s.cur.g → t.strand g = s.strand g
  regs : ∀ d o, o < 2 ^ 20 → isCounter o = false → t.reg d o = s.reg d o
  cores : ∀ c, c ≠ coreOf s.cur.g → ({ t.core c with utlb := (s.core c).utlb } : Core) = s.core c
  core : ({ t.core (coreOf s.cur.g) with utlb := (s.core (coreOf s.cur.g)).utlb } : Core) =
    if x.delay = 0 then x.queue (s.core (coreOf s.cur.g)) else s.core (coreOf s.cur.g)
  work : t.work = s.work ++ (if x.delay = 0 then x.due else [])
  ctx : t.me.ctx = launchCtx s x
  strand : ({ t.me with ctx := s.me.ctx } : Strand) = (if x.delay = 0 then x.joined (x.keep s.me) else x.keep s.me)

/-- A token register of the strand waits for command `id` (09 R210). -/
def Strand.awaits (t : Strand) (id tok : Nat) : Strand :=
  if tok = 0 then t else { t with pends := t.pends ++ [⟨id, .token tok, [.s tok], [], none, false, none, 0, []⟩] }

/-- The control context after a slot whose guard is false. -/
def passedCtx (s : State) (slot : Nat) (out : COut → COut) : Ctx :=
  let c := s.me.ctx
  { c with
    done := c.done ||| 2 ^ slot
    cout := out c.cout
    first := if c.done = 0 then some (s.nid, c.lq.length) else c.first }

/-- A C, S, L, V or X slot whose guard is false commits without an effect (03 R71): its done bit is set, and `keep` says what
becomes of the strand beside. -/
structure PassedOver (s t : State) (slot : Nat) (out : COut → COut) (keep : Strand → Strand) : Prop where
  reaches : ({ t with strands := s.strands, cores := s.cores, ctlb := s.ctlb } : State) = s
  others : ∀ g, g ≠ s.cur.g → t.strand g = s.strand g
  cores : ∀ c, ({ t.core c with utlb := (s.core c).utlb } : Core) = s.core c
  me : t.me = (let c := passedCtx s slot out; { keep s.me with ctx := c })

/-- The state at the completion of a bundle that holds one effect alone, its landings made and its C slot silent. -/
structure Completing (s : State) (g : Nat) (e : List Held) : Prop where
  live : s.live = true
  inPos : s.inPos g = true
  unstepped : s.stepArm ≠ some g
  full : (s.strand g).ctx.done = 0xFF
  quiet : (s.strand g).ctx.lq = []
  silent : (s.strand g).ctx.cout = {}
  alone : (s.strand g).ctx.held = []
  buf : (s.strand g).ctx.buf = e

/-- A strand beside its control context and the fields that every completion touches: the clock, the counts of SEV, the marks
of TCR and TAR, the cycles of a segment and EFR. -/
def Strand.beside (t : Strand) : Strand :=
  { t with ctx := {}, cyc := 0#64, sev := 0#64, seen := 0, segc := 0, efr := 0#64 }

/-- The register files of a strand are in canonical form. -/
def Strand.filed (t : Strand) : Bool :=
  SMap.rising t.sreg && SMap.rising t.areg && SMap.rising t.mreg && SMap.rising t.qreg && SMap.rising t.vd &&
  SMap.rising t.pvr && SMap.rising t.urs

/-- What an effect makes of a strand when it takes place (01 R13-R22, R26, 05 R129): `x` before, `y` after. Every register
that the clause does not name is as before. Stores have statements of their own. -/
def EffectOf (e : Eff) (x y : Strand) : Prop :=
  match e with
  | .sreg n v => (∀ m, y.rs m = if m = n ∧ n ≠ 0 then v else x.rs m) ∧ ({ y with sreg := x.sreg } : Strand).beside = x.beside
  | .areg n v => (∀ m, y.ra m = if m = n then v else x.ra m) ∧ ({ y with areg := x.areg } : Strand).beside = x.beside
  | .mfld n f v =>
    let at0 := [96, 72, 64, 0].getD f 0
    let w := [32, 24, 2, 57].getD f 57
    (∀ m, m ≠ n → y.rm m = x.rm m) ∧
    (∀ i < 128, (y.rm n).getLsbD i = if at0 ≤ i ∧ i < at0 + w then v.getLsbD (i - at0) else (x.rm n).getLsbD i) ∧
    ({ y with mreg := x.mreg } : Strand).beside = x.beside
  | .preg n v => n < 8 →
    (∀ m < 8, y.rp m = if m = n ∧ n ≠ 0 then v else x.rp m) ∧ ({ y with preg := x.preg } : Strand).beside = x.beside
  | .qreg n act v =>
    (∀ m, m ≠ n ∨ n = 0 → y.rq m = x.rq m) ∧
    (n ≠ 0 → ∀ i < 256, (y.rq n).getLsbD i = if act.getLsbD i then v.getLsbD i else (x.rq n).getLsbD i) ∧
    ({ y with qreg := x.qreg } : Strand).beside = x.beside
  | .urs a ws =>
    (∀ i v, ws[i]? = some (some (0xFF#8, v)) → y.ursRead (a + i) 1 = [v]) ∧
    (x.age = [] → ∀ b u, x.ursRead b 1 = [u] → y.ursRead b 1 = [
      if a ≤ b then (match ws[b - a]? with | some (some (m, v)) => (u &&& ~~~m) ||| (v &&& m) | _ => u) else u]) ∧
    ({ y with urs := x.urs, age := x.age, errs := x.errs, due := x.due, wstale := x.wstale } : Strand).beside = x.beside ∧
    (x.errs = [] → y.errs = [] ∧ y.due = x.due) ∧ y.wstale = (x.wstale || x.meetsRef a ws)
  | .sys r v =>
    y.scr = (if r = 0x00 then v &&& 1#64 else x.scr) ∧ y.fsr = (if r = 0x06 then v else x.fsr) ∧
    y.gfr = (if r = 0x07 then v &&& 0xFFFFFFFF#64 else x.gfr) ∧
    (∀ i < 8, SMap.get 0#64 y.pvr i = if r = 8 + i then v else SMap.get 0#64 x.pvr i) ∧
    y.tcr = (if r = 0x10 then v &&& 0x0000FFFF000001FF#64 else x.tcr) ∧
    y.tar = (if r = 0x11 then v &&& 0x01FFFFFFFFFFFFFF#64 else x.tar) ∧
    ({ y with scr := x.scr, fsr := x.fsr, gfr := x.gfr, pvr := x.pvr, tcr := x.tcr, tar := x.tar } : Strand).beside = x.beside
  | .efr _ => y.beside = x.beside
  | .vd i v =>
    (∀ j, y.rvd j = if j = i then v.toNat &&& 0x80003FFEFFFFFFFF else x.rvd j) ∧ (∀ n < 64, SMap.get 0 y.age (64 * i + n) = 0) ∧
    ({ y with vd := x.vd, age := x.age } : Strand).beside = x.beside
  | .rotSet i l r => l < 64 → r < 64 →
    (∀ j, j ≠ i → y.rvd j = x.rvd j) ∧ vdLdr (y.rvd i) = l ∧ vdRrb (y.rvd i) = r ∧
    (∀ b, b < 34 ∨ 46 ≤ b → (y.rvd i).testBit b = ((x.rvd i).testBit b && Nat.testBit 0x80003FFEFFFFFFFF b)) ∧
    (∀ n < 64, SMap.get 0 y.age (64 * i + n) = 0) ∧ ({ y with vd := x.vd, age := x.age } : Strand).beside = x.beside
  | .rotate =>
    (∀ i < 8, if vdEn (x.rvd i) && vdRot (x.rvd i) && vdCount (x.rvd i) != 0 then
      vdRrb (y.rvd i) = (vdRrb (x.rvd i) + vdCount (x.rvd i) - 1) % vdCount (x.rvd i) ∧
        y.rvd i / 2 ^ 40 = x.rvd i / 2 ^ 40 ∧ y.rvd i % 2 ^ 34 = x.rvd i % 2 ^ 34
      else y.rvd i = x.rvd i) ∧
    (SMap.rising x.age = true → ∀ i < 8, ∀ n < 64, SMap.get 0 y.age (64 * i + n) =
      if vdEn (x.rvd i) && vdRot (x.rvd i) && decide (n < vdCount (x.rvd i)) then min 63 (SMap.get 0 x.age (64 * i + n) + 1)
      else SMap.get 0 x.age (64 * i + n)) ∧
    ({ y with vd := x.vd, age := x.age } : Strand).beside = x.beside
  | .mlp v => y.mlp = v ∧ ({ y with mlp := x.mlp } : Strand).beside = x.beside
  | .svr v => y.svr = v ∧ ({ y with svr := x.svr } : Strand).beside = x.beside
  | .seeds l => y.beside = (l.foldl (fun t e => t.setSeed e.1 e.2) x).beside
  | .wref a f => y.wref = some (a, f) ∧ y.wstale = false ∧
    ({ y with wref := x.wref, wstale := x.wstale } : Strand).beside = x.beside
  | .err d va => y.errs = x.errs ++ [(d, 0x21, va)] ∧ ({ y with errs := x.errs } : Strand).beside = x.beside
  | .mem _ => True

/-- Beside one strand, event counters and the replay of its task nothing of the package changes: all of memory, every core,
every table and every other register are equal. -/
structure OnlyStrand (s t : State) (g : Nat) (ex : List Nat := []) : Prop where
  rest : ({ t with strands := s.strands, regs := s.regs, replays := s.replays } : State) = s
  others : ∀ h, h ≠ g → t.strand h = s.strand h
  regs : ∀ d o, o < 2 ^ 20 → isCounter o = false → o ∉ ex → t.reg d o = s.reg d o

/-- The tables of a state that are held as sorted lists are so: the registers, the sequence numbers, which stay below 2^48,
and the register files of every strand, live, in shadow storage or saved. -/
structure Tables (s : State) : Prop where
  regs : SMap.rising s.regs = true
  seqs : SMap.rising s.spawnNo = true ∧ ∀ e ∈ s.spawnNo, e.2 < 2 ^ 48
  live : ∀ e ∈ s.strands, e.2.filed = true
  shadow : ∀ e ∈ s.cores, ∀ p l, e.2.shadow = some (p, l) → ∀ t ∈ l, t.filed = true
  saved : ∀ e ∈ s.images, e.2.2.filed = true

end Machine

end Sys2Proof
end

