-- ==== Sys2Proof/Certificates/Slice0/Obligations.lean ====
section
/-! DEFINITION. The statements for the provers. -/

open Sys2Proof Sys2Proof.Machine

-- The S slot (04 R94-R109).

/-- Integer arithmetic (04 R97): `add`, `sub`, `and`, `or`, `xor`, `andn`, `shl`, `shr.s`, `shr.z`, `rotr`, `min.s`,
`min.z`, `max.s`, `max.z` write `s[D]` from `s[A]` and `s[B]` with latency 1 and change nothing else; a shift uses the low
six bits of `s[B]`; FN 14 and 15 are illegal.
Immediate forms (04 R98): `addi`, `andi`, `ori`, `xori`, `andni` with the sign-extended 10-bit immediate, `shli`,
`shri.s`, `shri.z` with a count of six bits, and `lui`, which places 16 bits at [25:10] and copies bit 25 upward. -/
def Obligations.ScalarInteger : Prop :=
  (∀ (k : BitVec 3) (g : BitVec 1) (d a b : BitVec 6),
    let x := fun (t : Strand) => t.rs a.toNat
    let y := fun (t : Strand) => t.rs b.toNat
    let n := fun (t : Strand) => (y t).toNat % 64
    let ok := fun (i : Instr) (v : Strand → W64) => WritesS i k g [a, b] d 1 v
    ok (.add k g d a b) (fun t => x t + y t) ∧
    ok (.sub k g d a b) (fun t => x t - y t) ∧
    ok (.and k g d a b) (fun t => x t &&& y t) ∧
    ok (.or k g d a b) (fun t => x t ||| y t) ∧
    ok (.xor k g d a b) (fun t => x t ^^^ y t) ∧
    ok (.andn k g d a b) (fun t => x t &&& ~~~y t) ∧
    ok (.shl k g d a b) (fun t => BitVec.ofNat 64 ((x t).toNat * 2 ^ n t)) ∧
    ok (.shrS k g d a b) (fun t => BitVec.ofInt 64 ((x t).toInt / 2 ^ n t)) ∧
    ok (.shrZ k g d a b) (fun t => BitVec.ofNat 64 ((x t).toNat / 2 ^ n t)) ∧
    ok (.rotr k g d a b) (fun t => x t >>> n t ||| x t <<< (64 - n t)) ∧
    ok (.minS k g d a b) (fun t => if (x t).toInt ≤ (y t).toInt then x t else y t) ∧
    ok (.minZ k g d a b) (fun t => if (x t).toNat ≤ (y t).toNat then x t else y t) ∧
    ok (.maxS k g d a b) (fun t => if (x t).toInt ≤ (y t).toInt then y t else x t) ∧
    ok (.maxZ k g d a b) (fun t => if (x t).toNat ≤ (y t).toNat then y t else x t) ∧
    ∀ f : BitVec 4, 14 ≤ f.toNat → decodeSlot 1 (0x01#6 ++ k ++ g ++ d ++ a ++ b ++ f) = none) ∧
  (∀ (k : BitVec 3) (g : BitVec 1) (d a : BitVec 6) (i : BitVec 10) (n : BitVec 6)
      (u : BitVec 16),
    let x := fun (t : Strand) => t.rs a.toNat
    let ok := fun (o : Instr) (v : Strand → W64) => WritesS o k g [a] d 1 v
    ok (.addi k g d a i) (fun t => x t + i.signExtend 64) ∧
    ok (.andi k g d a i) (fun t => x t &&& i.signExtend 64) ∧
    ok (.ori k g d a i) (fun t => x t ||| i.signExtend 64) ∧
    ok (.xori k g d a i) (fun t => x t ^^^ i.signExtend 64) ∧
    ok (.andni k g d a i) (fun t => x t &&& ~~~i.signExtend 64) ∧
    ok (.shli k g d a n) (fun t => BitVec.ofNat 64 ((x t).toNat * 2 ^ n.toNat)) ∧
    ok (.shriS k g d a n) (fun t => BitVec.ofInt 64 ((x t).toInt / 2 ^ n.toNat)) ∧
    ok (.shriZ k g d a n) (fun t => BitVec.ofNat 64 ((x t).toNat / 2 ^ n.toNat)) ∧
    WritesS (.lui k g d u) k g [] d 1 (fun _ => (u ++ 0#10).signExtend 64))

/-- The multiply and divide group (04 R99, R95): products with latency 3, quotients and remainders with latency 18, a zero
divisor and the overflow of the signed division among them; FN 7 to 15 are illegal.
The unary group (04 R100): leading zeros, trailing zeros and one bits are counted (64 zeros for zero), and the low 8,
16 or 32 bits are extended; FN 9 to 15 and a nonzero B are illegal. -/
def Obligations.ScalarMultiplyUnary : Prop :=
  (∀ (k : BitVec 3) (g : BitVec 1) (d a b : BitVec 6),
    let x := fun (t : Strand) => t.rs a.toNat
    let y := fun (t : Strand) => t.rs b.toNat
    let ovf := fun (t : Strand) => (x t).toInt = -2 ^ 63 ∧ (y t).toInt = -1
    let ok := fun (i : Instr) (l : Nat) (v : Strand → W64) => WritesS i k g [a, b] d l v
    ok (.mul k g d a b) 3 (fun t => BitVec.ofNat 64 ((x t).toNat * (y t).toNat)) ∧
    ok (.mulhS k g d a b) 3 (fun t => BitVec.ofInt 64 ((x t).toInt * (y t).toInt / 2 ^ 64)) ∧
    ok (.mulhZ k g d a b) 3 (fun t => BitVec.ofNat 64 ((x t).toNat * (y t).toNat / 2 ^ 64)) ∧
    ok (.divS k g d a b) 18 (fun t => if y t = 0#64 then 0xFFFFFFFFFFFFFFFF#64 else if ovf t then x t
      else BitVec.ofInt 64 ((x t).toInt.tdiv (y t).toInt)) ∧
    ok (.divZ k g d a b) 18 (fun t => if y t = 0#64 then 0xFFFFFFFFFFFFFFFF#64
      else BitVec.ofNat 64 ((x t).toNat / (y t).toNat)) ∧
    ok (.remS k g d a b) 18 (fun t => if y t = 0#64 then x t else if ovf t then 0#64
      else BitVec.ofInt 64 ((x t).toInt - (y t).toInt * (x t).toInt.tdiv (y t).toInt)) ∧
    ok (.remZ k g d a b) 18 (fun t => if y t = 0#64 then x t else BitVec.ofNat 64 ((x t).toNat % (y t).toNat)) ∧
    ∀ f : BitVec 4, 7 ≤ f.toNat → decodeSlot 1 (0x02#6 ++ k ++ g ++ d ++ a ++ b ++ f) = none) ∧
  (∀ (k : BitVec 3) (g : BitVec 1) (d a : BitVec 6),
    let x := fun (t : Strand) => t.rs a.toNat
    let ok := fun (i : Instr) (v : Strand → W64) => WritesS i k g [a] d 1 v
    let isClz := fun (t : Strand) (n : Nat) => n ≤ 64 ∧ (x t).toNat < 2 ^ (64 - n) ∧ (n = 64 ∨ 2 ^ (63 - n) ≤ (x t).toNat)
    let isCtz := fun (t : Strand) (n : Nat) => n ≤ 64 ∧ 2 ^ n ∣ (x t).toNat ∧ (n = 64 ∨ (x t).getLsbD n = true)
    (∃ f : Strand → Nat, (∀ t, isClz t (f t)) ∧ ok (.clz k g d a) (fun t => BitVec.ofNat 64 (f t))) ∧
    (∃ f : Strand → Nat, (∀ t, isCtz t (f t)) ∧ ok (.ctz k g d a) (fun t => BitVec.ofNat 64 (f t))) ∧
    ok (.popc k g d a) (fun t => BitVec.ofNat 64 ((List.range 64).countP (fun j => (x t).getLsbD j))) ∧
    ok (.sextB k g d a) (fun t => ((x t).setWidth 8).signExtend 64) ∧
    ok (.sextH k g d a) (fun t => ((x t).setWidth 16).signExtend 64) ∧
    ok (.sextW k g d a) (fun t => ((x t).setWidth 32).signExtend 64) ∧
    ok (.zextB k g d a) (fun t => ((x t).setWidth 8).setWidth 64) ∧
    ok (.zextH k g d a) (fun t => ((x t).setWidth 16).setWidth 64) ∧
    ok (.zextW k g d a) (fun t => ((x t).setWidth 32).setWidth 64) ∧
    ∀ (b : BitVec 6) (f : BitVec 4), 9 ≤ f.toNat ∨ b ≠ 0#6 → decodeSlot 1 (0x03#6 ++ k ++ g ++ d ++ a ++ b ++ f) = none)

/-- Compares into a predicate, select and predicate logic (04 R101-R103): `cmp` and `cmpi` under the ten condition codes,
`sel`, `pand`, `por`, `pxor`, `pnot`, `pmov`; the codes and fields that the rules call illegal are. -/
def Obligations.CompareAndPredicates : Prop := ∀ (k : BitVec 3) (g : BitVec 1) (d a b : BitVec 6) (p q r : BitVec 3)
    (c : BitVec 4) (i : BitVec 9),
  let rel := fun (c : Nat) (x y : W64) =>
    [decide (x = y), decide (x ≠ y), decide (x.toInt < y.toInt), decide (x.toInt ≤ y.toInt), decide (x.toInt > y.toInt),
     decide (x.toInt ≥ y.toInt), decide (x.toNat < y.toNat), decide (x.toNat ≤ y.toNat), decide (x.toNat > y.toNat),
     decide (x.toNat ≥ y.toNat)].getD c false
  (c.toNat < 10 → WritesP (.cmp k g p a b c) k g [.s a.toNat, .s b.toNat] p
    (fun t => rel c.toNat (t.rs a.toNat) (t.rs b.toNat))) ∧
  (c.toNat < 10 → WritesP (.cmpi k g c p a i) k g [.s a.toNat] p
    (fun t => rel c.toNat (t.rs a.toNat) (i.signExtend 64))) ∧
  WritesS (.sel k g d a b q) k g [a, b] d 1 (fun t => if t.rp q.toNat then t.rs a.toNat else t.rs b.toNat) ∧
  WritesP (.pand k g p q r) k g [.p q.toNat, .p r.toNat] p (fun t => t.rp q.toNat && t.rp r.toNat) ∧
  WritesP (.por k g p q r) k g [.p q.toNat, .p r.toNat] p (fun t => t.rp q.toNat || t.rp r.toNat) ∧
  WritesP (.pxor k g p q r) k g [.p q.toNat, .p r.toNat] p (fun t => t.rp q.toNat != t.rp r.toNat) ∧
  WritesP (.pnot k g p q) k g [.p q.toNat] p (fun t => !t.rp q.toNat) ∧
  WritesP (.pmov k g p q) k g [.p q.toNat] p (fun t => t.rp q.toNat) ∧
  (∀ z : BitVec 3, 10 ≤ c.toNat ∨ z ≠ 0#3 → decodeSlot 1 (0x04#6 ++ k ++ g ++ z ++ p ++ a ++ b ++ c) = none) ∧
  (10 ≤ c.toNat → decodeSlot 1 (0x05#6 ++ k ++ g ++ c ++ p ++ a ++ i) = none) ∧
  decodeSlot 1 (0x06#6 ++ k ++ g ++ d ++ a ++ b ++ q ++ 1#1) = none ∧
  ∀ (x y z : BitVec 3) (f : BitVec 4), 5 ≤ f.toNat ∨ x ≠ 0#3 ∨ y ≠ 0#3 ∨ z ≠ 0#3 ∨ 3 ≤ f.toNat ∧ r ≠ 0#3 →
    decodeSlot 1 (0x07#6 ++ k ++ g ++ x ++ p ++ y ++ q ++ z ++ r ++ f) = none

/-- Scalar FP32 (04 R104, R105): `fadd`, `fsub`, `fmul` with latency 3 and `fma`, one rounding and its destination as the
addend, with latency 5; each takes one LFSR state of lane 0 under RSTO. The result is the exact one rounded once to FP32
under EFR.RM, zero-extended.
FP32 compares and conversions (04 R106, R107): `fcmp` with a NaN makes `ne` and `un` alone true; the conversions to
integers and to and from FP16 and BF16, of which `h2f` and `b2f` are exact and take no LFSR state. -/
def Obligations.ScalarFloating : Prop :=
  (∀ (k : BitVec 3) (g : BitVec 1) (d a b : BitVec 6),
    let f := fun (t : Strand) (r : BitVec 6) => Fmt.fp32.decode ((t.rs r.toNat).toNat % 2 ^ 32)
    let rnd := fun (t : Strand) (x : Machine.Num) =>
      BitVec.ofNat 64 (roundFloat .fp32 t.rmode t.e4s ((t.seed 0).toNat / 2 ^ (32 - Fmt.fp32.kbits)) x)
    RoundsS (.fadd k g d a b) k g [a, b] d 3 (fun t => rnd t (Machine.Num.add (t.rmode == .rdn) (f t a) (f t b))) ∧
    RoundsS (.fsub k g d a b) k g [a, b] d 3 (fun t => rnd t (Machine.Num.sub (t.rmode == .rdn) (f t a) (f t b))) ∧
    RoundsS (.fmul k g d a b) k g [a, b] d 3 (fun t => rnd t (Machine.Num.mul (f t a) (f t b))) ∧
    RoundsS (.fma k g d a b) k g [a, b, d] d 5
      (fun t => rnd t (Machine.Num.add (t.rmode == .rdn) (Machine.Num.mul (f t a) (f t b)) (f t d)))) ∧
  (∀ (k : BitVec 3) (g : BitVec 1) (d a b : BitVec 6) (p : BitVec 3)
      (c : BitVec 4),
    let f := fun (t : Strand) (r : BitVec 6) => Fmt.fp32.decode ((t.rs r.toNat).toNat % 2 ^ 32)
    let lfsr := fun (t : Strand) (n : Nat) => (t.seed 0).toNat / 2 ^ (32 - n)
    let rnd := fun (t : Strand) (m : Fmt) (x : Machine.Num) => BitVec.ofNat 64 (roundFloat m t.rmode t.e4s (lfsr t m.kbits) x)
    let rel := fun (c : Nat) (x y : Machine.Num) => if x.isNan || y.isNan then c == 1 || c == 6 else
      [x.eqv y, !x.eqv y, x.lt y, x.lt y || x.eqv y, y.lt x, y.lt x || x.eqv y, false].getD c false
    (c.toNat < 7 → WritesP (.fcmp k g p a b c) k g [.s a.toNat, .s b.toNat] p (fun t => rel c.toNat (f t a) (f t b))) ∧
    RoundsS (.fcvtF2iS k g d a) k g [a] d 3 (fun t => BitVec.ofInt 64 (roundInt 64 true t.rmode (lfsr t 16) (f t a))) ∧
    RoundsS (.fcvtF2iZ k g d a) k g [a] d 3 (fun t => BitVec.ofInt 64 (roundInt 64 false t.rmode (lfsr t 16) (f t a))) ∧
    RoundsS (.fcvtI2fS k g d a) k g [a] d 3 (fun t => rnd t .fp32 (Machine.Num.ofInt (t.rs a.toNat).toInt)) ∧
    RoundsS (.fcvtI2fZ k g d a) k g [a] d 3 (fun t => rnd t .fp32 (Machine.Num.ofInt (t.rs a.toNat).toNat)) ∧
    RoundsS (.fcvtF2h k g d a) k g [a] d 3 (fun t => rnd t .fp16 (f t a)) ∧
    RoundsS (.fcvtF2b k g d a) k g [a] d 3 (fun t => rnd t .bf16 (f t a)) ∧
    WritesS (.fcvtH2f k g d a) k g [a] d 3
      (fun t => BitVec.ofNat 64 (rne32 (Fmt.fp16.decode ((t.rs a.toNat).toNat % 2 ^ 16)))) ∧
    WritesS (.fcvtB2f k g d a) k g [a] d 3
      (fun t => BitVec.ofNat 64 (rne32 (Fmt.bf16.decode ((t.rs a.toNat).toNat % 2 ^ 16)))))

/-- Single elements between the URS and scalar registers (04 R108, R109): an element of width 1, 2, 4 or 8 inside the entry
that the name resolves to is read zero-extended, dead bytes as zero, or written at completion; `s.get` reaches the first
1024 bytes. A name that resolves to nothing raises 0x04 and an index that is too large 0x05. -/
def Obligations.ElementMoves : Prop := ∀ (k : BitVec 3) (g : BitVec 1) (d n b : BitVec 6) (p w : BitVec 2) (s : State),
  s.me.guard k g = true →
  let t := s.me
  let e := 2 ^ w.toNat
  let x := (t.rs b.toNat).toNat * e
  let raises := fun (i : Instr) (f : Flt) => exec i s = .next (s.raise s.cur.g 1 f)
  match resolve t n.toNat with
  | none =>
    (Ready s 1 [.s b.toNat] [.s d.toNat] 0 → raises (.sGet k g d n b p w) ⟨0x04, n.toNat, t.ctx.pc⟩) ∧
    (Ready s 1 [.s d.toNat, .s b.toNat] [] 0 → raises (.sPut k g d n b w) ⟨0x04, n.toNat, t.ctx.pc⟩)
  | some r =>
    (if x + e ≤ min r.pitch 1024 then
      Ready s 1 [.s b.toNat, .urs (r.addr + x) e] [.s d.toNat] 0 →
        ∃ u, exec (.sGet k g d n b p w) s = .next u ∧
          Commits s u 1 [.s b.toNat, .urs (r.addr + x) e]
            [(1, .sreg d.toNat (BitVec.ofNat 64 (leNat (t.ursRead (r.addr + x) e))))] (fun c => c) (fun t => t)
    else Ready s 1 [.s b.toNat] [.s d.toNat] 0 → raises (.sGet k g d n b p w) ⟨0x05, 0, t.ctx.pc⟩) ∧
    (if x + e ≤ r.pitch then
      Ready s 1 [.s d.toNat, .s b.toNat] [.urs (r.addr + x) e] 0 →
        ∃ u, exec (.sPut k g d n b w) s = .next u ∧
          Commits s u 1 [.s d.toNat, .s b.toNat]
            [(1, .urs (r.addr + x) ((leBytes e (t.rs d.toNat).toNat).map (fun z => some (0xFF#8, z))))]
            (fun c => c) (fun t => t)
    else Ready s 1 [.s d.toNat, .s b.toNat] [] 0 → raises (.sPut k g d n b w) ⟨0x05, 0, t.ctx.pc⟩)

-- The A slots (04 R110-R115).

/-- The register operations of the A slots (04 R110, R111, R114): `amov`, `aset`, `aget`, `aadd`, `aaddi`, `mset`, which
writes one field of a descriptor, and `acmp`, all of whose codes are unsigned.
The modifier update by `astep` (04 R112, R113): linear, modulo a window, and in bit-reversed order; a descriptor of
mode 3, or of mode 2 whose length or step is no power of two or whose step is above its length, raises 0x05. -/
def Obligations.AddressUnits : Prop :=
  (∀ (d a b : BitVec 5) (r : BitVec 6) (i : BitVec 16) (m : BitVec 4) (f : BitVec 2)
      (c p : BitVec 3),
    let rel := fun (c x y : Nat) =>
      [decide (x = y), decide (x ≠ y), decide (x < y), decide (x ≤ y), decide (x > y), decide (x ≥ y)].getD c false
    WritesA (.amov d a) [.a a.toNat] (.a d.toNat) (fun t => .areg d.toNat (t.ra a.toNat)) ∧
    WritesA (.aset d r) [.s r.toNat] (.a d.toNat) (fun t => .areg d.toNat (t.rs r.toNat)) ∧
    WritesA (.aget r a) [.a a.toNat] (.s r.toNat) (fun t => .sreg r.toNat (t.ra a.toNat)) ∧
    WritesA (.aadd d a b) [.a a.toNat, .a b.toNat] (.a d.toNat)
      (fun t => .areg d.toNat (BitVec.ofNat 64 ((t.ra a.toNat).toNat + (t.ra b.toNat).toNat))) ∧
    WritesA (.aaddi d a i) [.a a.toNat] (.a d.toNat) (fun t => .areg d.toNat (t.ra a.toNat + i.signExtend 64)) ∧
    WritesA (.mset m f r) [.s r.toNat] (.m m.toNat f.toNat) (fun t => .mfld m.toNat f.toNat (t.rs r.toNat)) ∧
    (c.toNat < 6 → WritesA (.acmp c p a b) [.a a.toNat, .a b.toNat] (.p p.toNat)
      (fun t => .preg p.toNat (rel c.toNat (t.ra a.toNat).toNat (t.ra b.toNat).toNat))) ∧
    (6 ≤ c.toNat → decodeSlot 2 (0x08#6 ++ c ++ p ++ a ++ b ++ 0#10) = none)) ∧
  (∀ (d : BitVec 5) (m : BitVec 4) (slot : Nat) (s : State),
    slot = 2 ∨ slot = 3 → s.cur.slot = slot → Ready s slot [.a d.toNat] [.a d.toNat] 0 →
    let t := s.me
    let a : Int := (t.ra d.toNat).toNat
    let dsc := t.rm m.toNat
    let step := (dsc.extractLsb' 96 32).toInt
    let len := (dsc.extractLsb' 72 24).toNat
    let mode := (dsc.extractLsb' 64 2).toNat
    let base : Int := (dsc.extractLsb' 0 57).toNat
    let sets := fun (v : Int) => ∃ u, exec (.astep d m) s = .next u ∧
      Commits s u slot [.a d.toNat] [(1, .areg d.toNat (BitVec.ofInt 64 v))] (fun c => c) (fun t => t)
    let stops := exec (.astep d m) s = .next (s.raise s.cur.g slot ⟨0x05, 0, t.ctx.pc⟩)
    (mode = 0 ∨ mode = 1 ∧ len = 0 → sets (a + step)) ∧
    (mode = 1 ∧ len ≠ 0 → sets (base + (a - base + step) % len)) ∧
    (∀ x y : Nat, mode = 2 → len = 2 ^ x → step = 2 ^ y → y ≤ x →
      let b := x - y
      let i := ((a - base) % len / step).toNat
      sets (base + step * revBits b ((revBits b i + 1) % 2 ^ b))) ∧
    (mode = 2 ∧ ((∀ x : Nat, len ≠ 2 ^ x) ∨ (∀ y : Nat, step ≠ 2 ^ y) ∨ len < step) → stops) ∧
    (mode = 3 → stops))

-- The C slot (05 R116-R132, 08 R189-R195).

/-- Conditional branches (05 R121): a taken branch makes a redirect to its own address plus 32 times the signed
displacement, asks for a rotation when bit R is set, and annuls its delay bundles in the `br.z` form; one that is not
taken redirects nowhere and annuls them in the `br.a` form. The stall count holds in either case (03 R73). -/
def Obligations.Branches : Prop := ∀ (k : BitVec 3) (g r : BitVec 1) (d : BitVec 16) (sc : BitVec 4),
  let dest := fun (t : Strand) => (((t.ctx.pc : Int) + 32 * d.toInt) % 2 ^ 57).toNat
  let taken := fun (i : Instr) (annul : Bool) =>
    Writes i 0 (fun t => t.guard k g) [] [] 0 (fun _ => if r = 1#1 then [(1, .rotate)] else [])
      (fun t c => { c with sc := sc.toNat, redirect := some (dest t, r == 1#1), annul := annul }) (fun t => t)
  let passed := fun (i : Instr) (annul : Bool) =>
    Writes i 0 (fun t => !t.guard k g) [] [] 0 (fun _ => []) (fun _ c => { c with sc := sc.toNat, annul := annul })
      (fun t => t)
  taken (.br k g r d sc) false ∧ passed (.br k g r d sc) false ∧
  taken (.brA k g r d sc) false ∧ passed (.brA k g r d sc) true ∧
  taken (.brZ k g r d sc) true ∧ passed (.brZ k g r d sc) false

/-- Jumps (05 R122): `jmp` and `call` go to their own address plus 32 times the signed 18-bit displacement, `call` writes
the address three bundles on to `a31`, `ret` goes to the address in `a31` and `jr` to that in `a[A]`; a register value that
is no bundle address raises 0x05. -/
def Obligations.Jumps : Prop := ∀ (k : BitVec 3) (g : BitVec 1) (d : BitVec 18) (a : BitVec 5) (sc : BitVec 4),
  let dest := fun (t : Strand) => (((t.ctx.pc : Int) + 32 * d.toInt) % 2 ^ 57).toNat
  let goes := fun (n : Nat) (c : COut) => ({ c with sc := sc.toNat, redirect := some (n, false) } : COut)
  let byReg := fun (i : Instr) (n : Nat) => ∀ s, s.me.guard k g = true → Ready s 0 [.a n] [] 0 →
    if (s.me.ra n).toNat % 32 = 0 ∧ (s.me.ra n).toNat < 2 ^ 57 then
      ∃ t, exec i s = .next t ∧ Commits s t 0 [.a n] [] (goes (s.me.ra n).toNat) (fun t => t)
    else exec i s = .next (s.raise s.cur.g 0 ⟨0x05, 0, s.me.ctx.pc⟩)
  Writes (.jmp k g d sc) 0 (fun t => t.guard k g) [] [] 0 (fun _ => []) (fun t => goes (dest t)) (fun t => t) ∧
  Writes (.call k g d sc) 0 (fun t => t.guard k g) [] [.a 31] 0
    (fun t => [(1, .areg 31 (BitVec.ofNat 64 (t.ctx.pc + 96)))]) (fun t => goes (dest t)) (fun t => t) ∧
  byReg (.ret k g sc) 31 ∧ byReg (.jr k g a sc) a.toNat

/-- C operations whose effect follows the completion of their bundle (05 R123-R128, R132): `nop`, `rot`, `done`, `trap` with
cause 0x08, `sys` with cause 0x09, `brk` with cause 0x0A unless breakpoint stops are armed, `rfe` in a handler, `segend` and
`yield` commit with that outcome. Outside a handler `rfe` raises 0x05, and an armed `brk` stops the strand after slot 0. -/
def Obligations.BundleOutcomes : Prop := ∀ (k : BitVec 3) (g : BitVec 1) (c : BitVec 8) (v : BitVec 16) (n : BitVec 18)
    (sc : BitVec 4),
  let ok := fun (i : Instr) (lands : List (Nat × Eff)) (a : COut → COut) =>
    Writes i 0 (fun t => t.guard k g) [] [] 0 (fun _ => lands) (fun _ o => a { o with sc := sc.toNat }) (fun t => t)
  Writes (.nop sc) 0 (fun _ => true) [] [] 0 (fun _ => []) (fun _ o => { o with sc := sc.toNat }) (fun t => t) ∧
  ok (.rot k g sc) [(1, .rotate)] (fun o => o) ∧
  ok (.doneTask k g sc) [] (fun o => { o with after := .done }) ∧
  ok (.trap k g c sc) [] (fun o => { o with after := .trap 0x08 c.toNat }) ∧
  ok (.sys k g v sc) [] (fun o => { o with after := .trap 0x09 v.toNat }) ∧
  ok (.segend k g n sc) [] (fun o => { o with after := .segend n.toNat }) ∧
  ok (.yield k g sc) [] (fun o => { o with after := .yield }) ∧
  (∀ s, s.me.guard k g = true → Ready s 0 [] [] 0 →
    if s.me.hmode then ∃ t, exec (.rfe k g sc) s = .next t ∧
      Commits s t 0 [] [] (fun o => { o with sc := sc.toNat, after := .rfe }) (fun t => t)
    else exec (.rfe k g sc) s = .next (s.raise s.cur.g 0 ⟨0x05, 0, s.me.ctx.pc⟩)) ∧
  (∀ s, s.me.guard k g = true → Ready s 0 [] [] 0 →
    if (s.reg 0 0x60000).testBit 8 then
      ∃ t, exec (.brk k g c sc) s = .next t ∧ (t.strand s.cur.g).run = .stopped ∧
        (t.strand s.cur.g).ctx.done = s.me.ctx.done ||| 1 ∧ (t.strand s.cur.g).ctx.cout.after = s.me.ctx.cout.after ∧
        (s.frz = 0 → t.frz = 1)
    else ∃ t, exec (.brk k g c sc) s = .next t ∧
      Commits s t 0 [] [] (fun o => { o with sc := sc.toNat, after := .trap 0x0A c.toNat }) (fun t => t))

/-- System registers (05 R129, R130, 01 R30-R35): `mfsr` reads the register with latency 1 and, of TCR and TAR, marks them
seen; `mtsr` writes it at completion, EFR three bundles later, and a reserved rounding mode raises 0x05. An access to a factor
register (FSR, GFR, PVR0-PVR7) waits (12 R260): while a matrix command of the strand is in the array the strand blocks, then
while a result of the strand is to land it holds position, and in neither is the slot committed. What `mfsr` reads: SCR with CSB and the
core's FXD, EFR as in effect, MLP, SVR, CYC with the issue cycle counted, SEV, FSR, GFR, the pivots, TCR, TAR, TSL, TCR2, TAR2 and the view
descriptors. That the wait in a handler is for the handler's own results alone is the model's choice (DESIGN CHOICE, log 74). -/
def Obligations.SystemRegisters : Prop := ∀ (k : BitVec 3) (g : BitVec 1) (d : BitVec 6) (r : BitVec 8) (sc : BitVec 4)
    (s : State), s.me.guard k g = true →
  let factor := 6 ≤ r.toNat ∧ r.toNat ≤ 15
  let clear := factor → s.inArray s.cur.g = false ∧ s.me.resultDue = false
  let waits := fun (i : Instr) =>
    (s.inArray s.cur.g = true → exec i s = .next (s.leave s.cur.g .blocked .factor) ∧
      (s.leave s.cur.g .blocked .factor).me.ctx = s.me.ctx) ∧
    (s.inArray s.cur.g = false → s.me.resultDue = true → exec i s = .next (barred .hold s) ∧
      (barred .hold s).me.ctx.done = s.me.ctx.done)
  let seen := if r.toNat = 0x10 then 1 else if r.toNat = 0x11 then 2 else 0
  let v := s.me.rs d.toNat
  let dst := if r.toNat = 1 then Dst.efr else .sr r.toNat
  let x := s.me
  let reads := fun (w : BitVec 64) =>
    (r = 0x00 → w = BitVec.ofNat 64 (x.scr.toNat % 2 + if s.fxd (coreOf s.cur.g) = true then 256 else 0)) ∧ (r = 0x01 → w = x.efr) ∧
    (r = 0x02 → w = x.mlp) ∧ (r = 0x03 → w = x.svr) ∧ (r = 0x04 → w = x.cyc + 1) ∧ (r = 0x05 → w = x.sev) ∧ (r = 0x06 → w = x.fsr) ∧
    (r = 0x07 → w = x.gfr) ∧ (∀ n < 8, r.toNat = 8 + n → w = SMap.get 0 x.pvr n) ∧ (r = 0x10 → w = x.tcr) ∧ (r = 0x11 → w = x.tar) ∧
    (r = 0x12 → w = x.tsl) ∧ (r = 0x13 → w = x.tcr2) ∧ (r = 0x14 → w = x.tar2) ∧
    (∀ n < 8, r.toNat = 0x18 + n → w = SMap.get 0 x.vd n)
  (Ready s 0 [.sr r.toNat] [.s d.toNat] 0 → (factor → waits (.mfsr k g d r sc)) ∧
    (clear → ∃ t w, reads w ∧ exec (.mfsr k g d r sc) s = .next t ∧
      Commits s t 0 [.sr r.toNat] [(1, .sreg d.toNat w)]
        (fun o => { o with sc := sc.toNat, seen := o.seen ||| seen }) (fun t => t))) ∧
  (Ready s 0 [.s d.toNat] [dst] 0 → (factor → waits (.mtsr k g d r sc)) ∧
    (clear →
      if r.toNat = 1 ∧ 5 ≤ v.toNat % 8 then exec (.mtsr k g d r sc) s = .next (s.raise s.cur.g 0 ⟨0x05, 0, s.me.ctx.pc⟩)
      else ∃ t, exec (.mtsr k g d r sc) s = .next t ∧
        Commits s t 0 [.s d.toNat] [(1, if r.toNat = 1 then .efr v else .sys r.toNat v)]
          (fun o => { o with sc := sc.toNat }) (fun t => t)))

/-- Fences, drains and `isync` (08 R189-R195, 05 R131, 17 R344, R364), once nothing they wait for is left: for a release no
outstanding store or atomic that the scope orders, of the strand or of its core's other strands as it has seen them, for an
acquire no such atomic, at system scope no load whose request to a peer is unsent, at row scope for a release no whole-row
operation. That a fence holds its slot until then, and that the loads before it take their values when it commits, is the
model's choice (DESIGN CHOICE, log 19). The slot commits, no register of the strand changes but the
step view, which an acquire of package scope or wider, or of row scope, sets to GSTEP; every earlier load that the scope orders
then has its value at cluster scope and wider; and of the lines of the strand's partition (14 R309) the core's data cache writes back
what the scope says: every line at core scope (releases) and wider, the lines that the strand has stored to at strand scope, with
every line dropped by an acquire of cluster scope or wider. `drain` and `isync` write back the lines that the strand has stored to.
Lines of other partitions stay as they are. That `isync` waits in a handler for the handler's own delayed copies alone is the model's
choice (DESIGN CHOICE, log 74). -/
def Obligations.FencesAndDrains : Prop := ∀ (k : BitVec 3) (g : BitVec 1) (o : BitVec 2) (e : BitVec 3) (sc : BitVec 4)
    (s : State), s.me.guard k g = true → Ready s 0 [] [] 0 → e.toNat < 7 →
  let c := coreOf s.cur.g
  let acq := o ≠ 1#2
  let rel := o ≠ 0#2
  let kept := fun (t : State) => t.me.ctx = ctxAfter s 0 [] [] (fun x => { x with sc := sc.toNat }) ∧
    (∀ g, g ≠ s.cur.g → t.strand g = s.strand g) ∧
    ({ t.me with ctx := s.me.ctx, pends := s.me.pends, svr := s.me.svr, ahead := s.me.ahead } : Strand) = s.me
  let cleaned := fun (t : State) (p : DLine → Bool) =>
    (t.core c).dc = (s.core c).dc.map (fun l => if p l then { l with dirty := 0, wrote := 0 } else l) ∧
    t.mem = (((s.core c).dc.filter p).foldl State.wbLine s).mem
  let idle := if e.toNat = 6 then rel → s.rowBusy s.cur.g = false
    else ∀ x ∈ s.seenOuts s.cur.g, x.openAt e.toNat = true → ¬ rel ∧ x.op.atom = none
  let sent := e.toNat = 5 → ∀ p ∈ s.me.pends, p.err = none → p.pcs ≠ [] → s.ready p.id = true
  (idle → sent →
    ∃ t, exec (.fence k g o e sc) s = .next t ∧ kept t ∧ t.me.ahead = s.me.ahead ∧
      t.me.svr = (if acq ∧ 4 ≤ e.toNat then BitVec.ofNat 64 s.gstep else s.me.svr) ∧
      (e.toNat ≠ 6 → 2 ≤ e.toNat → (∀ p ∈ t.me.pends, scopeHas e.toNat p.pcs = true → p.pcs ≠ [] → p.val ≠ none) ∧
        (∀ l ∈ (t.core c).dc, l.isOf s.me = true → ¬ acq ∧ l.dirty = 0) ∧
        (s.me.pends = [] → t.mem = (((s.core c).dc.filter (fun l => l.isOf s.me)).foldl State.wbLine s).mem ∧
          (t.core c).dc.filter (fun l => !l.isOf s.me) = (s.core c).dc.filter (fun l => !l.isOf s.me))) ∧
      (e.toNat = 1 → rel → cleaned t (fun l => l.isOf s.me)) ∧ (e.toNat = 0 → rel → cleaned t (fun l => l.wroteBy s.me s.cur.g)) ∧
      (e.toNat < 2 → ¬ rel → (t.core c).dc = (s.core c).dc ∧ t.mem = s.mem)) ∧
  ((2 ≤ e.toNat → if e.toNat = 6 then s.rowBusy s.cur.g = false else ∀ x ∈ s.me.outs, x.openAt e.toNat = false) →
    ∃ t, exec (.drain k g e sc) s = .next t ∧ kept t ∧ t.me.svr = s.me.svr ∧ t.me.ahead = s.me.ahead ∧
      (e.toNat ≠ 6 → 2 ≤ e.toNat → cleaned t (fun l => l.wroteBy s.me s.cur.g)) ∧
      (e.toNat < 2 → (t.core c).dc = (s.core c).dc ∧ t.mem = s.mem)) ∧
  (s.me.outs = [] → (s.core c).copies.any (fun x => x.strand == s.cur.g) = false → s.me.waiting Cmd.isCopy = false →
    ∃ t, exec (.isync k g sc) s = .next t ∧ kept t ∧ t.me.svr = s.me.svr ∧ t.me.ahead = [] ∧
      cleaned t (fun l => l.wroteBy s.me s.cur.g))

-- The V slot (07 R147-R168, 17 R358-R360).

/-- Lane-wise FP32 operations (07 R153, R154): sums, differences and products rounded once under EFR.RM, the fused
multiply-add with the destination as addend, minimum and maximum with −0 below +0 and a NaN canonical, magnitude and
negation.
Reciprocal, reciprocal root, power of two and logarithm, lane by lane, rounded once, with latency 12, and the special cases of
their table, whatever the rounding mode (07 R155). That the model's functions `rsqVal`, `exp2Val` and `log2Val` round as the
exact functions do is DEDUCED (log 52). -/
def Obligations.VectorFloating : Prop :=
  (∀ (k : BitVec 3) (g : BitVec 1) (d a b : BitVec 6) (x y : BitVec 2),
    let f := fun (l : List Nat) (j : Nat) => Fmt.fp32.decode (l.getD j 0)
    let nan := fun (l : List Nat) (j : Nat) => (f l j).isNan
    let lfsr := fun (t : Strand) (i : Nat) => if t.rmode = .rsto then (t.seed i).toNat / 2 ^ 16 else 0
    let rnd := fun (t : Strand) (i : Nat) (v : Machine.Num) => roundFloat .fp32 t.rmode t.e4s (lfsr t i) v
    let first := fun (l : List Nat) => (f l 0).lt (f l 1) || ((f l 0).eqv (f l 1) && (f l 0).sign)
    WritesV (.vaddF k g d a x b y) k g d [a, b] 3 true (fun t i l => rnd t i (Machine.Num.add (t.rmode == .rdn) (f l 0) (f l 1))) ∧
    WritesV (.vsubF k g d a x b y) k g d [a, b] 3 true (fun t i l => rnd t i (Machine.Num.sub (t.rmode == .rdn) (f l 0) (f l 1))) ∧
    WritesV (.vmulF k g d a x b y) k g d [a, b] 5 true (fun t i l => rnd t i (Machine.Num.mul (f l 0) (f l 1))) ∧
    WritesV (.vfmaF k g d a x b y) k g d [a, b, d] 5 true
      (fun t i l => rnd t i (Machine.Num.add (t.rmode == .rdn) (Machine.Num.mul (f l 0) (f l 1)) (f l 2))) ∧
    WritesV (.vminF k g d a x b y) k g d [a, b] 3 false (fun _ _ l =>
      if nan l 0 || nan l 1 then 0x7FC00000 else if first l then l.getD 0 0 else l.getD 1 0) ∧
    WritesV (.vmaxF k g d a x b y) k g d [a, b] 3 false (fun _ _ l =>
      if nan l 0 || nan l 1 then 0x7FC00000 else if first l then l.getD 1 0 else l.getD 0 0) ∧
    WritesV (.vabsF k g d a x) k g d [a] 3 false (fun _ _ l => if nan l 0 then 0x7FC00000 else l.getD 0 0 % 2 ^ 31) ∧
    WritesV (.vnegF k g d a x) k g d [a] 3 false (fun _ _ l =>
      if nan l 0 then 0x7FC00000 else (l.getD 0 0 + 2 ^ 31) % 2 ^ 32)) ∧
  (∀ (k : BitVec 3) (g : BitVec 1) (d a : BitVec 6) (x : BitVec 2),
    let f := fun (l : List Nat) => Fmt.fp32.decode (l.getD 0 0)
    let lfsr := fun (t : Strand) (i : Nat) => if t.rmode = .rsto then (t.seed i).toNat / 2 ^ 16 else 0
    let ok := fun (i : Instr) (h : Machine.Num → Machine.Num) =>
      WritesV i k g d [a] 12 true (fun t n l => roundFloat .fp32 t.rmode t.e4s (lfsr t n) (h (f l)))
    ok (.vrcp k g d a x) (fun v => Machine.Num.div (.fin false 1 0) v) ∧ ok (.vrsq k g d a x) rsqVal ∧
    ok (.vexp2 k g d a x) exp2Val ∧ ok (.vlog2 k g d a x) log2Val) ∧
  (∀ (rm : Rm) (e4s : Bool) (l : Nat),
    let val := fun (h : Machine.Num → Machine.Num) (n : Nat) => roundFloat .fp32 rm e4s l (h (Fmt.fp32.decode n))
    let rcp := fun (v : Machine.Num) => Machine.Num.div (.fin false 1 0) v
    let ends := [0x00000000, 0x80000000, 0x7F800000, 0xFF800000]
    ends.map (val rcp) = [0x7F800000, 0xFF800000, 0x00000000, 0x80000000] ∧
    ends.map (val rsqVal) = [0x7F800000, 0xFF800000, 0x00000000, 0x7FC00000] ∧
    ends.map (val exp2Val) = [0x3F800000, 0x3F800000, 0x7F800000, 0x00000000] ∧
    ends.map (val log2Val) = [0xFF800000, 0xFF800000, 0x7F800000, 0x7FC00000] ∧
    (∀ n, 0x80000000 < n → n < 0xFF800000 → val rsqVal n = 0x7FC00000 ∧ val log2Val n = 0x7FC00000) ∧
    (∀ n, n < 2 ^ 32 → 0x7F800000 < n % 2 ^ 31 → val rcp n = 0x7FC00000 ∧ val rsqVal n = 0x7FC00000 ∧
      val exp2Val n = 0x7FC00000 ∧ val log2Val n = 0x7FC00000))

/-- Lane-wise integer operations modulo 2^32 (07 R156): sums, differences, products, signed minimum and maximum, bitwise
logic, and shifts by the low five bits of B. -/
def Obligations.VectorInteger : Prop := ∀ (k : BitVec 3) (g : BitVec 1) (d a b : BitVec 6) (x y : BitVec 2),
  let w := fun (l : List Nat) (j : Nat) => BitVec.ofNat 32 (l.getD j 0)
  let n := fun (l : List Nat) => l.getD 1 0 % 32
  let ok := fun (i : Instr) (c : Nat) (h : List Nat → BitVec 32) => WritesV i k g d [a, b] c false (fun _ _ l => (h l).toNat)
  ok (.vaddI k g d a x b y) 3 (fun l => w l 0 + w l 1) ∧
  ok (.vsubI k g d a x b y) 3 (fun l => w l 0 - w l 1) ∧
  ok (.vmulI k g d a x b y) 5 (fun l => w l 0 * w l 1) ∧
  ok (.vminI k g d a x b y) 3 (fun l => if (w l 0).toInt ≤ (w l 1).toInt then w l 0 else w l 1) ∧
  ok (.vmaxI k g d a x b y) 3 (fun l => if (w l 0).toInt ≤ (w l 1).toInt then w l 1 else w l 0) ∧
  ok (.vand k g d a x b y) 3 (fun l => w l 0 &&& w l 1) ∧
  ok (.vor k g d a x b y) 3 (fun l => w l 0 ||| w l 1) ∧
  ok (.vxor k g d a x b y) 3 (fun l => w l 0 ^^^ w l 1) ∧
  ok (.vshl k g d a x b y) 3 (fun l => BitVec.ofNat 32 ((w l 0).toNat * 2 ^ n l)) ∧
  ok (.vshrS k g d a x b y) 3 (fun l => BitVec.ofInt 32 ((w l 0).toInt / 2 ^ n l)) ∧
  ok (.vshrZ k g d a x b y) 3 (fun l => BitVec.ofNat 32 ((w l 0).toNat / 2 ^ n l))

/-- Compares into a mask and selection by a mask (07 R157, R158), with latency 3: the active lanes of `q[Q]` take the
relation, floating or signed; `vsel` writes every lane, from A where the guard's mask is set and from B elsewhere. -/
def Obligations.VectorCompareSelect : Prop := ∀ (k : BitVec 3) (g : BitVec 1) (c q : BitVec 3) (d a b : BitVec 6)
    (x y : BitVec 2) (s : State) (ra rb : Res), s.me.guard k g = true → vecOperand s.me a.toNat = .ok ra →
  vecOperand s.me b.toNat = .ok rb →
  let t := s.me
  let act := t.rq k.toNat
  let va := fun (i : Nat) => (t.lanesAt ra.addr).getD i 0
  let vb := fun (i : Nat) => (t.lanesAt rb.addr).getD i 0
  let srcs : List Dst := [.q k.toNat, .urs ra.addr 1024, .urs rb.addr 1024]
  let relF := fun (u v : Machine.Num) => if u.isNan || v.isNan then c.toNat == 1 || c.toNat == 6 else
    [u.eqv v, !u.eqv v, u.lt v, u.lt v || u.eqv v, v.lt u, v.lt u || u.eqv v, false].getD c.toNat false
  let relI := fun (u v : BitVec 32) => [decide (u = v), decide (u ≠ v), decide (u.toInt < v.toInt),
    decide (u.toInt ≤ v.toInt), decide (u.toInt > v.toInt), decide (u.toInt ≥ v.toInt)].getD c.toNat false
  let sets := fun (i : Instr) (h : Nat → Bool) => ∃ u m, exec i s = .next u ∧
    Commits s u 5 srcs [(3, .qreg q.toNat act m)] (fun c => c) (fun t => t) ∧ ∀ i < 256, m.getLsbD i = h i
  (Ready s 5 srcs [.q q.toNat] 1 → c.toNat < 7 →
    sets (.vcmpF k g c q a x b y) (fun i => relF (Fmt.fp32.decode (va i)) (Fmt.fp32.decode (vb i)))) ∧
  (Ready s 5 srcs [.q q.toNat] 1 → c.toNat < 6 →
    sets (.vcmpI k g c q a x b y) (fun i => relI (BitVec.ofNat 32 (va i)) (BitVec.ofNat 32 (vb i)))) ∧
  (∀ rd, vecOperand t d.toNat = .ok rd → Ready s 5 srcs [.urs rd.addr 1024] 1 →
    ∃ (u : State) (ws : List (Option (Byte × Byte))), exec (.vsel k g d a x b y) s = .next u ∧
      Commits s u 5 srcs [(3, .urs rd.addr ws)] (fun c => c) (fun t => t) ∧
      LanesAre ws (BitVec.allOnes 256) (fun i => if act.getLsbD i then va i else vb i)) ∧
  (c = 7#3 → decodeSlot 5 (0x18#6 ++ k ++ g ++ c ++ q ++ a ++ x ++ b ++ y) = none) ∧
  (6 ≤ c.toNat → decodeSlot 5 (0x19#6 ++ k ++ g ++ c ++ q ++ a ++ x ++ b ++ y) = none)

/-- Lane moves and the lane seeds (07 R164, R168): `vmov` copies, `vperm` takes the lane of A that bits [7:0] of the lane of
B name, `vbcast` writes the low 32 bits of a scalar register, `vseed.get` reads the seeds, and `vseed.set` sets those of the
active lanes at completion.
Reductions (07 R163, 02 R64): `vsum` reduces the lanes of A and `vdot` the exact lane products of A and B by the fixed
pairwise tree, inactive lanes giving −0, to bytes 0-3 of D; under a view of an integer type they are sums modulo 2^32. -/
def Obligations.VectorMovesReductions : Prop :=
  (∀ (k : BitVec 3) (g : BitVec 1) (d a b r : BitVec 6) (x y : BitVec 2),
    WritesV (.vmov k g d a x) k g d [a] 3 false (fun _ _ l => l.getD 0 0) ∧
    WritesV (.vseedGet k g d) k g d [] 1 false (fun t i _ => (t.seed i).toNat) ∧
    (∀ (s : State) (rd : Res), s.me.guard k g = true → vecOperand s.me d.toNat = .ok rd →
      let act := s.me.rq k.toNat
      let out := fun (i : Instr) (srcs : List Dst) (v : Nat → Nat) => Ready s 5 srcs [.urs rd.addr 1024] 1 →
        ∃ (t : State) (ws : List (Option (Byte × Byte))), exec i s = .next t ∧ Commits s t 5 srcs [(3, .urs rd.addr ws)] (fun c => c) (fun t => t) ∧ LanesAre ws act v
      out (.vbcast k g d r) [.q k.toNat, .s r.toNat] (fun _ => (s.me.rs r.toNat).toNat % 2 ^ 32) ∧
      (∀ ra rb, vecOperand s.me a.toNat = .ok ra → vecOperand s.me b.toNat = .ok rb →
        out (.vperm k g d a x b y) [.q k.toNat, .urs ra.addr 1024, .urs rb.addr 1024]
          (fun i => (s.me.lanesAt ra.addr).getD ((s.me.lanesAt rb.addr).getD i 0 % 256) 0))) ∧
    (∀ (s : State) (ra : Res), s.me.guard k g = true → vecOperand s.me a.toNat = .ok ra →
      Ready s 5 [.q k.toNat, .urs ra.addr 1024] [.seeds] 0 →
      ∃ t l, exec (.vseedSet k g a x) s = .next t ∧
        Commits s t 5 [.q k.toNat, .urs ra.addr 1024] [(1, .seeds l)] (fun c => c) (fun t => t) ∧
        ∀ i v, (i, v) ∈ l ↔ i < 256 ∧ (s.me.rq k.toNat).getLsbD i = true ∧
          v = BitVec.ofNat 32 ((s.me.lanesAt ra.addr).getD i 0))) ∧
  (∀ (k : BitVec 3) (g : BitVec 1) (d a b : BitVec 6) (x y : BitVec 2) (s : State)
      (rd ra rb : Res), s.me.guard k g = true → vecOperand s.me d.toNat = .ok rd → vecOperand s.me a.toNat = .ok ra →
    vecOperand s.me b.toNat = .ok rb →
    let act := s.me.rq k.toNat
    let va := fun (i : Nat) => (s.me.lanesAt ra.addr).getD i 0
    let vb := fun (i : Nat) => (s.me.lanesAt rb.addr).getD i 0
    let f := fun (n : Nat) => Fmt.fp32.decode n
    let total := fun (v : Nat → Nat) => ((List.range 256).map (fun i => if act.getLsbD i then v i else 0)).sum % 2 ^ 32
    let tree := fun (v : Nat → Machine.Num) =>
      rne32 (treeSum ((List.range 256).map (fun i => if act.getLsbD i then v i else .fin true 0 0)))
    let isInt := fcType (vdFmt ra.d) = 5 ∨ fcType (vdFmt ra.d) = 6
    let out := fun (i : Instr) (srcs : List Dst) (v : Nat) => Ready s 5 srcs [.urs rd.addr 4] 1 →
      ∃ t, exec i s = .next t ∧ Commits s t 5 srcs
        [(12, .urs rd.addr ((leBytes 4 v).map (fun b => some (0xFF#8, b))))] (fun c => c) (fun t => t)
    out (.vsum k g d a x) [.q k.toNat, .urs ra.addr 1024] (if isInt then total va else tree (fun i => f (va i))) ∧
    out (.vdot k g d a x b y) [.q k.toNat, .urs ra.addr 1024, .urs rb.addr 1024]
      (if isInt then total (fun i => va i * vb i % 2 ^ 32) else tree (fun i => Machine.Num.mul (f (va i)) (f (vb i)))))

/-- Format conversion (07 R159, R160, R162), element by element under the guard's mask: `vcvt` between the dense formats of
two views, `vpack` into the blocks that the view of D names, from the lanes that they hold, `vunpack` out of the blocks that the
view of A names, an element of a malformed block giving +0, while the bytes of an inactive lane of D stay as they are; a view of
another kind of format raises 0x05. -/
def Obligations.VectorConversions : Prop := ∀ (k : BitVec 3) (g : BitVec 1) (d a : BitVec 6) (x : BitVec 2) (s : State)
    (rd ra : Res), s.me.guard k g = true → vecOperand s.me d.toNat = .ok rd → vecOperand s.me a.toNat = .ok ra →
  let t := s.me
  let act := t.rq k.toNat
  let fd := vdFmt rd.d
  let fa := vdFmt ra.d
  let wd := fcWidth fd
  let wa := fcWidth fa
  let stops := fun (i : Instr) => exec i s = .next (s.raise s.cur.g 5 ⟨0x05, 0, t.ctx.pc⟩)
  let lanesOf := fun (n : Nat) (u : Strand) => if u.rmode = .rsto then
    u.reserve ((List.range n).filterMap (fun i => if act.getLsbD i then some (i, 1) else none)) else u
  (fcDense fd = true → fcDense fa = true →
    let srcs : List Dst := [.q k.toNat, .urs ra.addr (32 * wa)]
    Ready s 5 srcs [.urs rd.addr (32 * wd)] 1 → ∃ (u : State) (ws : List (Option (Byte × Byte))), exec (.vcvt k g d a x) s = .next u ∧
      Commits s u 5 srcs [(5, .urs rd.addr ws)] (fun c => c) (lanesOf 256) ∧
      ws = elemBytes act wd ((List.range 256).map (fun i => if act.getLsbD i then denseCode t (fcType fd) i
        (denseVal t.efr.toNat (fcType fa) (elemAt (leNat (t.ursRead ra.addr (32 * wa))) wa i)) else 0))) ∧
  (fcBlock fd = true → fcStamped fd = false →
    let p := fcPer fd
    let nb := min ((256 + p - 1) / p) 16
    let srcs : List Dst := [.q k.toNat, .urs ra.addr (4 * min (nb * p) 256)]
    Ready s 5 srcs [.urs rd.addr (64 * nb)] 1 → ∃ (u : State) (bs : List Byte), exec (.vpack k g d a x) s = .next u ∧
      Commits s u 5 srcs [(12, .urs rd.addr (bs.map (fun b => some (0xFF#8, b))))] (fun c => c) (lanesOf (min (nb * p) 256)) ∧
      bs.length = 64 * nb ∧ ∀ j < nb, (bs.drop (64 * j)).take 64 = packBlock t act fd
        ((List.range (min p (256 - j * p))).map (fun i => (j * p + i, Fmt.fp32.decode ((t.lanesAt ra.addr).getD (j * p + i) 0))))) ∧
  (fcBlock fa = true →
    let p := fcPer fa
    let nb := min ((256 + p - 1) / p) 16
    let n := min (nb * p) 256
    let srcs : List Dst := [.q k.toNat, .urs ra.addr (64 * nb)]
    let blk := fun (i : Nat) => t.ursRead (ra.addr + 64 * (i / p)) 64
    Ready s 5 srcs [.urs rd.addr (4 * n)] 1 → ∃ (u : State) (ws : List (Option (Byte × Byte))), exec (.vunpack k g d a x) s = .next u ∧
      Commits s u 5 srcs [(5, .urs rd.addr ws)] (fun c => c) (lanesOf n) ∧ ws.length = 4 * n ∧
      ∀ i < n, ∀ j < 4, if act.getLsbD i then ws[4 * i + j]? = some (some (0xFF#8, BitVec.ofNat 8
        (roundFloat .fp32 t.rmode t.e4s (if t.rmode = .rsto then (t.seed i).toNat / 2 ^ 16 else 0)
          (if malformed p (blk i) then .fin false 0 0 else blockElem t.efr.toNat (blk i) (i % p)) / 256 ^ j)))
        else ∃ v, ws[4 * i + j]? = some (some (0#8, v))) ∧
  (fcDense fd = false → Ready s 5 [.q k.toNat] [] 0 → stops (.vcvt k g d a x)) ∧
  (fcDense fd = true → fcDense fa = false → Ready s 5 [.q k.toNat] [.urs rd.addr (32 * wd)] 0 → stops (.vcvt k g d a x)) ∧
  ((fcBlock fd = false ∨ fcStamped fd = true) → Ready s 5 [.q k.toNat] [] 0 → stops (.vpack k g d a x)) ∧
  (fcBlock fa = false → Ready s 5 [.q k.toNat] [] 0 → stops (.vunpack k g d a x))

/-- The load from a vault (07 R165, R166): 1024 bytes at `a[A]`, in the vault aperture, aligned to 64 and in a readable
region, become a pending destination for the active lanes of D, and the address register is post-modified (shown where no
earlier access of the strand to the bytes is still under way, and where no higher slot of the bundle writes over D). While an earlier
write of D has not landed it holds. Then an address outside the aperture raises 0x06, a misaligned one 0x07, and one with a byte outside
the readable regions aborts the task with cause 0x20. That the hold comes before the faults is DEDUCED (log 37), and that the address of a
0x20 is that of the first byte outside is the model's choice (DESIGN CHOICE, log 75). -/
def Obligations.VectorLoad : Prop := ∀ (k : BitVec 3) (g : BitVec 1) (d : BitVec 6) (a : BitVec 5) (p : BitVec 1)
    (m : BitVec 4) (s : State) (rd : Res) (pm : List (Nat × Eff)), s.me.guard k g = true →
  vecOperand s.me d.toNat = .ok rd → postMod s.me p a.toNat m.toNat = .ok pm → s.cur.cancel = [] →
  let ea := (s.me.ra a.toNat).toNat
  let srcs : List Dst := [.q k.toNat, .a a.toNat] ++
    (if p = 1#1 then [.m m.toNat 0, .m m.toNat 1, .m m.toNat 2, .m m.toNat 3] else [])
  let dsts : List Dst := .urs rd.addr 1024 :: (if p = 0#1 then [] else [.a a.toNat])
  Ready s 5 srcs dsts 0 →
  (∀ v o, 0x1FFFFFF00000000 ≤ ea → ea < 2 ^ 57 → vaultAt (cluOf s.cur.g) ea 1024 = some (v, o) → ea % 64 = 0 →
    undeclared s.me s.cur.g ea 1024 1 = none → destDue s.me [.urs rd.addr 1024] = false →
    s.me.clearOf [⟨ea, vaultKey v o, 1024, .own⟩] →
    ∃ t q, exec (.vld k g d a p m) s = .next t ∧ t.mem = s.mem ∧ t.me.ctx = ctxAfter s 5 srcs pm (fun c => c) ∧
      (∀ g, g ≠ s.cur.g → t.strand g = s.strand g) ∧ Adds s t q ∧
      q.dsts = [.urs rd.addr 1024] ∧ q.vld = true ∧ q.pcs.map (fun z => (z.key, z.len)) = [(vaultKey v o, 1024)] ∧
      (∃ ms, q.kind = .urs rd.addr ms ∧ ms.length = 1024 ∧ ∀ i < 256, ∀ j < 4,
        ms[4 * i + j]? = some (some (if (s.me.rq k.toNat).getLsbD i then 0xFF#8 else 0#8))) ∧
      ({ t.me with ctx := s.me.ctx, pends := s.me.pends } : Strand) = s.me) ∧
  (destDue s.me [.urs rd.addr 1024] = true → exec (.vld k g d a p m) s = .next (barred .hold s) ∧
    (barred .hold s).me.ctx.done = s.me.ctx.done) ∧
  ((ea < 0x1FFFFFF00000000 ∨ 2 ^ 57 ≤ ea ∨ vaultAt (cluOf s.cur.g) ea 1024 = none) →
    destDue s.me [.urs rd.addr 1024] = false → exec (.vld k g d a p m) s = .next (s.raise s.cur.g 5 ⟨0x06, 0, ea % 2 ^ 57⟩)) ∧
  (∀ v o, 0x1FFFFFF00000000 ≤ ea → ea < 2 ^ 57 → vaultAt (cluOf s.cur.g) ea 1024 = some (v, o) →
    destDue s.me [.urs rd.addr 1024] = false →
    (ea % 64 ≠ 0 → exec (.vld k g d a p m) s = .next (s.raise s.cur.g 5 ⟨0x07, 0, ea⟩)) ∧
    (∀ z, ea % 64 = 0 → undeclared s.me s.cur.g ea 1024 1 = some z →
      exec (.vld k g d a p m) s = .next (s.raise s.cur.g 5 ⟨0x20, 0, z⟩)))

/-- Freewheel images (17 R358-R360): `vdecay` copies the header of A and decays each well-formed block to the step view, and
`vfwadd` merges the exact lane products into the governed, well-formed blocks of D; an ill-formed header, or a block beyond
the horizon that would be read, raises 0x05. -/
def Obligations.VectorFreewheel : Prop := ∀ (k : BitVec 3) (g : BitVec 1) (d a b : BitVec 6) (x y : BitVec 2) (s : State)
    (rd ra rb : Res), s.me.guard k g = true → vecOperand s.me d.toNat = .ok rd → vecOperand s.me a.toNat = .ok ra →
  vecOperand s.me b.toNat = .ok rb →
  let t := s.me
  let now := t.svr.toNat
  let ofImg := fun (img : List Byte) => (leNat ((img.drop 2).take 1), leNat (img.take 2))
  let blk := fun (img : List Byte) (j : Nat) => (img.drop (64 + 64 * j)).take 64
  let beyond := fun (fc : Nat) (c : List Byte) => !fwMalformed fc c && decide (classify now (blkStamp c) = .horizon)
  let stops := fun (i : Instr) => exec i s = .next (s.raise s.cur.g 5 ⟨0x05, 0, t.ctx.pc⟩)
  (let img := t.ursRead ra.addr 1024
   let fc := (ofImg img).1
   let srcs : List Dst := [.q k.toNat, .urs ra.addr 1024]
   Ready s 5 srcs [.urs rd.addr 1024] 1 →
   if imageOk img && (List.range 15).all (fun j => !beyond fc (blk img j)) then
     ∃ (u : State) (bs : List Byte), exec (.vdecay k g d a x) s = .next u ∧
       Commits s u 5 srcs [(12, .urs rd.addr (bs.map (fun z => some (0xFF#8, z))))] (fun c => c) (fun t => t) [0x36020] ∧
       bs.take 64 = img.take 64 ∧ ∀ j < 15, blk bs j = (if fwMalformed fc (blk img j) then blk img j
         else match fwReadBlock fc (ofImg img).2 now (blk img j) with | .ok z => z | .early z => z | .horizon => [])
   else stops (.vdecay k g d a x)) ∧
  (let img := t.ursRead rd.addr 1024
   let fc := (ofImg img).1
   let p := fcPer fc
   let act := t.rq k.toNat
   let prod := fun (e : Nat) => if e < 256 ∧ act.getLsbD e then Machine.Num.mul (Fmt.fp32.decode ((t.lanesAt ra.addr).getD e 0))
     (Fmt.fp32.decode ((t.lanesAt rb.addr).getD e 0)) else .fin true 0 0
   let gov := fun (j : Nat) => (List.range p).any (fun i => decide (j * p + i < 256) && act.getLsbD (j * p + i))
   let srcs : List Dst := [.q k.toNat, .urs ra.addr 1024, .urs rb.addr 1024, .urs rd.addr 1024]
   Ready s 5 srcs [.urs rd.addr 1024] 1 →
   if imageOk img && (List.range 15).all (fun j => !gov j || !beyond fc (blk img j)) then
     ∃ (u : State) (ws : List (Option (Byte × Byte))), exec (.vfwadd k g d a x b y) s = .next u ∧
       Commits s u 5 srcs [(12, .urs rd.addr ws)] (fun c => c) (fun t => t) [0x36020] ∧
       (∀ i < 64, ∃ v, ws[i]? = some (some (0#8, v))) ∧
       ∀ j < 15, ∀ i < 64,
         if gov j = true ∧ fwMalformed fc (blk img j) = false then
           ∃ z, fwAddBlock fc (ofImg img).2 now (blk img j) ((List.range p).map (fun i => prod (j * p + i))) = some z ∧
             ∃ v, z[i]? = some v ∧ ws[64 + 64 * j + i]? = some (some (0xFF#8, v))
         else ∃ v, ws[64 + 64 * j + i]? = some (some (0#8, v))
   else stops (.vfwadd k g d a x b y))

-- The L slot (08 R169-R183, 17 R353-R357).

/-- Scalar loads (08 R177, R178): `ld.b.s`, `ld.b.z`, `ld.h.s`, `ld.h.z`, `ld.w.s`, `ld.w.z`, `ld.d` read 1, 2, 4 or 8 bytes
at `a[A]` plus the scaled offset. An access that raises nothing becomes a pending destination of `s[S]` over the pieces of
the access, with the address register post-modified; bytes of the own vault are fixed at once, with outstanding stores that the
strand sees laid over them (08 R188). Shown where no earlier access of the strand to the bytes is under way, and none of them
carries an error. Bytes behind a fabric window are asked of their peer. -/
def Obligations.ScalarLoads : Prop := ∀ (k : BitVec 3) (g : BitVec 1) (d : BitVec 6) (a : BitVec 5) (p : BitVec 1)
    (m : BitVec 4) (o : BitVec 6) (s : State) (pm : List (Nat × Eff)), s.me.guard k g = true →
  postMod s.me p a.toNat m.toNat = .ok pm → s.cur.cancel = [] →
  let loads := fun (i : Instr) (size : Nat) (signed : Bool) => ∀ ps ts,
    Allowed s (((s.me.ra a.toNat).toNat + o.toNat * size) % 2 ^ 64) size 1 size false ps ts → s.me.clearOf ps →
    s.loadBad (coreOf s.cur.g) s.me.part 0 (ps.flatMap cutPiece) = none → destDue s.me [.s d.toNat] = false → Ready s 4 (addrSrcs a p m) (.s d.toNat :: addrDsts a p) 0 →
    ∃ t q, exec i s = .next t ∧ Moves s t (addrSrcs a p m) pm ∧ Adds s t q ∧
      q.kind = .scalar d.toNat size signed ∧ q.dsts = (if d = 0#6 then [] else [.s d.toNat]) ∧ q.pcs = ps ∧ q.err = none ∧
      (∀ z, ps = [z] → q.val = if z.cls = .own then some (s.forward s.cur.g [z] (s.memRead z.key z.len)) else none)
  loads (.ldBS k g d a p m o) 1 true ∧ loads (.ldBZ k g d a p m o) 1 false ∧
  loads (.ldHS k g d a p m o) 2 true ∧ loads (.ldHZ k g d a p m o) 2 false ∧
  loads (.ldWS k g d a p m o) 4 true ∧ loads (.ldWZ k g d a p m o) 4 false ∧ loads (.ldD k g d a p m o) 8 false

/-- Scalar stores (08 R178, R185): `st.b`, `st.h`, `st.w`, `st.d` hold the low bytes of `s[S]`, as read at issue, for the
completion of the bundle; until then no byte of memory changes. -/
def Obligations.ScalarStores : Prop := ∀ (k : BitVec 3) (g : BitVec 1) (v : BitVec 6) (a : BitVec 5) (p : BitVec 1)
    (m : BitVec 4) (o : BitVec 6) (s : State) (pm : List (Nat × Eff)), s.me.guard k g = true →
  postMod s.me p a.toNat m.toNat = .ok pm →
  let srcs : List Dst := .s v.toNat :: addrSrcs a p m
  let stores := fun (i : Instr) (size : Nat) => ∀ ps ts,
    Allowed s (((s.me.ra a.toNat).toNat + o.toNat * size) % 2 ^ 64) size 2 size false ps ts →
    Ready s 4 srcs (addrDsts a p) 0 →
    ∃ t, exec i s = .next t ∧
      Moves s t srcs (pm ++ [(1, .mem ⟨ps, leBytes size (s.me.rs v.toNat).toNat, none⟩)]) ∧ t.me.pends = s.me.pends
  stores (.stB k g v a p m o) 1 ∧ stores (.stH k g v a p m o) 2 ∧ stores (.stW k g v a p m o) 4 ∧
  stores (.stD k g v a p m o) 8

/-- Moves between the URS and memory (08 R179): `ld.v` and `ld.blk` of 1024 and 64 bytes become pending destinations,
`st.v` and `st.blk` hold the bytes of the operand, as read at issue, for completion; the alignment is 64 bytes. The loads are
shown where no earlier access of the strand to the bytes is under way and none of them carries an error. -/
def Obligations.BlockMoves : Prop := ∀ (k : BitVec 3) (g : BitVec 1) (n : BitVec 6) (a : BitVec 5) (p : BitVec 1)
    (m : BitVec 4) (x : BitVec 2) (o : BitVec 4) (s : State) (pm : List (Nat × Eff)) (r : Res), s.me.guard k g = true →
  postMod s.me p a.toNat m.toNat = .ok pm → s.cur.cancel = [] →
  let ea := fun (size : Nat) => ((s.me.ra a.toNat).toNat + o.toNat * size) % 2 ^ 64
  let loads := fun (i : Instr) (size : Nat) => ∀ ps ts, Allowed s (ea size) size 1 64 false ps ts →
    s.me.clearOf ps → s.loadBad (coreOf s.cur.g) s.me.part 0 (ps.flatMap cutPiece) = none →
    destDue s.me [.urs r.addr size] = false →
    Ready s 4 (addrSrcs a p m) (.urs r.addr size :: addrDsts a p) 0 →
    ∃ t q, exec i s = .next t ∧ Moves s t (addrSrcs a p m) pm ∧ Adds s t q ∧
      q.kind = .urs r.addr (List.replicate size (some 0xFF#8)) ∧ q.dsts = [.urs r.addr size] ∧ q.pcs = ps ∧ q.vld = false
  let stores := fun (i : Instr) (size : Nat) => ∀ ps ts, Allowed s (ea size) size 2 64 false ps ts →
    Ready s 4 (.urs r.addr size :: addrSrcs a p m) (addrDsts a p) 0 →
    ∃ t, exec i s = .next t ∧ t.me.pends = s.me.pends ∧
      Moves s t (.urs r.addr size :: addrSrcs a p m) (pm ++ [(1, .mem ⟨ps, s.me.ursRead r.addr size, none⟩)])
  (vecOperand s.me n.toNat = .ok r → loads (.ldV k g n a p m o) 1024 ∧ stores (.stV k g n a p m x o) 1024) ∧
  (blkOperand s.me n.toNat = .ok r → loads (.ldBlk k g n a p m o) 64 ∧ stores (.stBlk k g n a p m x o) 64)

/-- Prefetch and atomics (08 R180, R181): `pf` never raises a fault of its access, and fills the line of a readable cached
page, writing back another line only where the line's set is full (log 73); `atom` holds its read-modify-write for completion, with `s[B]` and the old `s[D]` as operands, and makes `s[D]` a
pending destination unless D is `s0`. -/
def Obligations.PrefetchAndAtomic : Prop := ∀ (k : BitVec 3) (g : BitVec 1) (d b : BitVec 6) (a : BitVec 5) (p z : BitVec 1)
    (m : BitVec 4) (o : BitVec 6) (op : BitVec 4) (s : State), s.me.guard k g = true → s.cur.cancel = [] →
  (∀ pm, postMod s.me p a.toNat m.toNat = .ok pm → Ready s 4 (addrSrcs a p m) (addrDsts a p) 0 →
    let ea := ((s.me.ra a.toNat).toNat + o.toNat * 64) % 2 ^ 64
    ∃ t, exec (.pf k g a p m o) s = .next t ∧ t.me.ctx = ctxAfter s 4 (addrSrcs a p m) pm (fun c => c) ∧
      ({ t.me with ctx := s.me.ctx } : Strand) = s.me ∧ (∀ g, g ≠ s.cur.g → t.strand g = s.strand g) ∧
      (((s.core (coreOf s.cur.g)).dc.filter (fun l => dcSet l.va == dcSet ea)).length < 4 → Reaches s t) ∧
      ∀ q ts, Allowed s ea 1 1 1 false [q] ts → q.cls = .cached →
        s.pieceBad (coreOf s.cur.g) s.me.part q = none →
        (dcFind (t.core (coreOf s.cur.g)) s.me.part (ea / 64 * 64)).isSome) ∧
  (let size := if z = 1#1 then 8 else 4
   let srcs : List Dst := [.s b.toNat, .s d.toNat, .a a.toNat]
   let id := if d = 0#6 then none else some s.nid
   ∀ ps ts, Allowed s (s.me.ra a.toNat).toNat size 3 size true ps ts → destDue s.me [.s d.toNat] = false →
    Ready s 4 srcs [.s d.toNat] 0 →
    ∃ t, exec (.atom k g d a b z op) s = .next t ∧ t.mem = s.mem ∧
      t.me.ctx = ctxAfter s 4 srcs
        [(1, .mem ⟨ps, [], some ⟨op.toNat, size, (s.me.rs b.toNat).toNat, (s.me.rs d.toNat).toNat, id⟩⟩)] (fun c => c) ∧
      ({ t.me with ctx := s.me.ctx, pends := s.me.pends } : Strand) = s.me ∧
      (∀ g, g ≠ s.cur.g → t.strand g = s.strand g) ∧
      if d = 0#6 then t.me.pends = s.me.pends
      else ∃ ix, t.me.pends = s.me.pends ++ [⟨s.nid, .atom d.toNat size ix, [.s d.toNat], [], none, false, none, 0, []⟩])

/-- The faults of an access (08 R176, R175, 06 R141), shown by a scalar load and a scalar store: an address without a
translation or permission raises 0x06, a misaligned one 0x07, both with the access kind as detail and the address; one outside
the declared regions aborts the task with cause 0x20, and one whose translation tables carry an error with 0x21 (20 R405), which
comes after a later page that fails otherwise, alignment and regions (06 R140). That the address reported is the first byte that fails
is the model's choice (DESIGN CHOICE, log 75). -/
def Obligations.AccessFaults : Prop := ∀ (k : BitVec 3) (g : BitVec 1) (d : BitVec 6) (a : BitVec 5) (o : BitVec 6)
    (s : State), s.me.guard k g = true → destDue s.me [.s d.toNat] = false →
  let ea := ((s.me.ra a.toNat).toNat + o.toNat * 8) % 2 ^ 64
  let faults := fun (i : Instr) (kind perm : Nat) =>
    (∀ x, s.pieces s.cur.g ea 8 perm false = .error x → exec i s = .next (s.raise s.cur.g 4
      (if ea < 2 ^ 57 ∧ s.xlateBad (coreOf s.cur.g) s.me.part x = true then
        match s.plainFail (coreOf s.cur.g) s.me.part perm false (fun _ => true) 2 x (ea + 8 - x) with
        | some z => ⟨0x06, kind, z⟩
        | none => if ea % 8 ≠ 0 then ⟨0x07, kind, ea⟩
          else match undeclared s.me s.cur.g ea 8 perm with
            | some y => ⟨0x20, kind, y⟩
            | none => ⟨0x21, 0, x⟩
      else ⟨0x06, kind, x⟩))) ∧
    (∀ q, s.pieces s.cur.g ea 8 perm false = .ok q → s.loadHeld s.cur.g q.1 = false → ea % 8 ≠ 0 →
      exec i s = .next (s.raise s.cur.g 4 ⟨0x07, kind, ea⟩)) ∧
    (∀ q x, s.pieces s.cur.g ea 8 perm false = .ok q → s.loadHeld s.cur.g q.1 = false → ea % 8 = 0 → undeclared s.me s.cur.g ea 8 perm = some x →
      ∃ t, exec i s = .next t ∧ (t.strand s.cur.g).run = .blocked ∧ (t.strand s.cur.g).ctx.lq = [] ∧
        ∃ y, (t.strand s.cur.g).abort = some y ∧ y.cause = 0x20 ∧ y.detail = kind ∧ y.addr = x % 2 ^ 57)
  (Ready s 4 [.a a.toNat] [.s d.toNat] 0 → faults (.ldD k g d a 0#1 0#4 o) 0 1) ∧
  (Ready s 4 [.s d.toNat, .a a.toNat] [] 0 → faults (.stD k g d a 0#1 0#4 o) 1 2)

/-- Freewheel and whole-row access (17 R354-R357): `ld.fw` makes a pending destination of one stamped block, `ld.row` of a
whole row, with the step view at issue as their now; `st.fw` holds its block, decayed to the view, for completion. The loads are
shown where no earlier access of the strand to the bytes is under way. -/
def Obligations.FreewheelAccess : Prop := ∀ (k : BitVec 3) (g : BitVec 1) (n : BitVec 6) (a : BitVec 5) (p : BitVec 1)
    (m : BitVec 4) (x : BitVec 2) (o : BitVec 4) (s : State) (pm : List (Nat × Eff)) (l : Lay) (r : Res),
  s.me.guard k g = true → postMod s.me p a.toNat m.toNat = .ok pm → s.cur.cancel = [] →
  let e := (s.me.ra a.toNat).toNat
  let off := (e % 2 ^ 32 + o.toNat * 64) % 2 ^ 32
  let now := s.me.svr.toNat % 65536
  let at64 : Piece := ⟨e % 2 ^ 57, l.rowKey (off / 2 ^ l.rslot) + off % 2 ^ l.rslot, 64, .ms⟩
  (rowEnd s e fcStamped = some l → runOperand s.me n.toNat 64 = .ok r →
    (blockFlt s.me l e off 0 1 = none → destDue s.me [.urs r.addr 64] = false → s.me.clearOf [at64] →
      Ready s 4 (addrSrcs a p m) (.urs r.addr 64 :: addrDsts a p) 0 →
      ∃ t q, exec (.ldFw k g n a p m o) s = .next t ∧ Moves s t (addrSrcs a p m) pm ∧ Adds s t q ∧
        q.kind = .fw r.addr (List.replicate 64 (some 0xFF#8)) false l.fc l.decay now 0 ∧ q.pcs = [at64] ∧
        q.dsts = [.urs r.addr 64]) ∧
    (let blk := s.me.ursRead r.addr 64
     ∀ bs, blockFlt s.me l e off 1 2 = none → fwMalformed l.fc blk = false →
      (fwReadBlock l.fc l.decay now blk = .ok bs ∨ fwReadBlock l.fc l.decay now blk = .early bs) →
      Ready s 4 (.urs r.addr 64 :: addrSrcs a p m) (addrDsts a p) 0 →
      ∃ t, exec (.stFw k g n a p m x o) s = .next t ∧ t.me.pends = s.me.pends ∧
        Moves s t (.urs r.addr 64 :: addrSrcs a p m) (pm ++ [(1, .mem ⟨[at64], bs, none⟩)]) [0x36020])) ∧
  (rowEnd s e (fun c => rowCode c || fcStamped c) = some l → runOperand s.me n.toNat l.rowBytes = .ok r →
    e % 2 ^ 32 < l.flatRows → rowOut s.me l (bits e 55 32) 1 (e % 2 ^ 32) 0 l.cols = false →
    destDue s.me [.urs r.addr l.rowBytes] = false →
    s.me.clearOf [⟨e % 2 ^ 57, l.rowKey (e % 2 ^ 32), l.rowBytes, .ms⟩] →
    Ready s 4 (addrSrcs a p m) (.urs r.addr l.rowBytes :: addrDsts a p) 0 →
    ∃ t q, exec (.ldRow k g n a p m o) s = .next t ∧ Moves s t (addrSrcs a p m) pm ∧ Adds s t q ∧
      q.kind = .fw r.addr (List.replicate l.rowBytes (some 0xFF#8)) true (if fcStamped l.fc then l.fc else 0) l.decay now
        o.toNat ∧
      q.pcs = [⟨e % 2 ^ 57, l.rowKey (e % 2 ^ 32), l.rowBytes, .ms⟩])

/-- Stores and atomics at the completion of their bundle (08 R178, R181, R182, R186, R187), for one that is alone in its
bundle and finds in its core no load without its value and no store or atomic outstanding: bytes of the own vault and of a memory-side page are written at once and every
other address reads as before (for a memory-side page, as 16 R326 and 20 R400 require; that this instant is the completion is
DEDUCED, log 62); an own-vault atomic writes the value of its operation and returns the old one to the pending destination that it has, whose data
then arrives in a step of its own (shown for a task that is not replayed); a store to a lateral vault or a
window becomes outstanding, and a store to a cached page changes the core's line of it, whose written bytes become dirty, and,
where the line's set has room, nothing of memory (log 63). -/
def Obligations.StoresComplete : Prop := ∀ (s : State) (g : Nat) (p : Piece) (bs : List Byte) (x : AtomOp),
  (∀ h, coreOf h = coreOf g → (∀ q ∈ (s.strand h).pends, q.pcs = []) ∧ (s.strand h).outs = []) →
  let c := coreOf g
  (Completing s g [⟨4, .mem ⟨[p], bs, none⟩⟩] → bs.length = p.len →
    ∃ t, exec (.bundleComplete g) s = .next t ∧
      (p.cls = .own ∨ p.cls = .ms → (t.strand g).outs = [] ∧ ∀ a, t.memRead a 1 =
        if p.key ≤ a ∧ a < p.key + p.len then (bs.drop (a - p.key)).take 1 else s.memRead a 1) ∧
      (p.cls = .lateral ∨ p.cls = .window → t.mem = s.mem ∧ (t.strand g).outs = [⟨s.nid, ⟨[p], bs, none⟩⟩]) ∧
      (p.cls = .cached → (t.strand g).outs = [] ∧
        (0 < p.len → p.va % 64 + p.len ≤ 64 → (∀ l ∈ (s.core c).dc, l.bytes.length = 64) →
          (((s.core c).dc.filter (fun l => dcSet l.va == dcSet p.va)).length < 4 → t.mem = s.mem) ∧
          ∃ l, dcFind (t.core c) (s.strand g).part (p.va / 64 * 64) = some l ∧ (l.bytes.drop (p.va % 64)).take p.len = bs ∧
            l.wroteBy (s.strand g) g = true ∧ ∀ i < p.len, l.dirty.testBit (p.va % 64 + i) = true))) ∧
  (Completing s g [⟨4, .mem ⟨[p], [], some x⟩⟩] → x.size = 4 ∨ x.size = 8 → p.cls = .own → x.pend = none ∨ (s.replayOf g).isNone = true → x.op < 10 →
    s.badAt 0 [⟨p.va, p.key, x.size, .ms⟩] = none →
    let w := 8 * x.size
    let old := s.memNat p.key x.size
    let y := x.y % 2 ^ w
    let sgn := fun (v : Nat) => (BitVec.ofNat w v).toInt
    let new := [(old + y) % 2 ^ w, if sgn y < sgn old then y else old, min old y, if sgn old < sgn y then y else old,
      max old y, old &&& y, old ||| y, old ^^^ y, y, if old = x.c % 2 ^ w then y else old].getD x.op 0
    ∃ t, exec (.bundleComplete g) s = .next t ∧ t.memNat p.key x.size = new ∧
      (∀ a, (a < p.key ∨ p.key + x.size ≤ a) → t.memRead a 1 = s.memRead a 1) ∧
      match x.pend with
      | some id => .atomicReturn g id ∈ t.work ∧ (t.strand g).pends =
          (s.strand g).pends.map (fun q => if q.id = id then { q with val := some (leBytes x.size old) } else q)
      | none => (t.strand g).pends = (s.strand g).pends)

-- The E slot (09 R197-R209, 13 R277-R280, 15 R312, 16 R336-R341, 17 R350-R361).

/-- Configuration writes (09 R198, R200-R202): `efr.set` writes EFR three bundles later, `vd.set` and `rot.set` a view
descriptor and `mlp.set` the literal pointer at the completion of the bundle; a reserved rounding mode, a rotating range that
its `rrb` leaves, an `rrb` not below the entry count, and an address that is no word address raise 0x05. -/
def Obligations.Configuration : Prop := ∀ (r : BitVec 6) (k : BitVec 3) (l q : BitVec 6) (a : BitVec 5) (s : State),
  let t := s.me
  let x := t.rs r.toNat
  let v := x.toNat
  let lo := v / 2 ^ 10 % 64
  let hi := v / 2 ^ 16 % 64
  let rrb := v / 2 ^ 34 % 64
  let sets := fun (i : Instr) (srcs dsts : List Dst) (e : Eff) (legal : Prop) => Ready s 7 srcs dsts 0 →
    (legal → ∃ u, exec i s = .next u ∧ Commits s u 7 srcs [(1, e)] (fun c => c) (fun t => t)) ∧
    (¬legal → exec i s = .next (s.raise s.cur.g 7 ⟨0x05, 0, t.ctx.pc⟩))
  sets (.efrSet r) [.s r.toNat] [.efr] (.efr x) (v % 8 < 5) ∧
  sets (.vdSet r k) [.s r.toNat] [.vd k.toNat] (.vd k.toNat x)
    (v.testBit 63 = true → v.testBit 33 = true → if lo ≤ hi then rrb < hi - lo + 1 else rrb = 0) ∧
  sets (.rotSet k l q) [] [.vd k.toNat] (.rotSet k.toNat l.toNat q.toNat)
    (q.toNat = 0 ∨ q.toNat < vdCount (t.rvd k.toNat)) ∧
  sets (.mlpSet a) [.a a.toNat] [] (.mlp (t.ra a.toNat)) ((t.ra a.toNat).toNat % 4 = 0 ∧ (t.ra a.toNat).toNat < 2 ^ 57)

/-- Copies (09 R197, R203-R210): `cp`, `cp.t` and `cpf` launch a copy command with the endpoints as they resolve at issue,
at once or after their delay, once no URS byte of an endpoint is still to arrive (07 R166), and make their token pending; 16
copies that are queued or waiting block the strand. `cp` and
`cp.t` raise 0x05 where the limits of length, shape and overlap are broken, the fault of an endpoint, source first (DESIGN CHOICE, log
108), with an error in its tables after every other (06 R140), 0x05 for a stamp-horizon fault recorded on source bytes in the URS, whose
records are cleared (17 R348), and 0x21 for an error recorded on them (06 R135); `cpf` raises none, and a source that cannot be used
ends it with nothing to read. -/
def Obligations.LaunchCopies : Prop := ∀ (l : BitVec 3) (k : BitVec 6) (d e : BitVec 5) (n : BitVec 6) (s : State),
  let t := s.me
  let g := s.cur.g
  let c := coreOf g
  let vd := (t.ra d.toNat).toNat
  let vs := (t.ra e.toNat).toNat
  let v := (t.rs n.toNat).toNat
  let tok : List Dst := if k = 0#6 then [] else [.s k.toNat]
  let ents := if l = 0#3 then 0 else 1
  let room := (s.core c).copies.length + s.waitingOn c Cmd.isCopy < 16
  let still := fun (ds : List Dst) => ∀ p ∈ t.oldPends, dstsMeet p.dsts ds = false
  let cmd := fun (op : Nat) (ed es : Endp) (len : Nat) =>
    ({ id := s.nid, strand := g, op := op, tok := k.toNat, dst := ed, src := es, len := len, fc := v / 2 ^ 56,
       rows := v % 2 ^ 16, cols := v / 2 ^ 16 % 2 ^ 16, i2 := v / 2 ^ 32 % 2 ^ 12, i3 := v / 2 ^ 44 % 2 ^ 12,
       started := false, data := [], word := 0#64 } : CopyCmd)
  let goes := fun (i : Instr) (srcs : List Dst) (x : CopyCmd) => ∃ u, exec i s = .next u ∧
    Launched s u
      { slot := 7, srcs := srcs, delay := l.toNat, cmd := .copy x,
        queue := fun q => { q with copies := q.copies ++ [x] }, due := [.copyStart c],
        keep := fun t => t.awaits s.nid k.toNat }
  let stops := fun (i : Instr) (f : Flt) => exec i s = .next (s.raise g 7 f)
  let waits := fun (i : Instr) => exec i s = .next (s.leave g .blocked .copyQueue)
  let copy := fun (i : Instr) (op : Nat) =>
    let srcs : List Dst := [.a d.toNat, .a e.toNat, .s n.toNat]
    Ready s 7 srcs tok ents →
    still (((copyLen (cluOf g) (op == 1) vd vs v).map (fun m => epTouch vs m ++ epTouch vd m)).getD []) →
      (¬room → waits i) ∧
      (room → match copyLen (cluOf g) (op == 1) vd vs v with
        | none => stops i ⟨0x05, 0, t.ctx.pc⟩
        | some len =>
          let aged := fun (x : Dst × Nat × Nat) => x.2.1 == 5 && dstsMeet [x.1] (srcs ++ epTouch vs len)
          let own := match endpoint s vs len v 1, endpoint s vd len v 2 with
            | .ok _, .ok _ => none
            | .error f, .error h => some (if f.cause = 0x21 ∧ h.cause ≠ 0x21 then h else f)
            | .error f, _ => some f
            | _, .error f => some f
          (t.errs.any aged = true → (∀ f, own = some f → 5 < f.cause) → exec i s = .next
            ((s.modMe (fun t => { t with errs := t.errs.filter (fun x => !aged x) })).raise g 7 ⟨0x05, 0, t.ctx.pc⟩)) ∧
          (t.errs.any aged = false ∨ (∃ f, own = some f ∧ f.cause ≤ 5) → ∀ f, own = some f → stops i f) ∧
          (t.errs.any aged = false → ∀ es ed ts td, endpoint s vs len v 1 = .ok (es, ts) → endpoint s vd len v 2 = .ok (ed, td) →
            let met := fun (x : Dst × Nat × Nat) => x.2.1 = 0x21 ∧ dstsMeet [x.1] (epTouch vs len) = true
            ((∀ x ∈ t.errs, ¬met x) → goes i srcs (cmd op ed es len)) ∧
            ((∃ x ∈ t.errs, met x) → ∃ x ∈ t.errs, met x ∧
              stops i ⟨0x21, 0, if x.2.2 ≠ noAddr then x.2.2 else t.ctx.pc⟩)))
  copy (.cp l k d e n) 0 ∧ copy (.cpT l k d e n) 1 ∧
  (let srcs : List Dst := [.a e.toNat, .s n.toNat]
   let len := if vs / 2 ^ 60 = 2 then rectSize vs v else if v % 64 = 0 ∧ v ≤ 4194304 then some v else none
   Ready s 7 srcs tok ents → still ((len.map (epTouch vs)).getD []) →
     (¬room → waits (.cpf l k e n)) ∧
     (room →
       (∀ m es ts, len = some m → endpoint s vs m v 1 = .ok (es, ts) →
         goes (.cpf l k e n) srcs (cmd 2 .none es m)) ∧
       ((len = none ∨ ∃ m f, len = some m ∧ endpoint s vs m v 1 = .error f) →
         goes (.cpf l k e n) srcs (cmd 2 .none .none 0))))

/-- Near-memory commands (16 R336, R338, R340, 17 R352, R361): `nm.radd`, `nm.fwadd`, `nm.opt`, `nm.red` and the sweep
list's two commands launch with their parameters, target pieces and source bytes as read at issue, once their operands
pass the checks of their kind; with eight queued or waiting the strand blocks. -/
def Obligations.LaunchNearMemory : Prop := ∀ (l : BitVec 3) (n : BitVec 6) (p : BitVec 2) (a : BitVec 5) (k : BitVec 6)
    (o : BitVec 2) (f : BitVec 1) (s : State),
  let t := s.me
  let g := s.cur.g
  let c := coreOf g
  let e := (t.ra a.toNat).toNat
  let h := e / 2 ^ 32 % 2 ^ 24
  let r := e % 2 ^ 32
  let tok : List Dst := if k = 0#6 then [] else [.s k.toNat]
  let ents := if l = 0#3 then 0 else 1
  let room := ((s.core c).nmq.filter (fun x => decide (x.op ≤ 5))).length + s.waitingOn c Cmd.isNm < 8
  let cmd := fun (op : Nat) (par : List Nat) (ps : List Piece) (bs : List Byte) (phase : Nat) =>
    ({ id := s.nid, strand := g, part := t.part, op := op, tok := k.toNat, par := par, pcs := ps, data := bs, phase := phase,
       word := 0#64 } : NmCmd)
  let goes := fun (i : Instr) (srcs : List Dst) (op : Nat) (par : List Nat) (ps : List Piece) (bs : List Byte) =>
    Ready s 7 srcs tok ents →
      if room then ∃ u, exec i s = .next u ∧
        Launched s u
          { slot := 7, srcs := srcs, delay := l.toNat, cmd := .nm (cmd op par ps bs 0),
            queue := fun q => { q with nmq := q.nmq ++ [cmd op par ps bs 1] }, due := [.nmCommandExecute c s.nid],
            keep := fun t => t.awaits s.nid k.toNat }
      else exec i s = .next (s.leave g .blocked .nmQueue)
  let isRow := e / 2 ^ 60 = 2 ∧ e / 2 ^ 56 % 16 = 0
  let row := fun (i : Instr) (op : Nat) (ok : Nat → Bool) (len : Lay → Nat) (fn : List Nat) => ∀ x y, isRow →
    runOperand t n.toNat 0 = .ok x → rowEnd s e ok = some y → r < y.flatRows → x.addr + len y ≤ 65536 → len y ≤ 4096 →
    rowOut t y h 3 r 0 y.cols = false →
    goes i [.a a.toNat, .urs x.addr (len y)] op
      ([h, r] ++ fn ++ [t.svr.toNat % 65536, h, y.fc, y.cols, y.decay, y.fc, y.decay]) [rowPiece y e r 0 y.rowBytes]
      (t.ursRead x.addr (len y))
  let src := fun (y : Lay) => if f = 1#1 then 4 * y.cols else y.rowBytes
  row (.nmRadd l n p a k o f) 0 rowCode src [o.toNat, f.toNat] ∧
  row (.nmFwadd l n p a k f) 1 fcStamped src [0, f.toNat] ∧
  (∀ x y m, isRow → runOperand t n.toNat 0 = .ok x → rowEnd s e rowCode = some y → r < y.flatRows →
    x.addr + (64 + 4 * y.cols) ≤ 65536 → 64 + 4 * y.cols ≤ 4096 →
    let bs := t.ursRead x.addr (64 + 4 * y.cols)
    let mh := leNat ((bs.drop 8).take 3)
    momOf s y r bs = some m → rowOut t y h 3 r 0 y.cols = false → rowOut t m mh 3 r 0 m.cols = false →
    goes (.nmOpt l n p a k) [.a a.toNat, .urs x.addr (64 + 4 * y.cols)] 3
      ([h, r, 0, 1] ++ [t.svr.toNat % 65536, mh, y.fc, y.cols, y.decay, m.fc, m.decay])
      [rowPiece y e r 0 y.rowBytes, rowPiece m e r 0 m.rowBytes] bs) ∧
  (∀ x ps ts, vecOperand t n.toNat = .ok x → e < 0x1FFFFFF00000000 → s.pieces g e 1024 3 false = .ok (ps, ts) →
    (∀ q ∈ ps, q.cls = .ms) → e % 1024 = 0 → undeclared t g e 1024 3 = none →
    goes (.nmRed l n p a k o) [.a a.toNat, .urs x.addr 1024] 2 [o.toNat] ps (t.ursRead x.addr 1024)) ∧
  (∀ y, r = 0 → rowEnd s e fcStamped = some y → tensorOut t h 3 0 y.rows 0 y.cols 0 y.n2 0 y.n3 = none →
    goes (.nmSweepReg l a k) [.a a.toNat] 4 [h] [] [] ∧ goes (.nmSweepUnreg l a k) [.a a.toNat] 5 [h] [] [])

/-- Task commands and permits (13 R277-R280, 15 R312-R315): `tspawn` launches the registration of the record slot that
`a[A]` addresses; `tjoin` adds it to the join list, of at most 32; a slot without a translation or permission raises 0x06, and
one that is not aligned to 512 raises 0x07. `sw.permit` reads its descriptor as a load would, behind a fabric window once it has
been asked of its peer (21 R417): it raises 0x06, 0x07 and 0x21 with the descriptor's address or that of the error, 0x05 for a descriptor that breaks a limit, and 0x20 for tiles or vault bytes
that no region grants, its address the first byte in the order of the model's choice (DESIGN CHOICE, log 101); it launches the permit to
its sprocket's queue, and blocks while eight are queued or waiting there. At a launch the lines that the cluster's tile cache holds
within the permit's tiles (`permitLine`) are written back, and given up where the permit stores (15 R315): memory, its checks and the
tile caches are then what `wbTiles` makes of them, and without a launch at once they are as before. -/
def Obligations.LaunchTasks : Prop := ∀ (l : BitVec 3) (k : BitVec 6) (a q : BitVec 5) (s : State),
  let t := s.me
  let g := s.cur.g
  let c := coreOf g
  let e := (t.ra a.toNat).toNat
  let tok : List Dst := if k = 0#6 then [] else [.s k.toNat]
  let ents := if l = 0#3 then 0 else 1
  let cmd := fun (op tok : Nat) (par : List Nat) (ps : List Piece) (phase : Nat) =>
    ({ id := s.nid, strand := g, part := t.part, op := op, tok := tok, par := par, pcs := ps, data := [], phase := phase,
       word := 0#64 } : NmCmd)
  let joins := t.joins.length + ((t.ctx.lq ++ (match t.frozen with | some (x, _, _) => x.lq | none => [])).filter
    (fun x => match x.what with | .launch (.nm n) => n.op == 7 | _ => false)).length
  let stops := fun (i : Instr) (f : Flt) => exec i s = .next (s.raise g 7 f)
  let unmapped := fun (align len perm : Nat) (atomic : Bool) (at0 : Nat → Nat) (x : Nat) =>
    if e < 2 ^ 57 ∧ s.xlateBad c t.part x = true then
      match s.plainFail c t.part perm atomic (fun _ => true) 2 x (e + len - x) with
      | some y => (⟨0x06, 3, at0 y⟩ : Flt)
      | none => if e % align ≠ 0 then ⟨0x07, 3, at0 e⟩ else ⟨0x21, 0, at0 x⟩
    else ⟨0x06, 3, at0 x⟩
  let ofRec := unmapped 512 1 3 true (fun y => y)
  (∀ ps ts, s.pieces g e 1 3 true = .ok (ps, ts) →
    let slot := ps.map (fun p => { p with len := 512, key := recLoc ((ts.head?.map Tlb.ppart).getD 0) p.key })
    (e % 512 = 0 → Ready s 7 [.a a.toNat] tok ents → ∃ u, exec (.tspawn l k a) s = .next u ∧
      Launched s u
        { slot := 7, srcs := [.a a.toNat], delay := l.toNat, cmd := .nm (cmd 6 k.toNat [t.ctx.pc] slot 0),
          queue := fun x => { x with nmq := x.nmq ++ [cmd 6 k.toNat [t.ctx.pc] slot 1] }, due := [.taskRegistration s.nid],
          keep := fun t => t.awaits s.nid k.toNat }) ∧
    (e % 512 = 0 → joins < 32 → Ready s 7 [.a a.toNat] [] ents → ∃ u, exec (.tjoin l a) s = .next u ∧
      Launched s u
        { slot := 7, srcs := [.a a.toNat], delay := l.toNat, cmd := .nm (cmd 7 0 [] slot 0),
          joined := fun t => { t with joins := t.joins ++ slot.map (fun p => (p.key, p.va)) } }) ∧
    (e % 512 ≠ 0 →
      (Ready s 7 [.a a.toNat] tok ents → stops (.tspawn l k a) ⟨0x07, 3, e⟩) ∧
      (joins < 32 → Ready s 7 [.a a.toNat] [] ents → stops (.tjoin l a) ⟨0x07, 3, e⟩))) ∧
  (∀ x, s.pieces g e 1 3 true = .error x →
    (Ready s 7 [.a a.toNat] tok ents → stops (.tspawn l k a) (ofRec x)) ∧
    (joins < 32 → Ready s 7 [.a a.toNat] [] ents → stops (.tjoin l a) (ofRec x))) ∧
  (32 ≤ joins → Ready s 7 [.a a.toNat] [] ents → stops (.tjoin l a) ⟨0x05, 0, t.ctx.pc⟩) ∧
  (Ready s 7 [.a a.toNat] tok ents →
    let busy := permitBar s q.toNat
    let sw : Instr := .swPermit l k a q
    (busy ≠ none → exec sw s = .next (s.leave g .blocked (.permitQueue q.toNat))) ∧
    (busy = none →
      (∀ x, s.pieces g e 64 1 false = .error x → stops sw (unmapped 64 64 1 false (fun _ => e % 2 ^ 57) x)) ∧
      ∀ ps ts, s.pieces g e 64 1 false = .ok (ps, ts) →
        (e % 64 ≠ 0 → stops sw ⟨0x07, 3, e⟩) ∧
        (e % 64 = 0 → s.asked g e ps = false → exec sw s = .next (barred (.ask e ps) s)) ∧
        (e % 64 = 0 → s.asked g e ps = true → s.loadHeld g ps = true → exec sw s = .next (barred .hold s)) ∧
        (∀ y, e % 64 = 0 → s.asked g e ps = true → s.loadHeld g ps = false →
          s.loadBad c t.part 0 (ps.flatMap cutPiece) = some y → stops sw ⟨0x21, 0, y.2⟩) ∧
        (e % 64 = 0 → s.asked g e ps = true → s.loadBad c t.part 0 (ps.flatMap cutPiece) = none → s.seenOuts g = [] →
          s.me.clearOf ps →
          let b := (s.load c t.part ps).2
          let fld := fun (o w : Nat) => leNat ((b.drop o).take w)
          match permitSize s (dieOf g) t.part b with
          | none => stops sw ⟨0x05, 0, e⟩
          | some z => match permitOut t (dieOf g) b z with
            | some x => stops sw ⟨0x20, 3, x⟩
            | none =>
              let x := cmd 8 k.toNat
                [q.toNat, fld 0 1, fld 2 2, fld 4 4, fld 8 8, fld 16 8, fld 24 4, fld 28 4, fld 32 2, fld 34 2, z] []
              let port := dieOf g * 32 + q.toNat
              ∃ u, exec sw s = .next u ∧ u.nid = s.nid + 1 ∧ (∀ g, g ≠ s.cur.g → u.strand g = s.strand g) ∧
                ((∀ p ∈ ps, p.cls = .cached → (dcFind (s.core c) t.part (e / 64 * 64)).isSome) →
                  let r := s.askOver g e
                  let v := if l = 0#3 then r.wbTiles (cluOf g) (permitLine s (x 0)) (decide (fld 0 1 = 2)) else r
                  u.mem = v.mem ∧ u.bad = v.bad ∧ u.tiles = v.tiles ∧ u.tileOut = v.tileOut) ∧
                ({ u.me with ctx := s.me.ctx } : Strand) =
                  ({ s.me with asks := s.me.asks.filter (fun x => x.1 != e) } : Strand).awaits s.nid k.toNat ∧
                u.me.ctx = launchCtx s { slot := 7, srcs := [.a a.toNat], delay := l.toNat, cmd := .nm (x 0) } ∧
                ∀ j, SMap.get [] u.permits j =
                  if j = port ∧ l = 0#3 then SMap.get [] s.permits port ++ [x 1] else SMap.get [] s.permits j)))

/-- `gstep.adv` (17 R350, R351): a strand whose partition may not advance the step raises 0x05 at issue. Otherwise the bundle
holds position while a whole-row operation of the strand is under way and while an advance of another strand, or its own sweep
pass, is in progress; a step that crosses a multiple of 2^13 then begins a sweep pass over the sweep list, with the old step as
its reference; and the operation commits once its pass is over, or at once where none is due: GSTEP gains k modulo 2^16 and the
view follows at the completion of the bundle. Shown outside a replay and with no read of a whole row outstanding. -/
def Obligations.GlobalStepAdvance : Prop := ∀ (k : BitVec 12) (s : State), SMap.rising s.regs = true →
  Ready s 7 [] [] 0 → 1 ≤ k.toNat →
  let g := s.cur.g
  let ctl := s.reg 0 0x36008
  let o := s.reg 0 0x36000 % 65536
  let new := (o + k.toNat) % 65536
  let waits := fun (u : State) =>
    exec (.gstepAdv k) s = .next (barred .hold (u.modMe (fun t => { t with adv := true })))
  let advances := ∃ t, exec (.gstepAdv k) s = .next t ∧ t.reg 0 0x36000 = new ∧
    t.me.ctx = ctxAfter s 7 [] [(1, .svr (BitVec.ofNat 64 new))] (fun c => c) ∧
    ({ t.me with ctx := s.me.ctx } : Strand) = { s.me with adv := false } ∧ OnlyMe { s with sweep := none } t [0x36000]
  if ctl.testBit 8 = true ∧ ctl % 256 = s.me.part then
    (s.rowBusy g = true → waits s) ∧
    (s.rowBusy g = false → s.replayAny g = none → (∀ p ∈ s.me.pends, p.kind.isRow = false) →
      match s.sweep with
      | none => if o / 8192 = (o + k.toNat) / 8192 then advances else waits { s with sweep := some ⟨g, o, s.sweeps, 0⟩ }
      | some w => if w.strand = g ∧ w.todo = [] then advances else waits s)
  else exec (.gstepAdv k) s = .next (s.raise s.cur.g 7 ⟨0x05, 0, s.me.ctx.pc⟩)

-- The X slot (03 R89-R91, 10 R216-R230, 11 R235-R254).

/-- The literal stream (03 R89-R91): every X operation takes one word at MLP. Where it cannot be fetched the slot raises
0x02 with the pointer as address, or 0x21 where its data or its tables carry an error (20 R405), whatever the guard; a word behind
a fabric window is first asked of its peer, in a position hold (21 R417); where the guard in bits [31:28] is false the pointer
advances by four modulo 2^57 and nothing else happens. -/
def Obligations.LiteralStream : Prop := ∀ (d a b : BitVec 6) (l : BitVec 3) (z : BitVec 1) (f : BitVec 3) (s : State),
  s.me.ctx.done.testBit 6 = false → s.me.abort = none →
  let p := s.me.mlp.toNat
  ∀ i ∈ [Instr.mmul d a b l, .mmulWt d a l, .mmula d a b l, .mmulaWt d a l, .mmulSp d a b l, .mmulSpWt d a l,
    .mconv d a b l, .mconvWt d a l, .mconva d a b l, .mconvaWt d a l, .mwld b l, .mdrain d a l z, .mzero d l,
    .mlu d l, .mchol d l, .mtri d l, .mtrs d a b l f, .mqr d b l, .mqapply d a l z, .mperm d l z, .mres d l],
    (∀ x, s.linPieces (coreOf s.cur.g) s.me.part 1 false 2 p 4 = .error x →
      exec i s = .next (s.raise s.cur.g 6 ⟨if s.xlateBad (coreOf s.cur.g) s.me.part x then 0x21 else 0x02, 0, p⟩)) ∧
    (∀ ps ts, s.linPieces (coreOf s.cur.g) s.me.part 1 false 2 p 4 = .ok (ps, ts) → s.badAt 0 ps ≠ none →
      exec i s = .next (s.raise s.cur.g 6 ⟨0x21, 0, p⟩)) ∧
    (∀ ps ts, s.linPieces (coreOf s.cur.g) s.me.part 1 false 2 p 4 = .ok (ps, ts) → s.badAt 0 ps = none →
      (s.asked s.cur.g p ps = false → s.me.oldPends = [] → exec i s = .next (barred (.ask p ps) s)) ∧
      (s.asked s.cur.g p ps = true → s.me.ctx.lq.length ≤ 64 →
      let w := leNat (s.loadBelow ps)
      s.me.rp (w / 2 ^ 29 % 8) = w.testBit 28 →
      ∃ t, exec i s = .next t ∧
        PassedOver (s.askOver s.cur.g p) t 6 (fun c => c) (fun t => { t with mlp := BitVec.ofNat 64 ((p + 4) % 2 ^ 57) })))

/-- The multiplying commands (10 R216-R221, R226, R229, R230): `mmul`, `mmula` and `mmul.sp`, with a named B or the
weight reference, launch with the bytes of A and B, of the accumulator that is continued (of the command they are chained
to, where it has produced), and of the metadata as read at issue; the result is one landing-queue entry with the latency
of the wider source. They wait for a place among four queued commands, on which the strand blocks, and for one among its four
pending results, for which it holds position; where both are wanting they wait for the queue first (the model's choice, log 95). With the
weight reference the array loads no weights unless a write has met them since (R226). -/
def Obligations.MatrixMultiply : Prop := ∀ (d a b : BitVec 6) (l : BitVec 3) (s : State) (w : Nat) (ts : List Tlb) (rd ra : Res),
  let t := s.me
  let g := s.cur.g
  let opt := w % 2 ^ 28
  let s' := s.askOver g t.mlp.toNat
  litAt s = .ok (w, ts) → litAsk s = none → t.rp (w / 2 ^ 29 % 8) ≠ w.testBit 28 →
  accOperand t d.toNat = .ok rd → tileOperand t a.toNat = .ok ra →
  let queued := ((s.core (coreOf g)).mq.filter (fun x => !x.started)).length + s.waitingOn (coreOf g) Cmd.isMatrix
  let fa := vdFmt ra.d
  let opA := t.ursRead ra.addr (tileBytes fa)
  let go := fun (i : Instr) (op : Nat) (wb : Bool) (bb : Except Flt (Nat × Nat)) => ∀ ba fb, bb = .ok (ba, fb) →
    intType fa = intType fb → (if op = 3 then opt < 2 ^ 11 ∧ opt % 2 ^ 10 ≤ 1016 else opt = 0) →
    let adds := op = 2 ∨ op = 3 ∧ opt.testBit 10 = true
    let opB := t.ursRead ba (tileBytes fb)
    let mode := if intType fa then 1 else 0
    let chain := if adds then chainOf t rd.addr mode else none
    let lat := mulLat (op == 3) fa fb
    let md := if op = 3 then t.ursRead (64 * (opt % 2 ^ 10)) 512 else []
    let prior := match chain with
      | some id => (s.producedBytes g id).getD []
      | none => if adds then t.ursRead rd.addr 18432 else List.replicate 18432 0#8
    let owed := match chain with
      | some id => if (s.producedBytes g id).isSome then 0 else id + 1
      | none => 0
    let dst := Dst.urs rd.addr 18432
    let srcs : List Dst := [.urs ra.addr (tileBytes fa), .urs ba (tileBytes fb)] ++
      (if op = 3 then [.urs (64 * (opt % 2 ^ 10)) 512] else []) ++ (if adds ∧ chain = none then [dst] else [])
    let x : XCmd :=
      { id := s.nid, strand := g, addr := t.ctx.pc, op := op,
        par := [fa, fb, mode, if op = 3 then 1 else 0, s.fresh, rd.addr, owed], data := [opA, opB, prior, md],
        efr := t.efr.toNat, fxd := s.fxd (coreOf g), lat := some lat, dst := [dst], started := false,
        cls := if wb && !t.wstale then 0 else 1, reuse := wb && !t.wstale }
    Ready s 6 srcs [dst] 1 →
      (4 ≤ queued → exec i s = .next (s.leave g .blocked .matrixQueue)) ∧
      (queued < 4 → 4 ≤ t.pendingResults → exec i s = .next (barred .hold s)) ∧
      (queued < 4 → t.pendingResults < 4 → ∃ u, exec i s = .next u ∧
      Launched s' u
        { slot := 6, srcs := srcs, delay := l.toNat, cmd := .matrix x, queue := fun q => { q with mq := q.mq ++ [x] },
          entry := some (lat, .result s.nid [dst]), due := [.matrixCommandStart (coreOf g)],
          keep := fun t => { t with mlp := BitVec.ofNat 64 ((t.mlp.toNat + 4) % 2 ^ 57), pred := some (s.nid, mode, rd.addr),
                                    wstale := t.wstale && !wb },
          free := if mode = 1 ∧ (mixedBlocks fa opA || mixedBlocks fb opB) then 8192 else 0 })
  let named := (tileOperand t b.toNat).map (fun r => (r.addr, vdFmt r.d))
  let held := match t.wref with | some r => Except.ok r | none => .error ⟨0x05, 0, t.ctx.pc⟩
  go (.mmul d a b l) 1 false named ∧ go (.mmulWt d a l) 1 true held ∧ go (.mmula d a b l) 2 false named ∧
  go (.mmulaWt d a l) 2 true held ∧ go (.mmulSp d a b l) 3 false named ∧ go (.mmulSpWt d a l) 3 true held

/-- Convolutions (10 R222-R225): `mconv` and `mconva` launch with the 64 bytes of their descriptor and the vault key of its
activation span, and with no bytes of the virtual operand, which the array reads when it starts the command: R225 leaves the time open,
and this one is the model's choice (DESIGN CHOICE, log 10). -/
def Obligations.MatrixConvolve : Prop := ∀ (d a b : BitVec 6) (l : BitVec 3) (s : State) (w : Nat) (ts : List Tlb) (rd ra : Res),
  let t := s.me
  let g := s.cur.g
  let s' := s.askOver g t.mlp.toNat
  litAt s = .ok (w, ts) → litAsk s = none → t.rp (w / 2 ^ 29 % 8) ≠ w.testBit 28 → w % 2 ^ 28 = 0 → matrixBar s true = none →
  accOperand t d.toNat = .ok rd → resolve t a.toNat = some ra →
  let desc := t.ursRead ra.addr 64
  let fa := (convOf desc).fc
  let go := fun (i : Instr) (op : Nat) (wb : Bool) (bb : Except Flt (Nat × Nat)) => ∀ ba fb key, bb = .ok (ba, fb) →
    intType fa = intType fb → convFlt s desc = .ok key →
    let opB := t.ursRead ba (tileBytes fb)
    let mode := if intType fa then 1 else 0
    let chain := if op = 5 then chainOf t rd.addr mode else none
    let lat := mulLat false fa fb
    let prior := match chain with
      | some id => (s.producedBytes g id).getD []
      | none => if op = 5 then t.ursRead rd.addr 18432 else List.replicate 18432 0#8
    let owed := match chain with
      | some id => if (s.producedBytes g id).isSome then 0 else id + 1
      | none => 0
    let dst := Dst.urs rd.addr 18432
    let srcs : List Dst := [.urs ra.addr 64, .urs ba (tileBytes fb)] ++ (if op = 5 ∧ chain = none then [dst] else [])
    let x : XCmd :=
      { id := s.nid, strand := g, addr := t.ctx.pc, op := op, par := [fa, fb, mode, 0, s.fresh, rd.addr, owed, key],
        data := [[], opB, prior, desc], efr := t.efr.toNat, fxd := s.fxd (coreOf g), lat := some lat, dst := [dst],
        started := false, cls := if wb && !t.wstale then 0 else 1, reuse := wb && !t.wstale }
    Ready s 6 srcs [dst] 1 → ∃ u, exec i s = .next u ∧
      Launched s' u
        { slot := 6, srcs := srcs, delay := l.toNat, cmd := .matrix x, queue := fun q => { q with mq := q.mq ++ [x] },
          entry := some (lat, .result s.nid [dst]), due := [.matrixCommandStart (coreOf g)],
          keep := fun t => { t with mlp := BitVec.ofNat 64 ((t.mlp.toNat + 4) % 2 ^ 57), pred := some (s.nid, mode, rd.addr),
                                    wstale := t.wstale && !wb },
          free := if mode = 1 ∧ (mixedBlocks fa [] || mixedBlocks fb opB) then 8192 else 0 }
  let named := (tileOperand t b.toNat).map (fun r => (r.addr, vdFmt r.d))
  let held := match t.wref with | some r => Except.ok r | none => .error ⟨0x05, 0, t.ctx.pc⟩
  go (.mconv d a b l) 4 false named ∧ go (.mconvWt d a l) 4 true held ∧ go (.mconva d a b l) 5 false named ∧
  go (.mconvaWt d a l) 5 true held

/-- `mwld`, `mdrain` and `mzero` (10 R226-R230): the weight reference is held for the completion of the bundle; a drain
converts the cells of A as read at issue, scaled and rounded, and lands after 24 cycles, clearing the cells in its `.c`
form; `mzero` clears an accumulator after four. -/
def Obligations.MatrixMoves : Prop := ∀ (d a b : BitVec 6) (l : BitVec 3) (z : BitVec 1) (s : State) (w : Nat) (ts : List Tlb),
  let t := s.me
  let g := s.cur.g
  let opt := w % 2 ^ 28
  let s' := s.askOver g t.mlp.toNat
  litAt s = .ok (w, ts) → litAsk s = none → t.rp (w / 2 ^ 29 % 8) ≠ w.testBit 28 →
  let x := fun (op : Nat) (par : List Nat) (data : List (List Byte)) (lat : Option Nat) (dst : List Dst) =>
    ({ id := s.nid, strand := g, addr := t.ctx.pc, op := op, par := par, data := data, efr := t.efr.toNat,
       fxd := s.fxd (coreOf g), lat := lat, dst := dst, started := false, cls := if op = 6 then 1 else 3 } : XCmd)
  let go := fun (i : Instr) (srcs : List Dst) (lands : List (Nat × Eff)) (c : XCmd) (keep : Strand → Strand) =>
    Ready s 6 srcs c.dst (if l ≠ 0#3 ∨ c.lat ≠ none then 1 else 0) → ∃ u, exec i s = .next u ∧
      Launched s' u
        { slot := 6, srcs := srcs, delay := l.toNat, cmd := .matrix c, lands := lands,
          queue := fun q => { q with mq := q.mq ++ [c] }, entry := c.lat.map (fun n => (n, .result s.nid c.dst)),
          due := [.matrixCommandStart (coreOf g)],
          keep := fun t =>
            keep { t with mlp := BitVec.ofNat 64 ((t.mlp.toNat + 4) % 2 ^ 57), pred := some (s.nid, 2, 0) } }
  (∀ r, tileOperand t b.toNat = .ok r → opt = 0 → matrixBar s false = none →
    go (.mwld b l) [.urs r.addr (tileBytes (vdFmt r.d))] [(1, .wref r.addr (vdFmt r.d))] (x 6 [] [] none []) (fun t => t)) ∧
  (∀ r, accOperand t d.toNat = .ok r → opt = 0 → matrixBar s true = none →
    go (.mzero d l) [] [] (x 8 [r.addr] [] (some 4) [.urs r.addr 18432]) (fun t => t)) ∧
  (∀ rd ra rm, tileOperand t d.toNat = .ok rd → accOperand t a.toNat = .ok ra → drainRm t (opt % 8) = some rm →
    fcDense (vdFmt rd.d) = true → opt < 2 ^ 12 → matrixBar s true = none →
    let fc := vdFmt rd.d
    let cells := accCells (t.ursRead ra.addr 18432)
    let els := (List.range 4096).map (fun n =>
      drainCell t fc rm (BitVec.ofNat 8 (opt / 16)).toInt (opt.testBit 3) (n / 64) (n % 64) (cells.getD n 0))
    go (.mdrain d a l z) [.urs ra.addr 18432] []
      (x 7 [rd.addr, ra.addr, z.toNat] [packItems fc els] (some 24)
        (.urs rd.addr (512 * fcWidth fc) :: (if z = 1#1 then [.urs ra.addr 18432] else [])))
      (fun t => if rm = .rsto then t.reserve ((List.range 256).map (fun i => (i, 16))) else t))

/-- The factorisation family (11 R235-R239): `mlu`, `mchol`, `mtri`, `mtrs`, `mqr`, `mqapply`, `mperm` and `mres` launch,
once no result of the strand's earlier matrix commands is still to land (`mres` also once the array holds none of them), with
their tiles and the factor registers as read at issue, and with the tiles and factor registers they write as destinations. Under
the continue action their results land as one entry; under the trap action the strand blocks on the array and slot 6 has
not committed, so that the literal pointer stays. Before that the strand holds position, or `mres` blocks it. That they wait in a
handler for the handler's own results alone is the model's choice (DESIGN CHOICE, log 74). -/
def Obligations.FactorFamily : Prop := ∀ (d a b : BitVec 6) (l : BitVec 3) (z : BitVec 1) (f : BitVec 3) (s : State) (w : Nat)
    (ts : List Tlb) (rd : Res),
  let t := s.me
  let g := s.cur.g
  let opt := w % 2 ^ 28
  let s' := s.askOver g t.mlp.toNat
  litAt s = .ok (w, ts) → litAsk s = none → t.rp (w / 2 ^ 29 % 8) ≠ w.testBit 28 → accOperand t d.toNat = .ok rd →
  let trap := opt % 4 = 0
  let legal := fun (own : Nat) => opt % 4 < 2 ∧ opt / 4 &&& own = opt / 4 ∧ (l = 0#3 ∨ opt % 4 = 1)
  let landed := t.resultDue = false ∧ t.waiting Cmd.lands = false
  let urs := fun (r : Res) => Dst.urs r.addr 18432
  let go := fun (i : Instr) (op tfn : Nat) (ud : Bool) (anm lat : Nat) (q e : Option Res) (wq : Bool) =>
    let acc := fun (r : Res) => t.ursRead r.addr 18432
    let pvr := (List.range 8).map (fun j => Dst.sr (8 + j))
    let kind := t.fsr.toNat / 2 ^ 25 % 8
    let regs := if op = 9 then .sr 6 :: .sr 7 :: pvr else if op = 10 ∨ op = 13 then [.sr 6, .sr 7]
      else if op = 11 ∨ op = 12 then [.sr 6]
      else if op = 16 then .sr 6 :: (if 1 ≤ kind ∧ kind ≤ 3 then [.sr 7] else []) ++ (if kind = 1 then pvr else []) else []
    let dst := urs rd :: (if wq then (q.map urs).toList else []) ++ regs
    let srcs : List Dst := (if op = 12 then [] else [urs rd]) ++ (if op = 13 then [] else (q.map urs).toList) ++
      (e.map urs).toList ++ (List.range 10).map (fun j => Dst.sr (6 + j))
    let x : XCmd :=
      { id := s.nid, strand := g, addr := t.ctx.pc, op := op,
        par := [rd.addr, (q.map Res.addr).getD 0, tfn, if ud then 1 else 0, anm, if trap then 1 else 0, t.fsr.toNat,
          t.gfr.toNat] ++ (List.range 8).map (fun j => (SMap.get 0#64 t.pvr j).toNat) ++ (e.map Res.addr).toList,
        data := [if op = 12 then (e.map acc).getD [] else acc rd, (q.map acc).getD [], (e.map acc).getD []],
        efr := t.efr.toNat, fxd := s.fxd (coreOf g), lat := if trap then none else some lat, dst := dst, started := false }
    Ready s 6 srcs dst (if trap then 0 else 1) →
      (op = 16 → s.inArray g = true → exec i s = .next (s.leave g .blocked .factor)) ∧
      ((op = 16 → s.inArray g = false) → ¬landed → exec i s = .next (barred .hold s)) ∧
      ((op = 16 → s.inArray g = false) → landed → matrixBar s (!(decide trap)) = none → ∃ u, exec i s = .next u ∧
      Launched s' u
        { slot := 6, srcs := srcs, delay := l.toNat, cmd := .matrix x, commits := !(decide trap),
          queue := fun q => if trap ∧ q.pos = some (g % 4) then { q with mq := q.mq ++ [x], pos := none, last := g % 4 }
            else { q with mq := q.mq ++ [x] },
          entry := x.lat.map (fun n => (n, .result s.nid dst)), due := [.matrixCommandStart (coreOf g)],
          keep := fun t =>
            let t1 : Strand := { t with pred := some (s.nid, 2, 0) }
            if trap then { t1 with run := .blocked, wait := .family }
            else { t1 with mlp := BitVec.ofNat 64 ((t.mlp.toNat + 4) % 2 ^ 57) } })
  let apart := fun (r q : Res) => r.addr + 18432 ≤ q.addr ∨ q.addr + 18432 ≤ r.addr
  (legal 4 → go (.mlu d l) 9 (if opt.testBit 4 then 1 else 0) false 0 448 none none false) ∧
  (legal 0 → go (.mchol d l) 10 0 false 0 384 none none false) ∧
  (legal 3 → go (.mtri d l) 11 (if opt.testBit 3 then 2 else 0) (opt.testBit 2) 0 320 none none false) ∧
  (legal 0 → trap → go (.mperm d l z) 15 z.toNat false 0 0 none none false) ∧
  (∀ ra rb, accOperand t a.toNat = .ok ra → accOperand t b.toNat = .ok rb → apart rd ra → (apart rd rb ∨ rd.addr = rb.addr) →
    legal 1 → go (.mtrs d a b l f) 12 f.toNat (opt.testBit 2) a.toNat 256 (some ra) (some rb) false) ∧
  (∀ rq, accOperand t b.toNat = .ok rq → apart rd rq → legal 0 → go (.mqr d b l) 13 0 false b.toNat 4096 (some rq) none true) ∧
  (∀ rq, accOperand t a.toNat = .ok rq → apart rd rq → legal 0 → trap →
    go (.mqapply d a l z) 14 z.toNat false 0 0 (some rq) none false) ∧
  (let fsr := t.fsr.toNat
   let kind := fsr / 2 ^ 25 % 8
   let step := fsr / 2 ^ 18 % 128
   let anm := fsr % 64
   let lat := 8 + [0, 7, 6, 64, 5, 4].getD kind 0 * (64 - step)
   1 ≤ kind → kind ≤ 5 → step < 64 → legal 0 →
     (kind ≠ 3 → kind ≠ 5 → go (.mres d l) 16 0 false anm lat none none false) ∧
     (kind = 3 ∨ kind = 5 → ∀ rq, accOperand t anm = .ok rq → apart rd rq →
       go (.mres d l) 16 0 false anm lat (some rq) none (kind == 3)))

-- Whole-machine rules.

/-- Guards (03 R71, R73, 05 R121): a guarded C, S, L or V operation whose guard is false commits without an effect: of the
whole package only the control context of its strand changes, by its done bit, and a C operation still sets the stall
count of its bundle; `br.a` that is not taken annuls its delay bundles. -/
def Obligations.GuardFalse : Prop := ∀ (k : BitVec 3) (g : BitVec 1) (a1 : BitVec 1) (a2 b2 : BitVec 2) (a3 b3 c3 : BitVec 3) (a4 b4 sc : BitVec 4) (a5 : BitVec 5) (a6 b6 c6 : BitVec 6) (a8 : BitVec 8) (a9 : BitVec 9) (a10 : BitVec 10) (a16 : BitVec 16) (a18 : BitVec 18) (s : State),
  s.me.guard k g = false → s.me.abort = none → s.me.ctx.lq.length ≤ 64 →
  let passes := fun (slot : Nat) (out : COut → COut) (i : Instr) => s.me.ctx.done.testBit slot = false →
    ∃ t, exec i s = .next t ∧ t.cores = s.cores ∧ t.ctlb = s.ctlb ∧ PassedOver s t slot out (fun t => t)
  (∀ i ∈ [Instr.br k g a1 a16 sc, .brZ k g a1 a16 sc, .jmp k g a18 sc, .call k g a18 sc, .ret k g sc, .jr k g a5 sc,
      .rot k g sc, .doneTask k g sc, .trap k g a8 sc, .sys k g a16 sc, .rfe k g sc, .brk k g a8 sc, .segend k g a18 sc,
      .mfsr k g a6 a8 sc, .mtsr k g a6 a8 sc, .isync k g sc, .yield k g sc, .fence k g a2 a3 sc, .drain k g a3 sc],
    passes 0 (fun c => { c with sc := sc.toNat }) i) ∧
  passes 0 (fun c => { c with sc := sc.toNat, annul := true }) (.brA k g a1 a16 sc) ∧
  (∀ i ∈ [Instr.add k g a6 b6 c6, .sub k g a6 b6 c6, .and k g a6 b6 c6, .or k g a6 b6 c6, .xor k g a6 b6 c6,
      .andn k g a6 b6 c6, .shl k g a6 b6 c6, .shrS k g a6 b6 c6, .shrZ k g a6 b6 c6, .rotr k g a6 b6 c6,
      .minS k g a6 b6 c6, .minZ k g a6 b6 c6, .maxS k g a6 b6 c6, .maxZ k g a6 b6 c6, .mul k g a6 b6 c6,
      .mulhS k g a6 b6 c6, .mulhZ k g a6 b6 c6, .divS k g a6 b6 c6, .divZ k g a6 b6 c6, .remS k g a6 b6 c6,
      .remZ k g a6 b6 c6, .clz k g a6 b6, .ctz k g a6 b6, .popc k g a6 b6, .sextB k g a6 b6, .sextH k g a6 b6,
      .sextW k g a6 b6, .zextB k g a6 b6, .zextH k g a6 b6, .zextW k g a6 b6, .cmp k g a3 a6 b6 a4,
      .cmpi k g a4 a3 a6 a9, .sel k g a6 b6 c6 a3, .pand k g a3 b3 c3, .por k g a3 b3 c3, .pxor k g a3 b3 c3,
      .pnot k g a3 b3, .pmov k g a3 b3, .addi k g a6 b6 a10, .andi k g a6 b6 a10, .ori k g a6 b6 a10,
      .xori k g a6 b6 a10, .andni k g a6 b6 a10, .shli k g a6 b6 c6, .shriS k g a6 b6 c6, .shriZ k g a6 b6 c6,
      .lui k g a6 a16, .fadd k g a6 b6 c6, .fsub k g a6 b6 c6, .fmul k g a6 b6 c6, .fma k g a6 b6 c6,
      .fcmp k g a3 a6 b6 a4, .fcvtF2iS k g a6 b6, .fcvtF2iZ k g a6 b6, .fcvtI2fS k g a6 b6, .fcvtI2fZ k g a6 b6,
      .fcvtF2h k g a6 b6, .fcvtH2f k g a6 b6, .fcvtF2b k g a6 b6, .fcvtB2f k g a6 b6, .sGet k g a6 b6 c6 a2 b2,
      .sPut k g a6 b6 c6 a2],
    passes 1 (fun c => c) i) ∧
  (∀ i ∈ [Instr.ldBS k g a6 a5 a1 a4 b6, .ldBZ k g a6 a5 a1 a4 b6, .ldHS k g a6 a5 a1 a4 b6, .ldHZ k g a6 a5 a1 a4 b6,
      .ldWS k g a6 a5 a1 a4 b6, .ldWZ k g a6 a5 a1 a4 b6, .ldD k g a6 a5 a1 a4 b6, .stB k g a6 a5 a1 a4 b6,
      .stH k g a6 a5 a1 a4 b6, .stW k g a6 a5 a1 a4 b6, .stD k g a6 a5 a1 a4 b6, .ldV k g a6 a5 a1 a4 b4,
      .stV k g a6 a5 a1 a4 a2 b4, .ldBlk k g a6 a5 a1 a4 b4, .stBlk k g a6 a5 a1 a4 a2 b4, .pf k g a5 a1 a4 a6,
      .atom k g a6 a5 b6 a1 a4, .ldRow k g a6 a5 a1 a4 b4, .ldFw k g a6 a5 a1 a4 b4, .stFw k g a6 a5 a1 a4 a2 b4],
    passes 4 (fun c => c) i) ∧
  (∀ i ∈ [Instr.vaddF k g a6 b6 a2 c6 b2, .vsubF k g a6 b6 a2 c6 b2, .vmulF k g a6 b6 a2 c6 b2, .vfmaF k g a6 b6 a2 c6 b2,
      .vminF k g a6 b6 a2 c6 b2, .vmaxF k g a6 b6 a2 c6 b2, .vabsF k g a6 b6 a2, .vnegF k g a6 b6 a2, .vrcp k g a6 b6 a2,
      .vrsq k g a6 b6 a2, .vexp2 k g a6 b6 a2, .vlog2 k g a6 b6 a2, .vaddI k g a6 b6 a2 c6 b2, .vsubI k g a6 b6 a2 c6 b2,
      .vmulI k g a6 b6 a2 c6 b2, .vminI k g a6 b6 a2 c6 b2, .vmaxI k g a6 b6 a2 c6 b2, .vand k g a6 b6 a2 c6 b2,
      .vor k g a6 b6 a2 c6 b2, .vxor k g a6 b6 a2 c6 b2, .vshl k g a6 b6 a2 c6 b2, .vshrS k g a6 b6 a2 c6 b2,
      .vshrZ k g a6 b6 a2 c6 b2, .vcmpF k g a3 b3 a6 a2 b6 b2, .vcmpI k g a3 b3 a6 a2 b6 b2, .vsel k g a6 b6 a2 c6 b2,
      .vcvt k g a6 b6 a2, .vpack k g a6 b6 a2, .vunpack k g a6 b6 a2, .vsum k g a6 b6 a2, .vdot k g a6 b6 a2 c6 b2,
      .vperm k g a6 b6 a2 c6 b2, .vbcast k g a6 b6, .vmov k g a6 b6 a2, .vld k g a6 a5 a1 a4, .vseedSet k g a6 a2,
      .vseedGet k g a6, .vdecay k g a6 b6 a2, .vfwadd k g a6 b6 a2 c6 b2],
    passes 5 (fun c => c) i)

/-- CompleteBundle, annulled bundles and stall cycles (05 R116-R118, 03 R73, 09 R198, 01 R24, R25): the PC goes to the head of the
branch-pending FIFO when its count runs out and to the next bundle otherwise; every count falls by one, those of the landing
queue too; a redirect enters with count 2; the annul count falls or becomes 2; a change of EFR takes effect when its count runs
out; the clock of the strand counts one. An annulled bundle does the same without an operation, once no stop, no spent budget and
no hold keeps the strand from issuing, and a stall cycle only lets the clock run and the counts of the landing queue fall (that of
a `yield` ends in its switch, that of an `rfe` in its return). A strand that a debug step names stops when its bundle is
complete (19 R386). Shown where no landing falls due in the cycle: one that does is shown by the next statement. -/
def Obligations.BundleControl : Prop := ∀ (s : State) (g : Nat), s.live = true → s.inPos g = true →
  let x := s.strand g
  let c := x.ctx
  (∀ z ∈ c.lq, 2 ≤ z.rem) → c.buf = [] → c.cout.after = .none →
  let next := (c.pc + 32) % 2 ^ 57
  let older := c.lq.map (fun z => { z with rem := z.rem - 1 })
  let completes := fun (i : Instr) => ∃ t, exec i s = .next t ∧ OnlyStrand s t g ∧
    let y := t.strand g
    y.ctx.pc = (match c.bpf with | e :: _ => if e.count ≤ 1 then e.target else next | [] => next) ∧
    y.ctx.bpf = (match c.bpf with | e :: l => if e.count ≤ 1 then l else e :: l | [] => []).map
        (fun (e : Bpf) => { e with count := e.count - 1 }) ++
      (match c.cout.redirect with | some (a, rot) => [⟨a, 2, rot⟩] | none => []) ∧
    y.ctx.anc = (if c.cout.annul then 2 else c.anc - 1) ∧ y.ctx.sc = c.cout.sc ∧ y.ctx.done = 0 ∧ y.ctx.buf = [] ∧
    y.ctx.cout = {} ∧ y.ctx.lq = older ∧
    y.ctx.efrP = (c.efrP.filter (fun e => decide (1 < e.1))).map (fun e => (e.1 - 1, e.2)) ∧
    y.efr = ((c.efrP.filter (fun e => decide (e.1 ≤ 1))).getLast?.map Prod.snd).getD x.efr ∧
    y.cyc = x.cyc + 1#64 ∧ y.sev = sevAdd x.sev 0 c.evDual c.evDead ∧
    y.pends = x.pends ++ c.held ∧ ({ y with pends := x.pends } : Strand).beside = x.beside
  (s.stepArm ≠ some g →
    (c.done = 0xFF → completes (.bundleComplete g)) ∧
    (s.mayGo g = true → x.hold = .none → c.done = 0 → c.sc = 0 → c.anc ≠ 0 → completes (.annulledBundle g)) ∧
    (c.sc ≠ 0 → x.hold ≠ .yield → (∀ a, x.hold ≠ .rfe a) → x.hold.isTrap = false → ∃ t, exec (.stallCountExpiry g) s = .next t ∧ OnlyStrand s t g ∧
      (t.strand g).ctx = { c with sc := c.sc - 1, lq := older } ∧ (t.strand g).cyc = x.cyc + 1#64 ∧
      (t.strand g).beside = x.beside)) ∧
  (s.stepArm = some g → x.hold = .none →
    let stops := fun (i : Instr) => ∃ t, exec i s = .next t ∧ (t.strand g).run = .stopped ∧ (t.core (coreOf g)).pos = none ∧
      t.frz = 1 ∧ t.stepArm = none ∧ ∀ h, h ≠ g → t.strand h = s.strand h
    (c.done = 0xFF → c.cout.sc = 0 → stops (.bundleComplete g)) ∧
    (s.mayGo g = true → c.done = 0 → c.sc = 0 → c.anc ≠ 0 → c.cout.sc = 0 → stops (.annulledBundle g)) ∧
    (c.sc = 1 → stops (.stallCountExpiry g)))

/-- How effects take place (01 R25-R27, 03 R74, 06 R133): an effect held for a bundle is written at its completion; in each
strand cycle the counts of the landing queue fall by one, and an entry whose count falls to zero lands in it (shown in a stall
cycle); an entry of the landing queue whose count has run out lands, a matrix result from its buffer; an entry that waits for a
start delay launches its command, a permit after the lines that its cluster's tile cache holds within its tiles are written back, and
given up where it stores (15 R315). -/
def Obligations.EffectsLand : Prop := ∀ (s : State) (g : Nat) (e : Eff), (s.strand g).filed = true →
  let x := s.strand g
  let k := coreOf g
  (∀ slot, Completing s g [⟨slot, e⟩] → (∀ o, e ≠ .mem o) → ∃ t, exec (.bundleComplete g) s = .next t ∧ OnlyStrand s t g ∧
    EffectOf e x (t.strand g) ∧
    (∀ v, e = .efr v → (t.strand g).ctx.efrP.getLast? = some (2, v &&& 0xFF3F#64)) ∧
    (∀ v, e = .sys 5 v → (t.strand g).sev = sevAdd (v &&& 0xFFFFFFFFFFFF#64) 0 x.ctx.evDual x.ctx.evDead)) ∧
  (∀ (a b : List Landing) (ad sl : Nat), s.live = true → s.inPos g = true → s.stepArm ≠ some g → x.hold = .none →
    x.ctx.sc ≠ 0 → x.ctx.lq = a ++ ⟨1, ad, sl, .eff e⟩ :: b → (∀ z ∈ a ++ b, 2 ≤ z.rem) → (∀ o, e ≠ .mem o) →
    ∃ t, exec (.stallCountExpiry g) s = .next t ∧ OnlyStrand s t g ∧ EffectOf e x (t.strand g) ∧
      (t.strand g).cyc = x.cyc + 1#64 ∧
      ({ (t.strand g).ctx with efrP := x.ctx.efrP } : Ctx) =
        { x.ctx with sc := x.ctx.sc - 1, lq := (a ++ b).map (fun z => { z with rem := z.rem - 1 }) }) ∧
  (∀ (a b : List Landing) (ad sl : Nat), s.live = true → (∀ z ∈ a, z.rem ≠ 0) →
    (x.ctx.lq = a ++ ⟨0, ad, sl, .eff e⟩ :: b → (∀ o, e ≠ .mem o) → ∃ t, exec (.landing g) s = .next t ∧ OnlyStrand s t g ∧
      EffectOf e x (t.strand g) ∧ ({ (t.strand g).ctx with efrP := x.ctx.efrP } : Ctx) = { x.ctx with lq := a ++ b }) ∧
    (∀ id ds r, x.ctx.lq = a ++ ⟨0, ad, sl, .result id ds⟩ :: b → (∀ o, e ≠ .mem o) →
      (s.core k).results.find? (fun r => r.id == id && r.strand == g) = some r → r.effs = [e] → r.moved = none →
      ∃ t, exec (.landing g) s = .next t ∧ EffectOf e x (t.strand g) ∧ (t.strand g).ctx.lq = a ++ b ∧ t.mem = s.mem ∧
        (∀ h, h ≠ g → t.strand h = s.strand h) ∧
        t.core k = { s.core k with results := (s.core k).results.filter (fun r => !(r.id == id && r.strand == g)) }) ∧
    (∀ c, x.ctx.lq = a ++ ⟨0, ad, sl, .launch c⟩ :: b →
      let v := match c with
        | .nm n => if n.op = 8 then s.wbTiles (cluOf n.strand) (permitLine s n) (decide (n.par.getD 1 0 = 2)) else s
        | _ => s
      ∃ t, exec (.engineLaunch g) s = .next t ∧ t.mem = v.mem ∧ t.bad = v.bad ∧ t.tiles = v.tiles ∧ t.tileOut = v.tileOut ∧
      (∀ h, h ≠ g → t.strand h = s.strand h) ∧
      match c with
      | .copy y => (t.strand g).ctx.lq = a ++ b ∧ t.core k = { s.core k with copies := (s.core k).copies ++ [y] }
      | .matrix y => t.core k = { s.core k with mq := (s.core k).mq ++ [y] } ∧
          (t.strand g).ctx.lq = a ++ (y.lat.map (fun n => (⟨n, ad, sl, .result y.id y.dst⟩ : Landing))).toList ++ b
      | .nm n => (t.strand g).ctx.lq = a ++ b ∧
          (n.op = 7 → (t.strand g).joins = x.joins ++ n.pcs.map (fun p => (p.key, p.va))) ∧
          (n.op = 8 → SMap.get [] t.permits (dieOf n.strand * 32 + n.par.getD 0 0) =
            SMap.get [] s.permits (dieOf n.strand * 32 + n.par.getD 0 0) ++ [{ n with phase := 1 }]) ∧
          (n.op < 7 → t.core k = { s.core k with nmq := (s.core k).nmq ++ [{ n with phase := 1 }] })))

/-- Taking a trap (06 R137-R139, R145, R146, 18 R368): outside a handler, with a usable vector record (ENTRY `e`, STACK `k`),
the control context with a30 and a31 is frozen, TCR, TAR and TSL say what happened, the strand goes on at ENTRY in handler
mode with an empty control context, a30 at the end of its stack window and a31 zero. In a handler a second cause aborts the
task once TCR and TAR have been read, and stops the strand with a report before. A protection or storage error aborts, in a
handler or out of it as a first cause, and so does an error met in the vector record (20 R405). A vector record behind a fabric window
is first asked of its peer (21 R417), and the entry waits for it (the model's choice: DESIGN CHOICE, log 112). The clock counts the core
clock in which a bundle that had not issued faults (DEDUCED, log 71). -/
def Obligations.TrapEntry : Prop := ∀ (s : State) (g slot : Nat) (f : Flt), SMap.rising (s.strand g).areg = true →
  (s.strand g).ownPends = [] → (s.reg (cluOf g / 18) (trBlock (cluOf g) + 32)).testBit 0 = false →
  let x := s.strand g
  let t := s.raise g slot f
  let y := t.strand g
  let tsl := BitVec.ofNat 64 ((if x.dly then 2 ^ 24 else 0) + x.heldCount % 256 * 2 ^ 16 + x.ctx.done % 256 * 256 + slot % 8)
  let word := fun (h : Nat) => BitVec.ofNat 64 (f.detail % 65536 * 2 ^ 32 + h + f.cause % 256)
  let addr := f.addr % 2 ^ 57
  let s' := s.askOver g (s.preg x.part 16)
  let aborted := fun (second : Bool) =>
    y.abort = some ⟨f.cause, f.detail, addr, tsl, second⟩ ∧ y.run = .blocked ∧ y.wait = .actions ∧ y.ctx.lq = [] ∧
    t.mem = s.mem ∧ t.work = s.work ++ [.taskAbort g]
  (f.cause = 0x20 ∨ f.cause = 0x21 → aborted false) ∧
  (f.cause ≠ 0x20 → f.cause ≠ 0x21 →
    (x.hmode = true → x.seen = 3 → aborted true) ∧
    (x.hmode = true → x.seen ≠ 3 → y.run = .stopped ∧ y.tcr2 = word 256 ∧ y.tar2 = BitVec.ofNat 64 addr ∧ t.mem = s.mem ∧
      y.ctx = x.ctx ∧ y.tcr = x.tcr ∧
      ∃ r, SMap.get [] t.faults (dieOf g) = SMap.get [] s.faults (dieOf g) ++ [r] ∧ r.kind = 2 ∧ r.strand = g ∧ r.tcr2 = word 256) ∧
    (∀ va, x.hmode = false → s.vectorBad g x.part = some va → t.mem = s.mem ∧ y.run = .blocked ∧
      y.abort = some ⟨0x21, 0, va % 2 ^ 57, tsl, false⟩) ∧
    (∀ ps, x.hmode = false → s.vectorBad g x.part = none → s.vectorAsk g = some ps → t.mem = s.mem ∧ y.hmode = false ∧
      y.ctx = x.ctx ∧ y.hold = .trap ⟨f.cause, f.detail, f.addr, slot, x.ctx.done, x.heldCount, x.dly, f.cause == 0x0B⟩) ∧
    (∀ e k, x.hmode = false → s.vectorBad g x.part = none → s.vectorAsk g = none → s.trapVector g x.part = some (e, k) →
      OnlyStrand s' t g ∧
      y.hmode = true ∧ y.ctx = { pc := e } ∧ y.seen = 0 ∧ y.hstack = k ∧
      y.frozen = some ({ x.ctx with csbpass := f.cause == 0x0B }, x.ra 30, x.ra 31) ∧
      y.tcr = word 0 ∧ y.tar = BitVec.ofNat 64 addr ∧ y.tsl = tsl ∧
      (∀ n, y.ra n = if n = 30 then BitVec.ofNat 64 (k + 4096 * (g + 1)) else if n = 31 then 0#64 else x.ra n) ∧
      y.cyc = (if x.ctx.done = 0 then x.cyc + 1#64 else x.cyc) ∧
      ({ y with
        ctx := x.ctx, areg := x.areg, frozen := x.frozen, tcr := x.tcr, tar := x.tar, tsl := x.tsl, hmode := x.hmode,
        hstack := x.hstack, hold := x.hold, seen := x.seen, cyc := x.cyc, segc := x.segc, adv := x.adv } : Strand) = s'.strand g) ∧
    (x.hmode = false → s.vectorBad g x.part = none → s.vectorAsk g = none → s.trapVector g x.part = none → y.run = .stopped ∧ y.hmode = true ∧ y.tcr = word 0 ∧
      y.tcr2 = BitVec.ofNat 64 (256 + 0x01)))

/-- What follows a completed bundle, and what holds a strand (05 R124-R128, R132, 06 R142, 12 R258-R262, 03 R92): traps,
`rfe`, which restores the frozen context (in the last of its stall cycles, where it has some), `done`, which asks the flush engine for the end of its task, `yield`, which gives up
position where another strand is ready, `segend`, which spends the row's budget; the stall count of an `rfe` or a `yield` elapses
first (03 R73; DEDUCED, log 72), and the clock in which a held `rfe` returns counts (DEDUCED, log 71). A blocked strand whose
condition has cleared becomes ready; an empty position goes to the next ready strand in cyclic order; a bundle that cannot be
fetched and a word that decodes to nothing raise 0x01 and 0x03, and what the strand has asked of peers is not used. -/
def Obligations.HoldsAndReturns : Prop := ∀ (s : State) (g : Nat), s.live = true →
  let x := s.strand g
  let k := coreOf g
  (s.inPos g = true → s.stepArm ≠ some g → x.hold = .done → s.doneReady g = true → s.replayAny g = none →
    x.cursor = 0#128 →
    ∃ t, exec (.positionHoldEnd g) s = .next t ∧ t.mem = s.mem ∧ (t.strand g).run = .blocked ∧ (t.strand g).wait = .actions ∧
      (t.strand g).hold = .none ∧ (t.strand g).ph = 2 ∧ (t.core k).pos = none ∧ t.work = s.work ++ [.endOfTaskActions g] ∧
      t.edgeQ = s.edgeQ.filter (fun h => h != g) ++ [g]) ∧
  (∀ a c u v, s.inPos g = true → s.stepArm ≠ some g → x.hold = .rfe a → x.ctx.lq = [] → x.ctx.sc ≤ 1 →
    x.frozen = some (c, u, v) → SMap.rising x.areg = true →
    ∃ t, exec (if x.ctx.sc = 0 then .positionHoldEnd g else .stallCountExpiry g) s = .next t ∧ OnlyStrand s t g ∧
      let y := t.strand g
      y.ctx = { c with first := c.first.map (fun f => (s.nid, f.2)) } ∧ y.frozen = none ∧ y.hmode = false ∧ y.hold = .none ∧
      (∀ n, y.ra n = if n = 30 then u else if n = 31 then v else x.ra n) ∧
      y.efr = (x.ctx.efrP.getLast?.map Prod.snd).getD x.efr ∧ y.cyc = x.cyc + 1#64 ∧
      ({ y with
        ctx := x.ctx, areg := x.areg, frozen := x.frozen, hmode := x.hmode, hold := x.hold, efr := x.efr, cyc := x.cyc,
        segc := x.segc } : Strand) = x) ∧
  (∀ b, s.inPos g = true → x.hold = .breakdown b → exec (.positionHoldEnd g) s =
    .next (s.trapEntry g 0x10 b x.ctx.pc 6 x.ctx.done x.heldCount x.dly false)) ∧
  (∀ a, s.inPos g = true → s.stepArm ≠ some g → x.ctx.done = 0xFF → x.ctx.lq = [] → x.ctx.buf = [] → x.ctx.held = [] →
    x.ctx.cout.redirect = none → x.ctx.cout.after = a →
    ∃ t, exec (.bundleComplete g) s = .next t ∧ match a with
      | .done => (t.strand g).hold = .done ∧ (t.strand g).ctx.bpf = [] ∧ (t.strand g).ctx.anc = 0 ∧ OnlyStrand s t g
      | .yield =>
        if x.ctx.cout.sc ≠ 0 then (t.strand g).hold = .yield ∧ OnlyStrand s t g
        else if s.otherReady g then
          (t.strand g).run = .ready ∧ (t.strand g).wait = .yielded ∧ (t.core k).pos = none ∧ t.mem = s.mem
        else (t.strand g).run = .inPos ∧ OnlyStrand s t g
      | .trap cause detail => x.hmode = false → s.vectorBad g x.part = none → s.vectorAsk g = none → (t.strand g).hmode = true ∧
          (t.strand g).tcr = BitVec.ofNat 64 (detail % 65536 * 2 ^ 32 + cause % 256) ∧
          (t.strand g).tar = BitVec.ofNat 64 (x.ctx.pc % 2 ^ 57) ∧
          ((t.strand g).frozen.map (fun f => f.1.done)) = some 0
      | .segend cost => (t.strand g).segc = 0 ∧ (t.core k).left = (s.core k).left - cost ∧ t.mem = s.mem ∧
          ((t.core k).spent = true ↔ (s.core k).left ≤ cost ∧ (s.core k).budget ≠ 0 ∧ (s.core k).stop = .none)
      | .rfe => if x.ctx.cout.sc ≠ 0 then (t.strand g).hold = .rfe x.ctx.pc ∧ OnlyStrand s t g
          else ∀ c u v, x.frozen = some (c, u, v) → (t.strand g).hmode = false ∧ (t.strand g).frozen = none ∧
            (t.strand g).ctx.pc = c.pc
      | .none => OnlyStrand s t g) ∧
  (x.run = .blocked → s.blockOver g = true → ∃ t, exec (.blockClear g) s = .next t ∧
    ({ t with strands := s.strands } : State) = s ∧ (∀ h, h ≠ g → t.strand h = s.strand h) ∧
    t.strand g = { x with run := .ready, wait := .none }) ∧
  (∀ c i, (s.core c).pos = none → (s.core c).stop = .none → 1 ≤ i → i ≤ 4 →
    (∀ j, 1 ≤ j → j < i → (s.strand (4 * c + ((s.core c).last + j) % 4)).run ≠ .ready) →
    (s.strand (4 * c + ((s.core c).last + i) % 4)).run = .ready →
    let h := 4 * c + ((s.core c).last + i) % 4
    ∃ t, exec (.strandSwitch c) s = .next t ∧ (t.core c).pos = some (h % 4) ∧ t.strand h = { s.strand h with run := .inPos, wait := .none } ∧
      ∀ j, j ≠ h → t.strand j = s.strand j) ∧
  (s.atIssue g = true → x.due = none → s.bundleAt g x.ctx.pc = none → s.fetchAsk g x.ctx.pc = none →
    ∃ c, (c = 0x01 ∨ c = 0x21) ∧ (s.bad = [] → c = 0x01) ∧
      exec (.bundleFetchFault g) s = .next ((s.asksOver g).raise g 0 ⟨c, 0, x.ctx.pc⟩)) ∧
  (∀ (j : BitVec 3) bs ts, s.atIssue g = true → x.due = none → x.ctx.done = 0 → x.ctx.lq.length ≤ 64 →
    s.bundleAt g x.ctx.pc = some (bs, ts) → (∀ n < j.toNat, (words bs).getD n 0#32 = 0#32) →
    (words bs).getD j.toNat 0#32 ≠ 0#32 → decodeSlot j.toNat ((words bs).getD j.toNat 0#32) = none →
    exec (.illegalEncoding g j) s =
      .next (({ (keepTlbs ts { s with cur := { g := g } }).asksOver g with cur := { g := g, slot := j.toNat } } : State).raise g
        j.toNat ⟨0x03, 0, x.ctx.pc⟩))

-- Events of the core and its engines.

/-- Data that arrives (06 R134, R135, 07 R166, 08 R177, R181, R188, 17 R347, R355): while no bundle of the strand is partly
committed, a load, a `vld` or an atomic whose bytes are fixed or can be read (with the outstanding stores that the strand sees laid
over them) delivers them to its destination, a signed load extended, a freewheel block decayed to the view captured at issue, and
a request to a peer that it needed is over; an error is recorded against the destination. For a task whose actions are under way,
which issues no more, what arrives is discarded (07 R166), and an error in it counted in IERR.UNC (20 R405). -/
def Obligations.Arrivals : Prop := ∀ (s : State) (g n : Nat) (p : Pend) (a b : List Pend) (bs : List Byte), s.live = true →
  let x := s.strand g
  x.filed = true → x.ctx.done = 0 → x.pends = a ++ p :: b → p.id = n → (∀ q ∈ a ++ b, q.id ≠ n) →
  let x0 : Strand := { x with pends := a ++ b }
  let whole := fun (ms : List (Option Byte)) (z : List Byte) => (ms.zip z).map (fun e => e.1.map (fun m => (m, e.2)))
  let made := fun (i : Instr) (e : Eff) => ∃ t, exec i s = .next t ∧ OnlyStrand (s.landed n) t g [0x36018, 0x36020] ∧
    EffectOf e x0 (t.strand g)
  (p.err = none → (p.kind.isAtom = true ∨ s.ready n = true) →
      (p.val = some bs ∨ p.val = none ∧ p.known = [] ∧ p.pcs ≠ [] ∧ (∀ z ∈ p.pcs, z.cls ≠ .cached) ∧ s.badAt 0 p.pcs = none ∧
        (∀ q ∈ a ++ b, q.val = none → piecesMeet q.pcs p.pcs = false) ∧ bs = s.forward g p.pcs (s.loadBelow p.pcs)) →
    (x.wait = .actions → p.kind.isToken = false → (p.kind.isAtom = true → p.val = some bs) → ∃ t, exec
      (if p.kind.isAtom then .atomicReturn g n else if p.vld then .vldDataArrival g n else .loadDataArrival g n) s = .next t ∧
      OnlyStrand (s.landed n) t g [0x36018, 0x36020] ∧ t.strand g = x0) ∧
    (x.wait ≠ .actions →
    (∀ d sz sg, p.kind = .scalar d sz sg → p.vld = false → bs.length = sz → 1 ≤ sz → sz ≤ 8 →
      made (.loadDataArrival g n) (.sreg d (if sg then (BitVec.ofNat (8 * sz) (leNat bs)).signExtend 64
        else BitVec.ofNat 64 (leNat bs)))) ∧
    (∀ ad ms, p.kind = .urs ad ms →
      made (if p.vld then .vldDataArrival g n else .loadDataArrival g n) (.urs ad (whole ms bs))) ∧
    (∀ d sz ix, p.kind = .atom d sz ix → p.val = some bs →
      made (.atomicReturn g n) (.sreg d (BitVec.ofNat 64 (leNat bs)))) ∧
    (∀ ad ms row dc now thr, p.kind = .fw ad ms row 0 dc now thr → p.vld = false →
      made (.loadDataArrival g n) (.urs ad (whole ms bs))) ∧
    (∀ ad ms fc dc now thr z, p.kind = .fw ad ms false fc dc now thr → p.vld = false → fc ≠ 0 → bs.length = 64 →
      (fwMalformed fc bs = true ∧ z = bs ∨ fwMalformed fc bs = false ∧
        (fwReadBlock fc dc now bs = .ok z ∨ fwReadBlock fc dc now bs = .early z)) →
      made (.loadDataArrival g n) (.urs ad (whole ms z))))) ∧
  (∀ va, p.err = some va → p.val = some bs → p.kind.isToken = false → p.kind.isAtom = false →
    ∃ t, exec (if p.vld then .vldDataArrival g n else .loadDataArrival g n) s = .next t ∧
      if x.wait = .actions then OnlyStrand (s.landed n) t g [0x80200] ∧ t.strand g = x0 ∧
        (SMap.rising s.regs = true → t.reg 0 0x80200 / 2 ^ 32 = min (2 ^ 32 - 1) (s.reg 0 0x80200 / 2 ^ 32 + 1) ∧
          t.reg 0 0x80200 % 2 ^ 32 = s.reg 0 0x80200 % 2 ^ 32)
      else OnlyStrand (s.landed n) t g ∧ t.strand g = { x0 with errs := x.errs ++ p.dsts.map (fun d => (d, 0x21, va)) })

/-- The matrix array (10 R225, R230, 11 R239, R243, 12 R270, R440): it starts the first command whose input is there, a
convolution with its activations as they stand then (R225 leaves the time open: the model's choice, DESIGN CHOICE, log 10);
what the cells of a product and the steps of a family command hold is the last statement's; an error met in a command's accumulator
path is recorded against its destinations; a produced result takes one of four buffers, which the oldest result of a
strand out of position gives up for the pending-result area of its save slot where none is free, and waits in the array where
there is none of that kind either, and while the core is to switch to the owner of a buffered result (12 R265; before the move of R440:
DEDUCED, log 109); a family command under the trap action writes its results in place and makes its strand ready
with slot 6 committed and its literal word consumed, with a breakdown to be taken when it stopped at one, but for a strand whose task is
aborted, which issues no more. -/
def Obligations.MatrixEvents : Prop := ∀ (s : State) (c : Nat) (x : XCmd) (b : List XCmd), s.live = true →
  let k := s.core c
  let g := x.strand
  k.mq = x :: b → (∀ y ∈ b, y.id ≠ x.id ∧ y.started = false) →
  (x.started = false → x.par.getD 6 0 = 0 → s.bad = [] →
    let x1 : XCmd := if x.op = 4 ∨ x.op = 5 then
        { x with data := x.data.set 0 (s.convTile (convOf (x.data.getD 3 [])) (x.par.getD 7 0)), started := true }
      else { x with started := true }
    ∃ t, exec (.matrixCommandStart c) s = .next t ∧
      ({ t with cores := s.cores, work := s.work } : State) = s ∧ t.core c = { k with mq := x1 :: b } ∧
      (∀ j, j ≠ c → t.core j = s.core j) ∧
      t.work = s.work ++ (if x.lat.isSome ∨ x.op = 6 then [.matrixResultProduced c]
        else [.factorisationBreakdown c, .familyCommandDone c])) ∧
  (x.started = true → x.op = 6 → ∃ t, exec (.matrixResultProduced c) s = .next t ∧ t.core c = { k with mq := b } ∧
    t.mem = s.mem ∧ ∀ h, t.strand h = s.strand h) ∧
  (x.started = true → x.op ≠ 6 → x.lat ≠ none → x.taint = [] → (x.op = 4 ∨ x.op = 5 → x.par.length ≤ 8) →
    let held := (k.results.filter (fun r => r.moved.isNone)).length
    let gives := fun (t : State) (before : List MRes) => exec (.matrixResultProduced c) s = .next t ∧
      (t.core c).mq.map XCmd.id = b.map XCmd.id ∧
      ∃ effs, (t.core c).results = before ++ [⟨x.id, g, effs, none, if 9 ≤ x.op then some x else none⟩] ∧
        (x.lost = true → ∀ e ∈ effs, ∀ d ∈ effDst e, .err d noAddr ∈ effs) ∧
        (x.lost = false → x.op = 8 → effs = [.urs (x.par.getD 0 0) (List.replicate 18432 (some (0xFF#8, 0#8)))]) ∧
        (x.lost = false → x.op = 7 → x.par.getD 2 0 = 0 →
          effs = [.urs (x.par.getD 0 0) ((x.data.getD 0 []).map (fun z => some (0xFF#8, z)))]) ∧
        (x.lost = false → 1 ≤ x.op → x.op ≤ 5 →
          effs = [.urs (x.par.getD 5 0) ((accBytes (mulCells x)).map (fun z => some (0xFF#8, z)))]) ∧
        (x.lost = false → 9 ≤ x.op → effs = famEffs x)
    (held < 4 → ∃ t, gives t k.results ∧ t.mem = s.mem) ∧
    (∀ u o v, 4 ≤ held → s.ownerTurn c = none → k.results = u ++ o :: v → o.moved = none → s.inPos o.strand = false → (∀ r ∈ u ++ v, r.id ≠ o.id) →
      (∀ r ∈ u, r.moved ≠ none ∨ s.inPos r.strand = true) → Memory.wf s.mem = true →
      ∃ t a i, i < 4 ∧ a = s.preg (s.strand o.strand).part 24 + 2 ^ 19 * o.strand + 0x42000 + 0x4800 * i ∧
        gives t (u ++ { o with moved := some (a, s.fresh) } :: v) ∧
        ∀ y, (y < a ∨ a + 0x4800 ≤ y) → t.memRead y 1 = s.memRead y 1) ∧
    (4 ≤ held → (∀ r ∈ k.results, r.moved ≠ none ∨ s.inPos r.strand = true) ∨ s.ownerTurn c ≠ none →
      ∃ t, exec (.matrixResultProduced c) s = .next t ∧ t.core c = { k with mq := { x with cls := 3, stalled := true } :: b } ∧ t.mem = s.mem ∧
        ∀ h, t.strand h = s.strand h)) ∧
  (x.started = true → x.lat = none → 9 ≤ x.op → x.taint = [] →
    let w := s.applyEffs g (withLoss x.lost (famEffs x))
    let ends := fun (i : Instr) (h : Hold) => ∃ t, exec i s = .next t ∧ t.mem = w.mem ∧ (t.core c).mq = b ∧
      (coreOf g = c → t.strand g = if (s.strand g).abort.isSome then w.strand g else { w.strand g with
        run := .ready, wait := .none, hold := h, mlp := BitVec.ofNat 64 (((w.strand g).mlp.toNat + 4) % 2 ^ 57),
        ctx := markDone 6 (w.strand g).ctx }) ∧
      ∀ j, j ≠ g → t.strand j = s.strand j
    (x.breaks = none → ends (.familyCommandDone c) .none) ∧
    (∀ kind, x.breaks = some kind → ends (.factorisationBreakdown c) (.breakdown kind)))

/-- Copies (09 R203-R212). A start takes the first copy that may begin, four moving at most; one that needs a peer asks it first and
begins once that has been sent (21 R418). It reads its source, strand store, memory or tensor, whose elements outside the extents read
as the padding (16 R330); an unbound handle, or one whose layout has another format, ends it with 0x30 or 0x31 and nothing moved, and
a stored error with 0x21 after the bytes before it, which is due at the strand's next bundle; a prefetch meets none. The completion
writes the destination and nothing else, frees the entry, and gives the completion word to the token, or, posted, counts it if it
reports an error (0x21 too: DESIGN CHOICE, log 77; an error recorded in the strand store has no address to report: DEDUCED, log 69);
a tile of a peer that it writes in part and that has left the tile cache since it began is asked for first (21 R421). That a copy reads its whole source at its start and writes its whole destination at its completion is the model's
choice (DESIGN CHOICE, log 8). Shown for a strand with no family command in flight where the strand store is written (log 70), and
with no load before a narrow fence (08 R189). -/
def Obligations.CopyEvents : Prop := ∀ (s : State) (c : Nat) (x : CopyCmd) (a b : List CopyCmd), s.live = true →
  let g := x.strand
  let t0 := s.strand g
  c = coreOf g → (s.core c).copies = a ++ x :: b → (∀ y ∈ a ++ b, y.id ≠ x.id) → s.ready x.id = true →
  let fails := fun (h e : Nat) => s.lay t0.part h = none ∧ e = 0x30 ∨ ∃ l, s.lay t0.part h = some l ∧ l.fc ≠ x.fc ∧ e = 0x31
  let sound := ∀ h r k, x.dst = .tens h r k → ∃ l, s.lay t0.part h = some l ∧ l.fc = x.fc
  let word := fun (e n : Nat) => BitVec.ofNat 64 ((if e = 0 then 0 else 2 ^ 63 + e * 2 ^ 48) + n)
  (x.started = false → (∀ y ∈ a, y.started = true ∨ s.ready y.id = false) →
    ((a ++ b).filter (fun y => y.started)).length < 4 →
    let asked := s.copyPeers x = [] ∨ s.flights.any (fun f => f.id == x.id) = true
    let begins := fun (t : State) (bs : List Byte) (w : W64) => exec (.copyStart c) s = .next t ∧
      (t.core c).copies = a ++ { x with started := true, data := bs, word := w } :: b ∧
      [.copyCompletion c x.id] <:+ t.work
    let plain := fun (t : State) => t.mem = s.mem ∧ t.work = s.work ++ [.copyCompletion c x.id]
    let reads := fun (bs : List Byte) =>
      ∃ t, begins t bs (word 0 bs.length) ∧ plain t ∧ ∀ h, t.strand h = s.strand h
    let stops := fun (e : Nat) => ∃ t, begins t [] (word e 0) ∧ plain t ∧ ∀ h, t.strand h = s.strand h
    let spoilt := fun (bs : List Byte) (n va : Nat) => ∃ t, begins t bs (word 0x21 n) ∧ plain t ∧
      t.strand g = { t0 with due := t0.due.or (some (0x21, va)) }
    (¬asked → ∃ t, exec (.copyStart c) s = .next t ∧ t.mem = s.mem ∧ t.cores = s.cores ∧ t.strands = s.strands) ∧
    (asked →
      (∃ t bs w, begins t bs w) ∧
      (x.op ≤ 1 →
        (∀ o, x.src = .urs o → sound → t0.ursBad o x.len = none → reads (t0.ursRead o x.len)) ∧
        (∀ o n, x.src = .urs o → sound → t0.ursBad o x.len = some n → spoilt (t0.ursRead o x.len) n noAddr) ∧
        (∀ va ps, x.src = .mem va ps → sound → s.badAt 0 ps = none → reads (s.loadBelow ps)) ∧
        (∀ va ps n w, x.src = .mem va ps → sound → s.badAt 0 ps = some (n, w) → spoilt (s.loadBelow ps) n w) ∧
        (∀ h r k l, x.src = .tens h r k → sound → s.lay t0.part h = some l → l.fc = x.fc → s.bad = [] →
          (l.cached = false → reads (packItems l.fc ((x.poss r k).map (s.itemRead l)))) ∧
          (l.cached = true → (∀ z ∈ SMap.get [] s.tiles (cluOf g), z.bad = 0) →
            let bs := packItems l.fc (s.elemsRead (cluOf g) t0.part h l (x.poss r k)).2
            ∃ t, begins t bs (word 0 bs.length))) ∧
        (∀ h r k e, x.src = .tens h r k → sound → fails h e → stops e) ∧
        (∀ h r k e, x.dst = .tens h r k → (∀ h r k, x.src ≠ .tens h r k) → fails h e → stops e)) ∧
      (x.op = 2 → x.dst = .none →
        (x.src = .none ∨ (∃ o, x.src = .urs o) ∨ (∃ va ps, x.src = .mem va ps ∧ inAperture va = true) → reads []) ∧
        (∀ va ps, x.src = .mem va ps → inAperture va = false → s.badAt 0 ps = none → reads (s.loadBelow ps)) ∧
        (∀ h r k e, x.src = .tens h r k → fails h e → stops 0)))) ∧
  (x.started = true → t0.filed = true →
    let n := x.data.length
    let whole := x.word.toNat.testBit 63 = false
    let sure := x.word.toNat % 2 ^ 23
    let unfenced := ∀ h, ∀ p ∈ (s.strand h).pends, p.fence = 0
    let done := fun (y : Strand) (t : State) => exec (.copyCompletion c x.id) s = .next t ∧ (t.core c).copies = a ++ b ∧
      (∀ h, h ≠ g → t.strand h = s.strand h) ∧
      (s.isPend g x.id (fun p => p.kind.isToken) = false → t.strand g = y ∧
        (SMap.rising s.regs = true → x.word.toNat.testBit 63 = true →
          t.reg (dieOf g) 0x62010 = (s.reg (dieOf g) 0x62010 + 1) % 2 ^ 64)) ∧
      (∀ d u v, y.pends = u ++ ⟨x.id, .token d, [.s d], [], none, false, none, 0, []⟩ :: v → (∀ q ∈ u ++ v, q.id ≠ x.id) →
        EffectOf (.sreg d x.word) { y with pends := u ++ v } (t.strand g))
    (s.copyAsks x ≠ [] → ∃ t, exec (.copyCompletion c x.id) s = .next t ∧ t.mem = s.mem ∧ t.cores = s.cores ∧
      t.strands = s.strands) ∧
    (s.copyAsks x = [] →
    (∃ t, exec (.copyCompletion c x.id) s = .next t ∧ (t.core c).copies = a ++ b) ∧
    (x.op = 2 ∨ x.dst = .none ∨ x.data = [] → ∃ t, done t0 t ∧ t.mem = s.mem) ∧
    (x.op ≤ 1 → whole →
      (∀ o, x.dst = .urs o → (∀ y ∈ s.inFlight g, y.op ≤ 8) → ∃ t y, done y t ∧ t.mem = s.mem ∧
        EffectOf (.urs o (x.data.map (fun z => some (0xFF#8, z)))) t0 y) ∧
      (∀ va z, x.dst = .mem va [z] → z.len = n → unfenced → ∃ t, done t0 t ∧
        (Memory.wf s.mem = true → ∀ ad, t.memRead ad 1 =
          if z.key ≤ ad ∧ ad < z.key + z.len then (x.data.drop (ad - z.key)).take 1 else s.memRead ad 1)) ∧
      (∀ h r k l, x.dst = .tens h r k → s.lay t0.part h = some l → l.fc = x.fc → unfenced →
        let m := 8 * n / itemBits l.fc
        let ps := (x.poss r k).take m
        let vs := unpackItems l.fc m x.data
        let at0 := fun (p : Pos) => 8 * (l.place p).1 + (l.place p).2
        let w := s.elemsWrite (cluOf g) t0.part h l ps vs
        (l.cached = true → ∃ t, done (w.strand g) t ∧ t.mem = w.mem ∧ t.tiles = w.tiles) ∧
        (l.cached = false → ∃ t, done t0 t ∧ (Memory.wf s.mem = true → vs.length = ps.length →
          (ps.filter l.inside).Pairwise (fun p q => at0 p + itemBits l.fc ≤ at0 q ∨ at0 q + itemBits l.fc ≤ at0 p) →
          (∀ e ∈ ps.zip vs, l.inside e.1 = true → t.itemRead l e.1 = e.2) ∧
          ∀ ad, (∀ p ∈ ps, l.inside p = true → 8 * ad + 8 ≤ at0 p ∨ at0 p + itemBits l.fc ≤ 8 * ad) →
            t.memRead ad 1 = s.memRead ad 1)))) ∧
    (x.op ≤ 1 → ¬whole →
      (∀ o, x.dst = .urs o → (∀ y ∈ s.inFlight g, y.op ≤ 8) → ∃ t y ws, done y t ∧ t.mem = s.mem ∧ EffectOf (.urs o ws) t0 y ∧
        ∀ i < n, (ws[i]? = some none ∧ sure ≤ i) ∨ ∃ z, x.data[i]? = some z ∧ ws[i]? = some (some (0xFF#8, z))) ∧
      (∀ va z, x.dst = .mem va [z] → z.len = n → unfenced → ∃ t, done t0 t ∧ (Memory.wf s.mem = true →
        (∀ i < n, t.memRead (z.key + i) 1 = (x.data.drop i).take 1 ∨
          sure ≤ i ∧ t.memRead (z.key + i) 1 = s.memRead (z.key + i) 1) ∧
        ∀ ad, (ad < z.key ∨ z.key + n ≤ ad) → t.memRead ad 1 = s.memRead ad 1)))))

/-- Near-memory commands and permits (15 R314-R316, 16 R335-R342, 17 R352, R361, R362). A command is performed at its unit and its
completion word, with the bytes written, goes to the token. `nm.radd` writes each element of its row as the sum, minimum, maximum or
second of the stored and the source value, rounded once to nearest even (an exchange of a row image writes its bytes); `nm.fwadd` adds
a row of values to stamped blocks, or merges two stamped rows, by FwAdd and FwMerge of 02, unless a block is malformed or beyond the
horizon, which writes nothing; `nm.opt` steps the momentum and then the weight, each rounded once; `nm.red` combines each word with
its source; no other byte changes. The sweep list gains or loses its handle. A permit starts once it heads its sprocket's queue,
asking the peer whose tensor it moves, and leaves it when its tiles are moved, loads into the vaults and stores into the tensor,
posted or with the completion word to its token. That a command or a permit takes its whole effect at one instant of its course, and
which, is the model's choice (DESIGN CHOICE, log 9). Shown for a strand with no access of its own to the bytes under way (17 R365) and
no load before a narrow fence (08 R189). -/
def Obligations.NearMemoryEvents : Prop := ∀ (s : State) (c : Nat) (x : NmCmd) (b : List NmCmd), s.live = true →
  let g := x.strand
  let t0 := s.strand g
  let par := fun (i : Nat) => x.par.getD i 0
  let unfenced := ∀ h, ∀ p ∈ (s.strand h).pends, p.fence = 0
  (c = coreOf g → (s.core c).nmq = x :: b → (∀ y ∈ b, x.id < y.id) →
    (x.phase = 1 → x.op ≤ 5 → s.replays = [] → unfenced → s.badAt 0 x.pcs = none → (∀ o ∈ t0.outs, piecesMeet o.op.pcs x.pcs = false) →
      (∀ p ∈ t0.pends, piecesMeet p.pcs x.pcs = false) → Memory.wf s.mem = true →
      let does := fun (w : W64) (p : State → Prop) => ∃ t, exec (.nmCommandExecute c x.id) s = .next t ∧
        (t.core c).nmq = { x with phase := 2, word := w } :: b ∧ t.work = s.work ++ [.nmCommandCompletion c x.id] ∧
        (∀ j, t.strand j = s.strand j) ∧ p t
      let h := par 0
      let fc := par 6
      let cols := par 7
      let now := par 4
      let elem := fun (m : State) (k w i : Nat) => m.memNat (k + w * i) w
      let f32At := fun (o i : Nat) => f32 (leNat ((x.data.drop (o + 4 * i)).take 4))
      let only := fun (t : State) (ps : List Piece) =>
        ∀ ad, (∀ z ∈ ps, ad < z.key ∨ z.key + z.len ≤ ad) → t.memRead ad 1 = s.memRead ad 1
      (∀ z, x.op = 0 → x.pcs = [z] → par 2 < 4 →
        (par 2 = 3 → par 3 = 0 → x.data.length = z.len → does (BitVec.ofNat 64 z.len) (fun t =>
          t.memRead z.key z.len = x.data ∧ only t [z])) ∧
        (∀ f w, fcDense fc = true → typeFmt (fcType fc) = some f → fcWidth fc = 8 * w → z.len = w * cols → par 3 < 2 →
          (par 2 = 3 → par 3 = 1) → x.data.length = (if par 3 = 1 then 4 * cols else z.len) →
          does (BitVec.ofNat 64 z.len) (fun t => only t [z] ∧ ∀ i < cols, elem t z.key w i =
            roundFloat f .rne false 0
              (let v := f.decode (elem s z.key w i)
               let d := if par 3 = 1 then f32At 0 i else f.decode (leNat ((x.data.drop (w * i)).take w))
               if par 2 = 0 then Machine.Num.add false v d else if par 2 = 1 then numMin v d else if par 2 = 2 then numMax v d else d))) ∧
        (∀ f n, fcBlock fc = true → typeFmt (fcType fc) = some f → cols = fcPer fc * n → z.len = 64 * n → par 2 = 0 → par 3 = 1 →
          x.data.length = 4 * cols → does (BitVec.ofNat 64 z.len) (fun t => only t [z] ∧ ∀ j < n,
            let old := s.memRead (z.key + 64 * j) 64
            let new := t.memRead (z.key + 64 * j) 64
            let sum := fun (i : Nat) => Machine.Num.add false
              (if malformed (fcPer fc) old then .fin false 0 0 else blockElem 0 old i) (f32At 0 (j * fcPer fc + i))
            let ea := chooseScale {} fc ((List.range (fcPer fc)).foldl (fun m i => maxFin m (sum i)) (.fin false 0 0))
            new.take 4 = [BitVec.ofNat 8 fc, BitVec.ofNat 8 ea, 0#8, 0#8] ∧ ∀ i < fcPer fc,
              elemAt (leNat (new.drop 4)) (fcWidth fc) i = roundFloat f .rne false 0 ((sum i).scale (127 - (ea : Int)))))) ∧
      (∀ z n, x.op = 1 → x.pcs = [z] → fcStamped fc = true → cols = fcPer fc * n → z.len = 64 * n →
        x.data.length = (if par 3 = 1 then 4 * cols else z.len) →
        let f := stampFmt fc
        let blk := fun (j : Nat) => s.memRead (z.key + 64 * j) 64
        let src := fun (j : Nat) => (x.data.drop (64 * j)).take 64
        let v := fun (bs : List Byte) (i : Nat) => (blkElems fc bs).getD i 0
        let far := ∃ j < n, fwMalformed fc (blk j) = false ∧ classify now (blkStamp (blk j)) = .horizon
        let bad := ∃ j < n, fwMalformed fc (blk j) = true
        (par 3 = 1 → far → does (BitVec.ofNat 64 (2 ^ 63 + 0x32 * 2 ^ 48)) (fun t => t.mem = s.mem)) ∧
        (par 3 = 1 → ¬far → bad → does (BitVec.ofNat 64 (2 ^ 63 + 0x31 * 2 ^ 48)) (fun t => t.mem = s.mem)) ∧
        (par 3 = 1 → ¬far → ¬bad → does (BitVec.ofNat 64 z.len) (fun t => only t [z] ∧ ∀ j < n,
          (now + 65536 - blkStamp (blk j) % 65536) % 65536 < 32768 → t.memRead (z.key + 64 * j) 64 =
            mkStamped fc now ((List.range (fcPer fc)).map (fun i =>
              fwAdd f (par 8) (v (blk j) i) (blkStamp (blk j)) (f32At 0 (j * fcPer fc + i)) now)))) ∧
        (par 3 = 0 → ¬far → ¬bad → (∀ j < n, fwMalformed fc (src j) = false ∧ classify now (blkStamp (src j)) ≠ .horizon ∧
            pairFar now (blkStamp (blk j)) (blkStamp (src j)) = false) →
          does (BitVec.ofNat 64 z.len) (fun t => only t [z] ∧ ∀ j < n,
            let m := fun (i : Nat) => fwMerge f (par 8) (v (blk j) i) (blkStamp (blk j)) (v (src j) i) (blkStamp (src j))
            t.memRead (z.key + 64 * j) 64 = mkStamped fc (m 0).2 ((List.range (fcPer fc)).map (fun i => (m i).1))))) ∧
      (∀ z y f mf w mw, x.op = 3 → x.pcs = [z, y] → fcDense fc = true → typeFmt (fcType fc) = some f → fcWidth fc = 8 * w →
        fcDense (par 9) = true → typeFmt (fcType (par 9)) = some mf → fcWidth (par 9) = 8 * mw →
        z.len = w * cols → y.len = mw * cols → (z.key + z.len ≤ y.key ∨ y.key + y.len ≤ z.key) →
        x.data.length = 64 + 4 * cols →
        does (BitVec.ofNat 64 (z.len + y.len)) (fun t => only t [z, y] ∧ ∀ i < cols,
          let m := roundFloat mf .rne false 0
            (Machine.Num.add false (Machine.Num.mul (f32At 0 0) (mf.decode (elem s y.key mw i))) (f32At 64 i))
          elem t y.key mw i = m ∧ elem t z.key w i = roundFloat f .rne false 0
            (Machine.Num.sub false (f.decode (elem s z.key w i)) (Machine.Num.mul (f32At 4 0) (mf.decode m))))) ∧
      (∀ z, x.op = 2 → x.pcs = [z] → z.len = 1024 → x.data.length = 1024 →
        does 1024#64 (fun t => only t [z] ∧
          ∀ i < 256, elem t z.key 4 i = redWord h (elem s z.key 4 i) (leNat ((x.data.drop (4 * i)).take 4)))) ∧
      (x.op = 4 → x.pcs = [] → (x.part, h) ∉ s.sweeps → s.sweeps.length < 256 → (∀ u, SMap.get [] s.tiles u = []) →
        does 0#64 (fun t => t.sweeps = s.sweeps ++ [(x.part, h)])) ∧
      (x.op = 5 → x.pcs = [] → (x.part, h) ∈ s.sweeps →
        does 0#64 (fun t => t.mem = s.mem ∧ t.sweeps = s.sweeps.filter (fun e => e != (x.part, h)))) ∧
      (x.op = 5 → x.pcs = [] → (x.part, h) ∉ s.sweeps →
        does (BitVec.ofNat 64 (2 ^ 63 + 0x34 * 2 ^ 48)) (fun t => t.mem = s.mem ∧ t.sweeps = s.sweeps))) ∧
    (x.phase = 2 → ∀ d u v, t0.filed = true → t0.pends = u ++ ⟨x.id, .token d, [.s d], [], none, false, none, 0, []⟩ :: v →
      (∀ q ∈ u ++ v, q.id ≠ x.id) → ∃ t, exec (.nmCommandCompletion c x.id) s = .next t ∧ (t.core c).nmq = b ∧ t.mem = s.mem ∧
        (∀ j, j ≠ g → t.strand j = s.strand j) ∧ EffectOf (.sreg d x.word) { t0 with pends := u ++ v } (t.strand g))) ∧
  (∀ d q, SMap.get [] s.permits (d * 32 + q) = x :: b →
    let load := par 1 = 1
    let lay := copyLay s x.part (epHandle (par 4)) (shFc (par 5))
    (x.phase = 1 → ∃ t, exec (.permitStart d q) s = .next t ∧
      SMap.get [] t.permits (d * 32 + q) = { x with phase := 2 } :: b ∧ t.mem = s.mem ∧ (∀ j, t.strand j = s.strand j) ∧
      ((s.lay x.part (epHandle (par 4))).bind Lay.peer = none → t.work = s.work ++ [.permitCompletion d q])) ∧
    (x.phase = 2 → s.ready x.id = true → s.bad = [] → unfenced → (¬load → SMap.get [] s.tiles (cluOf g) = []) →
      let word := match lay with
        | .ok _ => BitVec.ofNat 64 (par 2 * par 10)
        | .error e => BitVec.ofNat 64 (2 ^ 63 + e * 2 ^ 48)
      ∃ t, exec (.permitCompletion d q) s = .next t ∧ SMap.get [] t.permits (d * 32 + q) = b ∧
        t.work = s.work ++ [.permitStart d q] ∧ (∀ j, j ≠ g → t.strand j = s.strand j) ∧
        (s.isPend g x.id (fun p => p.kind.isToken) = false → t.strand g = t0) ∧
        (∀ k u v, t0.filed = true → t0.pends = u ++ ⟨x.id, .token k, [.s k], [], none, false, none, 0, []⟩ :: v →
          (∀ p ∈ u ++ v, p.id ≠ x.id) → EffectOf (.sreg k word) { t0 with pends := u ++ v } (t.strand g)) ∧
        (∀ e, lay = .error e → t.mem = s.mem) ∧
        (∀ l, lay = .ok l → t.mem = (s.permitRun d x l 0 (List.range (par 2))).1.mem ∧
          (par 2 = 1 → Memory.wf s.mem = true →
            let ps := permitPoss x 0
            (load → ∀ v, maskClusters d (par 3) = [v] →
              let bs := packItems l.fc (ps.map (s.itemRead l))
              t.memRead (vaultKey v (par 6)) bs.length = bs ∧
                ∀ ad, (ad < vaultKey v (par 6) ∨ vaultKey v (par 6) + bs.length ≤ ad) → t.memRead ad 1 = s.memRead ad 1) ∧
            (¬load → 8 ≤ itemBits l.fc → ∀ p, ps = [p] → l.inside p = true →
              t.itemRead l p = leNat ((s.memRead (vaultKey ((maskClusters d (par 3)).headD 0) (par 6)) (par 10)).take
                (itemBytes l.fc)))))))

-- Events of tasks, streams, partitions, debug and the package.

/-- Registration, grants and dispatch (13 R273-R288): a spawn of a record that is registered already, or malformed, completes
with 0x40 or 0x41 and changes no memory; another takes the next sequence number of its partition, an entry of its die, and STATE
1 or 2 as its JOIN says; a waiting record receives an entry; a dispatched task starts on its strand with CODE, FRAME,
address and GRAPH of its record, every other register as at reset, and STATE 3; a record with an error in its header aborts the task
with 0x21 instead (log 96). A record is shown beside which the ready queues hold no other that lies across it: the LINK fields of
neighbours change (13 R282; to values that are the device's, log 15). The order in which waiting records of several partitions receive
entries is the model's choice (DESIGN CHOICE, log 117). -/
def Obligations.TaskEvents : Prop := ∀ (s : State), s.live = true → Memory.wf s.mem = true →
  let apart := fun (loc : Nat) (q : QEnt) => q.loc + 512 ≤ loc ∨ loc + 512 ≤ q.loc
  (∀ (x : NmCmd) (z : Piece) (d : Nat) (u v : List Pend), s.findNm x.id = some x → x.op = 6 → x.phase = 1 → s.replays = [] →
    let g := x.strand
    let t0 := s.strand g
    (s.core (coreOf g)).nmq = [x] → x.pcs = [z] → z.key < 2 ^ 80 → x.tok ≠ 0 → t0.filed = true → s.bad = [] →
    t0.pends = u ++ ⟨x.id, .token d, [.s d], [], none, false, none, 0, []⟩ :: v → (∀ q ∈ u ++ v, q.id ≠ x.id) →
    let b := s.memRead z.key 512
    let ends := fun (w : W64) (p : State → Prop) => ∃ t, exec (.taskRegistration x.id) s = .next t ∧
      (t.core (coreOf g)).nmq = [] ∧ EffectOf (.sreg d w) { t0 with pends := u ++ v } (t.strand g) ∧
      (∀ h, h ≠ g → t.strand h = s.strand h) ∧ p t
    let fails := fun (code : Nat) => ends (BitVec.ofNat 64 (2 ^ 63 + code * 2 ^ 48)) (fun t => t.mem = s.mem)
    (s.memNat (z.key + 20) 1 ≠ 0 → fails 0x40) ∧
    (s.memNat (z.key + 20) 1 = 0 → recOf b = none → fails 0x41) ∧
    (∀ r, s.memNat (z.key + 20) 1 = 0 → recOf b = some r →
      let seq := SMap.get 0 s.spawnNo x.part
      seq < 2 ^ 48 → SMap.rising s.spawnNo = true → (∀ w, ∀ q ∈ SMap.get [] s.queues w, apart z.key q) →
      ends (BitVec.ofNat 64 seq) (fun t => SMap.get 0 t.spawnNo x.part = (seq + 1) % 2 ^ 48 ∧
        t.memRead (z.key + 20) 1 = [if r.join = 0 then 2#8 else 1#8] ∧
        ∃ dd e, SMap.get [] t.deps dd = SMap.get [] s.deps dd ++ [e] ∧ e.loc = z.key ∧ e.va = z.va ∧ e.part = x.part ∧
          e.seq = seq ∧ e.regions = r.regions ∧ e.st = (if r.join = 0 then 2 else 1)))) ∧
  (∀ d e, s.dieAwake d = true → s.nextEntry d = some e → ∃ t, exec (.dependenceEntryGrant d) s = .next t ∧
    ({ t with deps := s.deps } : State) = s ∧
    SMap.get [] t.deps d = (SMap.get [] s.deps d).map (fun x => if x.loc = e.loc ∧ x.seq = e.seq then { x with held := true } else x)) ∧
  (∀ u p v q e g, s.nextDispatch u = some (p, (v, q, e), g) →
    (∀ i < 8, (s.rp (8 * dieOf g + i) 8).testBit 0 = false) → (∀ w, ∀ z ∈ SMap.get [] s.queues w, z ≠ q → apart e.loc z) →
    ((s.badAt 0 [⟨e.va, e.loc, 64, .ms⟩]).isSome = true → ∃ t a, exec (.dispatch u) s = .next t ∧ t.memRead (e.loc + 20) 1 = [3#8] ∧
      (t.strand g).abort = some a ∧ a.cause = 0x21 ∧ .taskAbort g ∈ t.work) ∧
    (s.bad = [] → ∃ t, exec (.dispatch u) s = .next t ∧ t.memRead (e.loc + 20) 1 = [3#8] ∧ .startOfTaskActions g ∈ t.work ∧
      (∀ h, h ≠ g → t.strand h = s.strand h) ∧
      let y := t.strand g
      let fld := fun (o n : Nat) => BitVec.ofNat 64 (s.memNat (e.loc + o) n)
      y.run = .blocked ∧ y.wait = .actions ∧ y.ctx = { pc := s.memNat e.loc 8 % 2 ^ 57 } ∧ y.regions = e.regions ∧
      (∀ n, y.rs n = if n = 1 then fld 8 8 else if n = 2 then BitVec.ofNat 64 e.va else if n = 3 then fld 48 4 else 0#64) ∧
      (∃ tail, y.task = some ⟨e.loc, e.va, e.part, s.memNat (e.loc + 48) 4, e.seq, e.prio, tail⟩) ∧
      y.scr = (if (s.preg e.part 0).testBit 1 then 1#64 else 0#64) ∧
      ({ y with run := .idle, wait := .none, ctx := {}, regions := [], sreg := [], task := none, scr := 0#64, cursor := 0#128, asks := [] } : Strand) = {}))

/-- Task edges (14 R295-R303, R306, 19 R396): a cluster's flush engine serves the edges of its strands in the order in which they
were asked for. The start makes the strand ready with the current step view and no line of a linear R region in its core's cache;
of a tensor R region its cluster's cache keeps the tiles forwarded to the task, without their tags, and the others leave it, their
dirty bytes written back. The end performs outstanding stores, of which the strand's requests to peers have been sent, then goes
region by region, the frame last and alone where a task declares none: a line or a tile is written back and stays clean, and a tile
is forwarded to a task of the join list as R298 says; then it releases the dependence entry with STATE 4, makes the joins one by one,
and leaves the strand empty. An error that a store had met, and one that a line or tile to be written back holds, aborts the task
with cause 0x21. An abort takes the task down with STATE 5 and a report; a replayed task that has run its last pass goes on to its
end, and otherwise starts again. That a store's error which stands when the strand has no bundle left aborts the task in its edge is
is the model's choice (log 86), as are the PC and TSL of that record (log 102), a join that meets an error (log 96), and that a second R region of the
task which meets a forwarded tile drops it (DESIGN CHOICE, log 120). What the start, the restore of a replay or a task's costs need of
peers is asked first (21 R417). Shown with no
load under way that a fence of a narrow scope has followed (08 R189). -/
def Obligations.TaskEdges : Prop := ∀ (s : State) (g : Nat) (k : Task), s.live = true → Memory.wf s.mem = true →
  SMap.rising s.regs = true → (∀ h, ∀ p ∈ (s.strand h).pends, p.fence = 0) →
  let x := s.strand g
  let c := coreOf g
  let traceOff := (s.reg (cluOf g / 18) (trBlock (cluOf g) + 32)).testBit 0 = false
  x.task = some k → traceOff →
  let first := s.edgeQ.find? (fun h => cluOf h == cluOf g) = some g
  let aborts := fun (cause : Nat) (t : State) => ∃ a, (t.strand g).abort = some a ∧ a.cause = cause ∧ .taskAbort g ∈ t.work
  let u := cluOf g
  let tiles := fun (t : State) (v : Nat) => SMap.get [] t.tiles v
  let whole := fun (z : TLine) (l : Lay) => s.lay z.part z.handle = some l ∧ l.peer = none ∧ l.ms = false ∧ z.bytes.length = 512 ∧
    z.dirty &&& z.bad = 0 ∧ (∀ b < 512, l.byteMask z.pos b = 255) ∧
    ∀ v, tiles s v = if v = u then [z] else []
  let down := fun (z : TLine) (l : Lay) (t : State) => ∀ a, let b := a - l.unitKey (l.tileIx z.pos)
    t.memRead a 1 = if l.unitKey (l.tileIx z.pos) ≤ a ∧ b < 512 ∧ z.dirty.testBit b = true then (z.bytes.drop b).take 1
      else s.memRead a 1
  let apart := fun (loc : Nat) => ∀ w, ∀ q ∈ SMap.get [] s.queues w, q.loc = loc ∨ q.loc + 512 ≤ loc ∨ loc + 512 ≤ q.loc
  (s.startReady g = false → exec (.startOfTaskActions g) s = .next s) ∧
  (x.ph = 1 → x.abort = none → first → s.startReady g = true → (∀ n r, s.replayOf g = some (n, r) → r.waits = false) →
    ∃ t, exec (.startOfTaskActions g) s = .next t ∧
    (∀ h, h ≠ g → t.strand h = s.strand h) ∧ g ∉ t.edgeQ ∧
    t.strand g = { (s.segCharge g).strand g with run := .ready, wait := .none, cursor := 0#128, svr := BitVec.ofNat 64 s.gstep } ∧
    (∀ r ∈ x.regions, r.kind = 1 → r.acc.testBit 0 = true → ∀ l ∈ (t.core c).dc, r.hasLine k.part l = false) ∧
    (x.regions = [] → t.mem = s.mem) ∧
    (∀ r ∈ x.regions, r.kind = 0 → r.acc.testBit 0 = true →
      (∀ y ∈ tiles t u, s.tileMeets k.part r y = true →
        y.fwd = none ∧ ∃ z ∈ tiles s u, z.fwd = some k.seq ∧ y = { z with fwd := none }) ∧
      (∀ z ∈ tiles s u, x.regions.filter (fun q => q.kind == 0) = [r] → z.fwd = some k.seq → s.tileMeets k.part r z = true →
        { z with fwd := none } ∈ tiles t u)) ∧
    (∀ r f z l, x.regions = [r, f] → r.kind = 0 → r.acc.testBit 0 = true → f.kind = 1 → f.len = 0 → whole z l →
      s.tileMeets k.part r z = true → z.fwd ≠ some k.seq → tiles t u = [] ∧ down z l t)) ∧
  (¬first → exec (.startOfTaskActions g) s = .next s ∧ exec (.endOfTaskActions g) s = .next s) ∧
  (x.abort = none → first →
    let next := fun (p : State → Prop) => ∃ t, exec (.endOfTaskActions g) s = .next t ∧ (∀ h, h ≠ g → t.strand h = s.strand h) ∧ p t
    (x.ph = 2 → s.outsReady g = true → x.outs.Pairwise (fun a b => a.id < b.id) → next (fun t =>
      (t.strand g).outs = [] ∧ (t.strand g).pends = [] ∧
      ((t.strand g).abort = none → (t.strand g).ph = 3 ∧ (t.strand g).rix = (if x.regions.length = 1 then 12 else 0) ∧
        (t.strand g).tcur = 0 ∧ .endOfTaskActions g ∈ t.work) ∧
      (∀ d, x.due = some d → aborts d.1 t) ∧
      (x.outs = [] → t.mem = s.mem ∧ (x.due = none → (t.strand g).abort = none)))) ∧
    (∀ d, x.ph = 3 → s.tilesSent u = true → x.due = some d → x.outs = [] → next (fun t => aborts d.1 t ∧ t.mem = s.mem)) ∧
    (x.ph = 3 → s.tilesSent u = true → x.due = none →
      (∀ r, x.rix = 12 → x.regions.getLast? = some r → s.edgeNext g k.part r x.tcur = none →
        next (fun t => (t.strand g).ph = 4 ∧ t.memRead (k.loc + 20) 1 = [4#8] ∧
          SMap.get [] t.deps (dieOf g) = (SMap.get [] s.deps (dieOf g)).filter (fun e => !(e.loc == k.loc && e.seq == k.seq)) ∧
          ∀ a, a ≠ k.loc + 20 → t.memRead a 1 = s.memRead a 1)) ∧
      (∀ r o l, x.rix < 12 → x.regions[x.rix]? = some r → s.edgeNext g k.part r x.tcur = some (o, .inl l) →
        (l.dirty &&& l.bad ≠ 0 → next (fun t => aborts 0x21 t ∧ t.mem = s.mem)) ∧
        (l.dirty &&& l.bad = 0 → l.bytes.length = 64 → o + 1 < 2 ^ 64 →
          (∀ y ∈ (s.core c).dc, y.part = l.part → y.va = l.va → y = l) → next (fun t =>
            (t.strand g).ph = 3 ∧ (t.strand g).rix = x.rix ∧ (t.strand g).tcur = o + 1 ∧ ∀ a, t.memRead a 1 =
              if l.key ≤ a ∧ a < l.key + 64 ∧ l.dirty.testBit (a - l.key) = true then (l.bytes.drop (a - l.key)).take 1
              else s.memRead a 1))) ∧
      (∀ r, x.rix < 12 → x.regions[x.rix]? = some r → s.edgeNext g k.part r x.tcur = none → next (fun t => (t.strand g).ph = 3 ∧
        (t.strand g).rix = (if x.rix + 2 = x.regions.length then 12 else x.rix + 1) ∧ (t.strand g).tcur = 0 ∧ t.mem = s.mem)) ∧
      (∀ r o z, x.rix < 12 → x.regions[x.rix]? = some r → s.edgeNext g k.part r x.tcur = some (o, .inr z) →
        (z.dirty &&& z.bad ≠ 0 → next (fun t => aborts 0x21 t ∧ t.mem = s.mem ∧
          ∀ y ∈ tiles t u, y.isTile z.part z.handle z.pos = false)) ∧
        (∀ l, whole z l → o + 1 < 2 ^ 64 →
          next (fun t => (t.strand g).ph = 3 ∧ (t.strand g).rix = x.rix ∧ (t.strand g).tcur = o + 1 ∧ down z l t ∧
            (r.fwd = false ∨ x.joins = [] → ∀ v, tiles t v = if v = u then [{ z with dirty := 0 }] else []) ∧
            ∀ j e, x.joins = [j] → s.dep (dieOf g) j.1 = some e → e.clu < 18 → r.fwd = true → s.tileOut = [] →
              let v := 18 * dieOf g + e.clu
              let may := e.st ≤ 2 ∧ e.part = k.part ∧
                (∃ q ∈ e.regions, q.acc.testBit 0 = true ∧ q.fwd = true ∧ s.tileMeets k.part q z = true) ∧
                ∀ w ∈ SMap.get [] s.deps (dieOf g), w.held = true → w.part = k.part → w.seq ≠ k.seq → earlier w.seq e.seq = true →
                  ∀ q ∈ w.regions, q.acc.testBit 1 = true → s.tileMeets k.part q z = false
              (¬may → ∀ v, tiles t v = if v = u then [{ z with dirty := 0 }] else []) ∧
              (may → ∃ y ∈ tiles t v, y.isTile z.part z.handle z.pos = true ∧ y.dirty = 0 ∧ y.fwd = some e.seq ∧
                y.bytes = t.tileRead z.part z.handle l z.pos))))) ∧
    (∀ j : Nat × Nat, x.ph = 4 → x.joins[x.jix]? = some j → j.1 < 2 ^ 80 → s.keyBad j.1 64 = false → s.memNat (j.1 + 16) 4 ≠ 0 → x.jix < 255 → apart j.1 →
      next (fun t => t.memNat (j.1 + 16) 4 = s.memNat (j.1 + 16) 4 - 1 ∧ (t.strand g).jix = x.jix + 1 ∧
        (s.memNat (j.1 + 16) 4 = 1 → s.memNat (j.1 + 20) 1 = 1 → t.memRead (j.1 + 20) 1 = [2#8]) ∧
        (s.memNat (j.1 + 16) 4 ≠ 1 → ∀ a, (a < j.1 + 16 ∨ j.1 + 20 ≤ a) → t.memRead a 1 = s.memRead a 1))) ∧
    (x.ph = 4 → x.joins[x.jix]? = none → s.replayAny g = none →
      next (fun t => t.strand g = {} ∧ t.mem = s.mem ∧ g ∉ t.edgeQ))) ∧
  (∀ a, x.abort = some a → s.busyCmds g = false → s.outsReady g = true → s.replayAny g = none →
    ∃ t, exec (.taskAbort g) s = .next t ∧ t.strand g = {} ∧
    t.memRead (k.loc + 20) 1 = [5#8] ∧ (∀ h, h ≠ g → t.strand h = s.strand h) ∧
    (a.cause ≠ 0 → ∃ r, SMap.get [] t.faults (dieOf g) = SMap.get [] s.faults (dieOf g) ++ [r] ∧ r.kind = 1 ∧ r.sv = true ∧
      r.strand = g ∧ r.graph = k.graph ∧ r.va = k.va ∧ (a.second = false → r.tcr.toNat % 256 = a.cause % 256 ∧ r.tcr2 = 0#64))) ∧
  (∀ n r, s.replayAny g = some (n, r) → x.ph = 2 → x.abort = none → g ∉ s.edgeQ → s.outsReady g = true →
    ∃ t, exec (.replayPassEnd g) s = .next t ∧
      (r.once = true ∨ r.ended = true → t = { s with edgeQ := s.edgeQ ++ [g], work := s.work ++ [.endOfTaskActions g] }) ∧
      (r.once = false → r.ended = false → r.pass < s.rp n 8 / 2 ^ 4 % 8 → s.farAsked g k.part x.regions = false →
        t.mem = s.mem ∧ (t.strand g).ph = 2 ∧ ((t.strand g).asks.any (fun a => a.1 == noAddr)) = true) ∧
      (r.once = false → r.ended = false → x.due = none → x.outs = [] → s.bad = [] →
        (s.rp n 8 / 2 ^ 4 % 8 ≤ r.pass → .endOfTaskActions g ∈ t.work) ∧
        (r.pass < s.rp n 8 / 2 ^ 4 % 8 → s.farAsked g k.part x.regions = true → .startOfTaskActions g ∈ t.work ∧ (t.strand g).run = .blocked ∧
          (SMap.get r t.replays n).pass = r.pass + 1)))

/-- Command streams (15 R318-R321): a command that stands whole at CSRD is performed and CSRD moves past it, modulo the size
of the ring; a launch or a JOIN of a record behind a fabric window holds CSRD until the peer has registered it, or its decrement has
been sent (21 R420), and a launch that fails gives a fault record of kind 4; LOOP and SKIP move CSRD further, WAITV and WAITG hold it
until their condition holds, and an address that cannot be reached halts the stream with its error code. A command whose words or
operand lie behind a fabric window is acted on once its requests have been sent (21 R417; log 82). A doorbell that is refused leaves
CSWR as it was. Where a SKIP in a loop body and the end of the body meet is the model's reading (log 18), and so are a LAUNCHN that
looks at every record before it launches one and the wait for a peer's answer (log 27); a word whose check is wrong halts the stream
as an address that cannot be reached does (log 81). -/
def Obligations.StreamEvents : Prop := ∀ (s : State) (d n : Nat) (r a v : BitVec 64) (m b : BitVec 16) (i : BitVec 1)
    (c : BitVec 3) (q : BitVec 32), SMap.rising s.regs = true → d < 4 → n < 8 → s.csLoops d n = [] →
  let apart := fun (loc : Nat) => ∀ w, ∀ q ∈ SMap.get [] s.queues w, q.loc = loc ∨ q.loc + 512 ≤ loc ∨ loc + 512 ≤ q.loc
  let part := s.csPart d n
  let rd := s.cs d n 16
  let size := s.cs d n 8
  let s0 := s.csAskOver (8 * d + n)
  let on := fun (o : Instr) (p : State → Prop) => s.csNext d n = .cmd o →
    (s.csReady d n = true → ∃ t, exec o s = .next t ∧ p t) ∧
    (s.csReady d n = false → ∃ t, exec o s = .next t ∧ t.mem = s.mem ∧ (∀ o, t.cs d n o = s.cs d n o) ∧
      (∀ id, SMap.look s.asks (8 * d + n) = some id → t = s) ∧
      (SMap.look s.asks (8 * d + n) = none → SMap.look t.asks (8 * d + n) = some s.nid))
  let past := fun (k : Nat) (t : State) => t.cs d n 16 = (rd + 8 * k) % size ∧ t.cs d n 40 = s.cs d n 40
  let halted := fun (e : Nat) (t : State) => t.cs d n 40 = e * 256 + 1 ∧ t.cs d n 16 = rd ∧ t.mem = s.mem
  let rel := fun (x y : Nat) => [decide (x = y), decide (x ≠ y), decide (x < y), decide (x ≤ y), decide (x > y),
    decide (x ≥ y)].getD c.toNat false
  let graph := s.graphOf d part q.toNat
  let sent := fun (t : State) => t.mem = s.mem ∧ t.cs d n 16 = rd ∧ t.csNext d n = .wait ∧ ∃ x, t.fabOut = s.fabOut ++ [x]
  on (.streamNop d n) (fun t => past 1 t ∧ t.mem = s.mem) ∧
  on (.launch d n r) (fun t => match s.csRecord part r.toNat with
    | none => halted 0x54 t
    | some loc => (2 ^ 80 ≤ loc → sent t) ∧ (loc < 2 ^ 80 →
        let z := s0.register part d none loc r.toNat
        past 2 t ∧ t.mem = z.1.mem ∧ (z.2.1 = 0 → t.faults = s.faults) ∧ (z.2.1 ≠ 0 → ∃ f,
          SMap.get [] t.faults d = SMap.get [] s.faults d ++ [f] ∧ f.kind = 4 ∧ f.sv = false ∧ f.va = r.toNat ∧
          f.tcr = BitVec.ofNat 64 z.2.1))) ∧
  on (.launchn d n m r a) (fun t => match s.csWord part a.toNat with
    | none => halted 0x54 t
    | some k => (m.toNat < k → halted 0x52 t) ∧ (k ≤ m.toNat → match s.csRecords part k r.toNat with
      | none => halted 0x54 t
      | some l => (∀ b ∈ l.head?, 2 ^ 80 ≤ b.1 → sent t) ∧ ((∀ b ∈ l, b.1 < 2 ^ 80) → past 3 t ∧
          t.mem = (l.foldl (fun (s : State) b =>
            let z := s.register part d none b.1 b.2
            z.1.launchFail d (s.memNat (b.1 + 48) 4) z.2.1 b.2) s0).mem))) ∧
  on (.streamLoop d n b i a) (fun t => match (if i = 1#1 then s.csWord part a.toNat else some a.toNat) with
    | none => halted 0x54 t
    | some k => (s.ringAvail d n < 2 + b.toNat → t = s0) ∧
        (2 + b.toNat ≤ s.ringAvail d n → k = 0 → past (2 + b.toNat) t) ∧
        (2 + b.toNat ≤ s.ringAvail d n → k ≠ 0 → past 2 t ∧ t.csLoops d n = [⟨(rd + 16) % size, 8 * b.toNat, k⟩])) ∧
  on (.streamSkip d n c b a v) (fun t => match s.csWord part a.toNat with
    | none => halted 0x54 t
    | some x => c.toNat ≤ 5 → (rel x v.toNat = true → 3 + b.toNat ≤ s.ringAvail d n → past (3 + b.toNat) t) ∧
        (rel x v.toNat = true → s.ringAvail d n < 3 + b.toNat → t = s0) ∧ (rel x v.toNat = false → past 3 t)) ∧
  (∀ o ∈ [Instr.waitv d n c a v, .waitvSatisfied d n], s.csNext d n = .cmd (.waitv d n c a v) → s.csReady d n = true → ∃ t, exec o s = .next t ∧
    match s.csWord part a.toNat with
    | none => halted 0x54 t
    | some x => c.toNat ≤ 5 → (rel x v.toNat = true → past 3 t ∧ t.mem = s.mem) ∧ (rel x v.toNat = false → t = s0)) ∧
  (∀ o ∈ [Instr.waitg d n q, .waitgDone d n], s.csNext d n = .cmd (.waitg d n q) → s.csReady d n = true → ∃ t, exec o s = .next t ∧
    (graph.any s.broken = true → halted 0x60 t) ∧ (graph = [] → past 1 t ∧ t.mem = s.mem) ∧
    (graph.any s.broken = false → graph ≠ [] → t = s ∨ t = s0)) ∧
  on (.streamWrite d n a v) (fun t => match s.csPieces part a.toNat 8 2 with
    | none => halted 0x54 t
    | some ps => past 3 t ∧ ∀ z, ps = [z] → z.len = 8 →
        t.memNat z.key 8 = v.toNat ∧ ∀ ad, (ad < z.key ∨ z.key + 8 ≤ ad) → t.memRead ad 1 = s.memRead ad 1) ∧
  on (.streamJoin d n r) (fun t => match s.csRecord part r.toNat with
    | none => halted 0x54 t
    | some loc => (2 ^ 80 ≤ loc → sent t) ∧ (loc < 2 ^ 80 → past 2 t ∧ t.mem = (s0.join d part none loc r.toNat).mem ∧
        (s.memNat (loc + 16) 4 ≠ 0 → s.keyBad loc 64 = false → apart loc → t.memNat (loc + 16) 4 = s.memNat (loc + 16) 4 - 1))) ∧
  on (.disposeTakedown d n q) (fun t => (graph = [] → past 1 t ∧ t.mem = s.mem) ∧
    (∀ e, graph = [e] → e.st = 1 ∨ e.st = 2 → apart e.loc →
      (s.reg ((18 * d + e.clu) / 18) (trBlock (18 * d + e.clu) + 32)).testBit 0 = false →
      past 1 t ∧ t.memRead (e.loc + 20) 1 = [5#8]) ∧
    (∀ e g, graph = [e] → e.st = 3 → s.liveStrand e = some g → (s.strand g).abort = none →
      ∃ y, (t.strand g).abort = some y ∧ y.cause = 0)) ∧
  on (.disposeRelease d n q) (fun t => past 1 t ∧ t.mem = s.mem ∧
    SMap.get [] t.deps d = (SMap.get [] s.deps d).filter (fun e => !(e.part == part && e.graph == q.toNat && e.st == 5))) ∧
  (∃ t, exec (.cswrDoorbell d n v) s = .next t ∧ if v.toNat % 8 = 0 ∧ v.toNat < size then t.cs d n 24 = v.toNat ∧ t.mem = s.mem
    else halted 0x55 t ∧ t.cs d n 24 = s.cs d n 24) ∧
  exec (.dbell v) s = exec (.cswrDoorbell (v.toNat / 2 ^ 38 % 4) (v.toNat / 2 ^ 35 % 8) (BitVec.ofNat 64 (v.toNat % 2 ^ 24))) s ∧
  (∃ t, exec (.csstHaltClear d n) s = .next t ∧ t.mem = s.mem ∧ t.cs d n 16 = rd ∧
    if (s.cs d n 40).testBit 0 then t.cs d n 40 = 0 else t = s)

/-- Supervision (15 R322, 16 R325, R331, 17 R343, 18 R367, 21 R411, R421): a fault record goes to the next slot of its
die's queue and its vector's message is sent; a vector that is unmasked sends what it owes; an invalidation leaves no
translation and no cached line of its range; a layout or a fabric handle is bound, bound again or unbound unless an error
code says why not; GSTEP takes a value only while GSCTL.EN is 0; and PCTL keeps EN within its limits. The order in which the errors of
a port are looked at is the model's choice (log 32), as are the drop of translations at GO and again at the end of an invalidation
(log 43), what the other fields of PCTL hold after a write that is refused EN (log 34), and the request of a fault record that goes
through a fabric window (log 82). -/
def Obligations.SupervisorEvents : Prop := ∀ (s : State) (p : BitVec 8) (h : BitVec 24) (v : BitVec 64) (d n : Nat),
  SMap.rising s.regs = true →
  let does := fun (i : Instr) (q : State → Prop) => ∃ t, exec i s = .next t ∧ q t
  let part := p.toNat
  let sends := fun (v : Nat) (t : State) => if s.msixMask.testBit v then t.msixSent = s.msixSent ∧ t.msixPend.testBit v = true
    else t.msixSent = s.msixSent ++ [v] ∧ t.msixPend = s.msixPend
  let dropped := fun (part : Nat) (t : State) =>
    (∀ c, ∀ x ∈ (t.core c).utlb, x.tiMeets part (s.reg 0 0x34000) (s.reg 0 0x34008) = false) ∧
    (∀ u, ∀ x ∈ SMap.get [] t.ctlb u, x.tiMeets part (s.reg 0 0x34000) (s.reg 0 0x34008) = false) ∧
    (∀ c, ∀ l ∈ (t.core c).dc, l.part = part → tiHit (s.reg 0 0x34000) (s.reg 0 0x34008) l.va = false)
  let only := fun (o : Nat) (t : State) => ({ t with regs := s.regs } : State) = s ∧
    ∀ d x, x < 2 ^ 20 → x ≠ o → t.reg d x = s.reg d x
  let mine := fun (b : Bind) => b.part == part && b.handle == h.toNat
  let mineF := fun (b : FBind) => b.part == part && b.handle == h.toNat
  let bindErr := if layBad (s.lrd 0) then 0x70 else if s.handleInUse part h.toNat then 0x71
    else if !s.layout.any mine && decide (65536 ≤ s.layout.length) then 0x72 else 0
  let unbindErr := if s.handleInUse part h.toNat then 0x71 else if s.layout.any mine then 0 else 0x73
  let fbErr := if s.handleInUse part h.toNat then 0x71 else if s.layout.any mine then 0x75 else 0
  let fuErr := if s.handleInUse part h.toNat then 0x71 else if s.fabric.any mineF then 0 else 0x73
  let noTile := fun (t : State) => ∀ u, ∀ x ∈ SMap.get [] t.tiles u, ¬(x.part = part ∧ x.handle = h.toNat)
  let port := fun (i : Instr) (o e : Nat) (q : State → Prop) =>
    does i (fun t => t.reg 0 o = e * 256 ∧ (e ≠ 0 → only o t) ∧ (e = 0 → noTile t ∧ q t))
  let gone := fun (t : State) => (part, h.toNat) ∉ t.sweeps
  let fd := s.reg 0 0x90100
  let ctl := s.preg part 0
  (∀ r l a, s.up = true → s.dieAwake d = true → SMap.get [] s.faults d = r :: l → s.faultSlot d = some a →
    let asked := SMap.look s.asks (32 + d)
    (a < 2 ^ 80 ∨ (∃ id, asked = some id ∧ s.ready id = true) → does (.faultRecordAppend d) (fun t =>
      SMap.get [] t.faults d = l ∧ sends d t ∧ t.reg d 16 = (s.reg d 16 + 1) % 2 ^ 64 ∧
      ∀ ad, t.memRead ad 1 = if a ≤ ad ∧ ad < a + 64 then ((faultBytes r).drop (ad - a)).take 1 else s.memRead ad 1)) ∧
    (2 ^ 80 ≤ a → asked = none → does (.faultRecordAppend d) (fun t => t.mem = s.mem ∧ t.faults = s.faults ∧ t.regs = s.regs ∧
      SMap.look t.asks (32 + d) = some s.nid)) ∧
    (∀ id, 2 ^ 80 ≤ a → asked = some id → s.ready id = false → exec (.faultRecordAppend d) s = .next s)) ∧
  does (.msixUnmask n) (fun t => (∀ j, t.msixMask.testBit j = (s.msixMask.testBit j && j != n)) ∧
    (∀ j, t.msixPend.testBit j = (s.msixPend.testBit j && j != n)) ∧
    t.msixSent = s.msixSent ++ (if s.msixPend.testBit n then [n] else [])) ∧
  ((s.reg 0 0x34010).testBit 9 = true → exec (.tictlGo p) s = .next s) ∧
  ((s.reg 0 0x34010).testBit 9 = false → does (.tictlGo p) (fun t => t.reg 0 0x34010 = 512 + part ∧ dropped part t ∧
    .translationInvalidationDone ∈ t.work)) ∧
  (s.up = true → (s.reg 0 0x34010).testBit 9 = true → does .translationInvalidationDone (fun t =>
    t.reg 0 0x34010 = s.reg 0 0x34010 % 256 ∧ dropped (s.reg 0 0x34010 % 256) t)) ∧
  port (.layoutBind p h) 0x30048 bindErr (fun t => gone t ∧
    t.layout = s.layout.filter (fun b => !mine b) ++ [⟨part, h.toNat, s.lrd 0⟩]) ∧
  port (.layoutUnbind p h) 0x30048 unbindErr (fun t => gone t ∧ t.layout = s.layout.filter (fun b => !mine b)) ∧
  port (.fabricHandleBind p h) 0x90110 fbErr (fun t => t.fabric = s.fabric.filter (fun b => !mineF b) ++
    [⟨part, h.toNat, fd % 2 ^ 24, fd / 2 ^ 24 % 2 ^ 8, fd / 2 ^ 32 % 2 ^ 12⟩]) ∧
  port (.fabricHandleUnbind p h) 0x90110 fuErr (fun t => t.fabric = s.fabric.filter (fun b => !mineF b)) ∧
  does (.gstepWrite v) (fun t => if (s.reg 0 0x36008).testBit 8 then t = s
    else only 0x36000 t ∧ t.reg 0 0x36000 = v.toNat % 65536) ∧
  does (.pctlWrite p v) (fun t => only (0x40000 + 64 * part) t ∧ t.preg part 0 = v.toNat % 16 / 2 * 2 +
    if (if v.toNat.testBit 0 then ctl.testBit 0 || s.mayEnable part else ctl.testBit 0 && s.liveP part) then 1 else 0)

/-- Partitions on a core (18 R369-R377): a host stop sets HSTOP and begins the stop sequence on each core that runs the
partition, a resume clears it, and both are ignored while one is under way; a core that must leave its row enters the next
usable one, by a switch where the partition is another, and one whose strands a stop saved has them back; the sequence waits until
every strand that stops with this core stands at a boundary and off the brake line, then parks what has not started and, with
nothing of them in flight, takes the images, without the bytes of dead entries (01 R39); the swap brings the images of the
incoming partition back with its parked commands, from shadow storage or from slots of the save area that nothing has written
since; a slot whose check is wrong aborts its strand's task with 0x21 (20 R405; the model's choice, log 114); with no row to enter a core that
the host stopped keeps its strands saved; and a priority partition takes one core at most for a task, none later where none qualified.
A bundle that is partly committed completes before the sequence goes on (DEDUCED, log 110), and a trap that a strand still owes is
entered first. That what has not started is parked before the quiesce of what has is the model's order of steps 2 and 3 of 18 R373 (log 29),
and that an image keeps the pending tokens of commands that have not started is its reading of 09 R210 and R214 (log 103). Shown with
no load under way that a fence of a narrow scope has followed (08 R189). -/
def Obligations.PartitionEvents : Prop := ∀ (s : State) (p : BitVec 8) (c : Nat), SMap.rising s.regs = true →
  (∀ h, ∀ q ∈ (s.strand h).pends, q.fence = 0) →
  let k := s.core c
  let does := fun (i : Instr) (q : State → Prop) => ∃ t, exec i s = .next t ∧ q t
  let onlyCore := fun (t : State) => ({ t with cores := s.cores, work := s.work } : State) = s ∧ ∀ x, x ≠ c → t.core x = s.core x
  let stops := fun (w : StopFor) (t : State) => onlyCore t ∧ t.core c = { k with stop := w } ∧ t.work = s.work ++ [.stopSequence c]
  let gs := [4 * c, 4 * c + 1, 4 * c + 2, 4 * c + 3]
  (s.ppreBusy = true → exec (.ppreStop p) s = .next s ∧ exec (.ppreResume p) s = .next s) ∧
  (s.ppreBusy = false →
    does (.ppreStop p) (fun t => t.hstop p.toNat = true ∧ t.mem = s.mem ∧ t.strands = s.strands ∧
      (k.entered = true → k.part = p.toNat → k.stop = .none → t.core c = { k with stop := .host, asked := true } ∧ .stopSequence c ∈ t.work)) ∧
    does (.ppreResume p) (fun t => t.hstop p.toNat = false ∧ ({ t with regs := s.regs } : State) = s ∧
      ∀ d o, o < 2 ^ 20 → o ≠ 0x40000 + 64 * p.toNat + 48 → t.reg d o = s.reg d o)) ∧
  (∀ r, s.live = true → s.dieAwake (c / 288) = true → k.stop = .none → s.mustLeave c = true → s.nextRow c (fun _ => true) = some r →
    let v := s.cadRow c r
    (k.entered = false ∨ v % 256 = k.part → s.awaySaved c = false → does (.rowChange c) (fun t => onlyCore t ∧ t.work = s.work ∧
      t.core c = { k with part := v % 256, row := r, left := v / 2 ^ 32, budget := v / 2 ^ 32, entered := true, spent := false })) ∧
    (k.entered = true → v % 256 ≠ k.part →
      exec (.rowChange c) s = .next { s with work := s.work ++ [.cadenceSwitch c] } ∧
      does (.cadenceSwitch c) (stops .cadence)) ∧
    (∀ l, k.entered = true → v % 256 = k.part → k.shadow = some (k.part, l) → l.length = 4 → s.awaySaved c = true →
      does (.rowChange c) (fun t => (t.core c).row = r ∧
        ∀ i x, l[i]? = some x → x.task.isSome = true → t.strand (4 * c + i) = { x with results := [] }))) ∧
  (s.live = true → k.stop ≠ .none → k.saved = false → (∀ g ∈ gs, ∀ n, (s.strand g).hold ≠ .breakdown n) →
    (∀ g ∈ gs, (s.strand g).hold.isTrap = true → s.trapReady g = false) →
    ((∃ g, coreOf g ∈ s.stopCores c ∧ s.stopped g = false) → exec (.stopSequence c) s = .next s) ∧
    ((∀ g, coreOf g ∈ s.stopCores c → s.stopped g = true) → does (.stopSequence c) (fun t =>
      let quiet := ∀ g, coreOf g ∈ s.stopCores c → ((s.stopCores c).foldl State.park s).settled g = true
      (∀ x ∈ k.copies, x.started = false → (k.part, Cmd.copy x) ∈ (t.core c).parked) ∧
      (∀ b ∈ s.stopCores c, ∀ x ∈ (s.core b).copies, x.started = false →
        ((s.core b).part, Cmd.copy x) ∈ (t.core b).parked ∧ x ∉ (t.core b).copies) ∧
      (t.core c).copies = k.copies.filter (fun x => x.started) ∧
      (∀ x ∈ k.nmq, x.phase = 1 → x.op ≠ 6 → (k.part, Cmd.nm x) ∈ (t.core c).parked) ∧
      (quiet → (∀ g ∈ gs, coreOf g ∈ s.stopCores c ∧ (s.strand g).outs.Pairwise (fun a b => a.id < b.id)) →
        (t.core c).saved = true ∧ .partitionSwap c ∈ t.work ∧
        ∀ g ∈ gs, (t.strand g).outs = [] ∧ (t.strand g).run ≠ .inPos ∧ g ∉ t.edgeQ ∧
          ((s.strand g).outs = [] → (s.strand g).ownPends = [] → (s.strand g).run ≠ .inPos → t.strand g = (s.strand g).dropDead)) ∧
      (¬quiet → t.mem = s.mem ∧ t.strands = s.strands ∧ (t.core c).saved = false)))) ∧
  (s.live = true → k.stop ≠ .none → k.saved = true →
    (∀ r l, s.nextRow c (stopAllows k.stop) = some r →
      let q := s.cadRow c r % 256
      q ≠ k.part →
      (k.shadow = some (q, l) → l.length = 4 → does (.partitionSwap c) (fun t =>
        (t.core c).stop = .none ∧ (t.core c).saved = false ∧ (t.core c).part = q ∧
        (t.core c).row = r ∧ (t.core c).left = s.cadRow c r / 2 ^ 32 ∧
        (∀ i x, l[i]? = some x → x.task.isSome = true → t.strand (4 * c + i) = { x with results := [] }) ∧
        ((∃ g ∈ gs, (s.strand g).task.isSome = true) → (t.core c).shadow = some (k.part, gs.map (fun g =>
          { s.strand g with results := k.results.filter (fun x => x.strand == g) }))) ∧
        (t.core c).copies = k.copies ++ k.parked.filterMap (fun e => match e with
          | (j, .copy x) => if j = q then some x else none | _ => none) ∧
        (t.core c).parked = k.parked.filter (fun e => e.1 != q))) ∧
      (k.shadow = none → does (.partitionSwap c) (fun t => (t.core c).part = q ∧
        ∀ g ∈ gs, ∀ i, (s.savedOn c q).find? (fun i => i.2.1 == g) = some i →
          (s.bad = [] → s.intact (s.saveSlot i.1 i.2.1) (SMap.get 0 s.saves (256 * i.2.1 + i.1)) slotUsed = true →
            t.strand g = { i.2.2 with results := [] }) ∧
          (∀ va, s.badImages c q = [(g, va)] → i.2.2.task.isSome = true → i.2.2.abort = none →
            ∃ a, (t.strand g).abort = some a ∧ a.cause = 0x21 ∧ a.addr = va % 2 ^ 57)))) ∧
    (s.nextRow c (stopAllows k.stop) = none →
      (s.hstop k.part = false → k.parked = [] → does (.partitionSwap c) (fun t =>
        t.core c = { k with stop := .none, saved := false, spent := false, asked := false } ∧ t.strands = s.strands)) ∧
      (s.hstop k.part = true → k.shadow = none → (∃ g ∈ gs, (s.strand g).task.isSome = true) → does (.partitionSwap c) (fun t =>
        (t.core c).stop = .none ∧ (t.core c).parked = k.parked ∧ (∀ g ∈ gs, t.strand g = {}) ∧
        (t.core c).shadow = some (k.part, gs.map (fun g =>
          { s.strand g with results := k.results.filter (fun x => x.strand == g) })))))) ∧
  (∀ u, s.live = true → (s.preg p.toNat 0).testBit 3 = true → s.startStrand u p.toNat = none →
    (s.wanting u p.toNat = none → exec (.priorityPreemption u p) s = .next s) ∧
    (∀ q e, s.wanting u p.toNat = some (q, e) → does (.priorityPreemption u p) (fun t =>
      (s.victim u p.toNat = none → ({ t with deps := s.deps } : State) = s) ∧
      (s.victim u p.toNat = some c →
        ({ t with cores := s.cores, work := s.work, deps := s.deps } : State) = s ∧ (∀ x, x ≠ c → t.core x = s.core x) ∧
        t.core c = { k with stop := .priority p.toNat } ∧ t.work = s.work ++ [.stopSequence c]) ∧
      SMap.get [] t.deps (u / 18) = (SMap.get [] s.deps (u / 18)).map (fun x =>
        if x.loc = e.loc ∧ x.seq = e.seq then { x with taken := true } else x))))

/-- Debug (19 R378-R397): a freeze by the host, its completion with vector 8, and the two resumes; the access port, which
answers 0x90 unless the device is frozen, 0x91 for a number or address it does not have and 0x92 for a write it refuses, which
is every write to a strand without a task; the reserved bits of a modifier descriptor stay zero (01 R17); an access to a stack
that retrains waits with BUSY set (20 R399); trace control and samples; and arming a replay. That DBGSTAT reads zero after a resume is
the model's reading (log 36), and so is what the other fields of TRCTL hold after a write that is refused EN (log 34). -/
def Obligations.DebugEvents : Prop := ∀ (s : State) (v : BitVec 64) (d n u : Nat), SMap.rising s.regs = true →
  let does := fun (i : Instr) (q : State → Prop) => ∃ t, exec i s = .next t ∧ q t
  let others := fun (ex : List Nat) (t : State) => ∀ d o, o < 2 ^ 20 → o ∉ ex → t.reg d o = s.reg d o
  let only := fun (ex : List Nat) (t : State) => ({ t with regs := s.regs } : State) = s ∧ others ex t
  let resumed := fun (arm : Option Nat) (t : State) => t.frz = 0 ∧ t.reg 0 0x60008 = 0 ∧ (s.tileOut = [] → t.mem = s.mem) ∧
    t.cores = s.cores ∧
    t.stepArm = arm ∧
    (∀ e ∈ s.cores, e.1 < 1152 → ∀ o ∈ [24, 32, 40, 48, 56], t.reg (e.1 / 288) (0x20000 + 64 * (e.1 % 288) + o) = 0) ∧ ∀ g, t.strand g = if (s.strand g).run = .stopped ∧ (s.strand g).doubled = false
      then { s.strand g with run := .ready } else s.strand g
  let sel := s.reg 0 0x61000
  let g := sel / 2 ^ 16 % 2 ^ 13
  let x := s.strand g
  let num := s.reg 0 0x61008
  let data := s.reg 0 0x61010
  let busy := ∃ k < 8, (s.reg (k / 2) (0x31028 + 0x100 * (k % 2))).testBit 0 = true
  let fails := fun (i : Instr) (e : Nat) => does i (fun t => only [0x61018] t ∧ t.reg 0 0x61018 = e * 256)
  let gives := fun (i : Instr) (w : Nat) => does i (fun t => only [0x61018, 0x61010] t ∧ t.reg 0 0x61018 = 0 ∧
    t.reg 0 0x61010 = w)
  let puts := fun (y : Strand → Prop) => does .daWriteState (fun t => ({ t with regs := s.regs, strands := s.strands } : State) = s ∧
    others [0x61018] t ∧ t.reg 0 0x61018 = 0 ∧ (∀ h, h ≠ g → t.strand h = s.strand h) ∧ y (t.strand g))
  (if s.frz = 0 then does .debugFreeze (fun t => t.frz = 1 ∧ ({ t with regs := s.regs, frz := 0 } : State) = s ∧
      others [0x60008] t ∧ t.reg 0 0x60008 = 0x50)
    else exec .debugFreeze s = .next s) ∧
  (s.frz = 1 → does .freezeComplete (fun t => t.frz = 2 ∧ (t.reg 0 0x60008).testBit 0 = true ∧ others [0x60008] t ∧
    t.strands = s.strands ∧ t.mem = s.mem ∧ (s.msixMask.testBit 8 = false → t.msixSent = s.msixSent ++ [8]))) ∧
  (s.frz = 2 → does .debugResume (resumed none) ∧
    does .debugStep (resumed (if s.reg 0 0x60008 / 2 ^ 4 % 2 ^ 4 = 5 then none else some (s.reg 0 0x60008 / 2 ^ 16 % 2 ^ 13)))) ∧
  (s.frz ≠ 2 → exec .debugResume s = .next s ∧ exec .debugStep s = .next s ∧
    ∀ i ∈ [Instr.daReadState, .daWriteState, .daReadUrs, .daWriteUrs, .daReadMemory, .daWriteMemory], fails i 0x90) ∧
  (s.frz = 2 →
    (x.task.isSome = true →
      (num < 0x40 → gives .daReadState (x.rs num).toNat ∧ (x.filed = true → puts (EffectOf (.sreg num (BitVec.ofNat 64 data)) x))) ∧
      (0x40 ≤ num → num < 0x60 → gives .daReadState (x.ra (num - 0x40)).toNat ∧
        (x.filed = true → puts (EffectOf (.areg (num - 0x40) (BitVec.ofNat 64 data)) x))) ∧
      (0x60 ≤ num → num < 0x80 →
        let i := (num - 0x60) / 2
        gives .daReadState ((x.rm i).toNat / 2 ^ (64 * (num % 2)) % 2 ^ 64) ∧
        (x.filed = true → puts (fun y => (∀ m, m ≠ i → y.rm m = x.rm m) ∧ ∀ b < 128, (y.rm i).getLsbD b =
          if b / 64 = num % 2 then data.testBit (b % 64) && !(decide (57 ≤ b) && decide (b < 72) && b != 64 && b != 65)
          else (x.rm i).getLsbD b))) ∧
      (num = 0x80 → gives .daReadState (x.preg.toNat ||| 1) ∧ puts (fun y => ∀ m < 8, y.rp m = (decide (m = 0) || data.testBit m))) ∧
      (num = 0x104 → gives .daReadState x.cyc.toNat) ∧
      (num = 0x200 → x.ctx.pc < 2 ^ 64 → gives .daReadState x.ctx.pc) ∧
      (num = 0x200 → (if x.ctx.done = 0 ∧ data % 32 = 0 ∧ data < 2 ^ 57 then puts (fun y => y = { x with ctx := { x.ctx with pc := data } })
        else fails .daWriteState 0x92)) ∧
      (0x300 ≤ num → num < 0x400 → gives .daReadState (x.seed (num - 0x300)).toNat)) ∧
    (x.task = none → (num < 0x80 ∨ 0x1000 ≤ num ∧ num < 0x2000 → gives .daReadState 0) ∧
      (num % 8 = 0 → num < 65536 → gives .daReadUrs 0) ∧ fails .daWriteState 0x92 ∧ fails .daWriteUrs 0x92) ∧
    (0x81 ≤ num ∧ num < 0xC0 ∨ 0xE0 ≤ num ∧ num < 0x100 ∨ 0x2000 ≤ num → fails .daReadState 0x91 ∧
      (x.task.isSome = true → fails .daWriteState 0x91)) ∧
    (num % 8 ≠ 0 ∨ 65536 ≤ num → fails .daReadUrs 0x91 ∧ (x.task.isSome = true → fails .daWriteUrs 0x91)) ∧
    (num % 8 = 0 → num < 65536 → x.task.isSome = true → x.errs = [] → gives .daReadUrs (leNat (x.ursRead num 8))) ∧
    (num % 8 = 0 → num < 65536 → x.task.isSome = true → does .daWriteUrs (fun t => t.reg 0 0x61018 = 0 ∧ t.mem = s.mem ∧
      (∀ h, h ≠ g → t.strand h = s.strand h) ∧ (∀ i < 8, (t.strand g).ursRead (num + i) 1 = ((leBytes 8 data).drop i).take 1) ∧
      (x.age = [] → ∀ b, (b < num ∨ num + 8 ≤ b) → (t.strand g).ursRead b 1 = x.ursRead b 1))) ∧
    (num % 8 ≠ 0 ∨ 2 ^ 39 ≤ num → fails .daReadMemory 0x91 ∧ fails .daWriteMemory 0x91) ∧
    (num % 8 = 0 → num < 2 ^ 39 → busy → ∀ i ∈ [Instr.daReadMemory, .daWriteMemory], does i (fun t =>
      ({ t with regs := s.regs, work := s.work } : State) = s ∧ others [0x61018] t ∧ t.reg 0 0x61018 = 1 ∧ t.work = s.work ++ [i])) ∧
    (num % 8 = 0 → num < 2 ^ 39 → ¬busy → sel.testBit 3 = false → s.bad = [] → gives .daReadMemory (s.memNat num 8)) ∧
    (num % 8 = 0 → num < 2 ^ 39 → ¬busy → s.tiles = [] → (∀ c, ∀ l ∈ (s.core c).dc, l.key + 64 ≤ num ∨ num + 8 ≤ l.key) →
      does .daWriteMemory (fun t => t.reg 0 0x61018 = 0 ∧ t.strands = s.strands ∧ t.memNat num 8 = data ∧
        ∀ a, (a < num ∨ num + 8 ≤ a) → t.memRead a 1 = s.memRead a 1))) ∧
  (u < 72 →
    let die := u / 18
    let b := 0x64000 + 64 * (u % 18)
    let ctl := s.reg die (b + 32)
    let size := s.reg die (b + 8)
    let legal := (∃ e, 12 ≤ e ∧ e ≤ 28 ∧ size = 2 ^ e) ∧ s.reg die b < 2 ^ 39 ∧ s.reg die b / 2 ^ 36 = (s.reg die b + size - 1) / 2 ^ 36
    does (.trctlWrite u v) (fun t => only [b + 32] t ∧ t.reg die (b + 32) / 256 = v.toNat % 2 ^ 32 / 256 ∧
      (t.reg die (b + 32) % 256 = 1 ↔ v.toNat.testBit 0 = true ∧ (ctl.testBit 0 = true ∨ legal)) ∧ t.reg die (b + 32) % 256 ≤ 1) ∧
    (s.up = true → s.dieAwake die = true → 8 ≤ ctl / 256 % 256 → ctl / 256 % 256 ≤ 24 → does (.traceSample u) (fun t =>
      t.strands = s.strands ∧ t.cores = s.cores ∧ (ctl.testBit 0 = false → t = s) ∧
      (∀ n, ctl.testBit 0 = true → ctl.testBit 20 = true → size = 32 * n → s.reg die (b + 24) ≤ s.reg die (b + 16) →
        s.reg die (b + 16) + 16 ≤ s.reg die (b + 24) + n → s.reg die (b + 16) + 16 < 2 ^ 64 →
        others [b + 16] t ∧ t.reg die (b + 16) = s.reg die (b + 16) + 16)))) ∧
  (d < 4 → n < 8 →
    let o := 0x63000 + 64 * n
    let old := s.reg d (o + 8)
    let np := v.toNat / 2 ^ 4 % 8
    let part := v.toNat / 2 ^ 32 % 256
    let buf := s.reg d (o + 16)
    old.testBit 2 = false → v.toNat.testBit 0 = true → does (.replayArm d n v) (fun t => only [o + 8] t ∧
      if np = 0 ∨ 4 < np ∨ 2 ^ 39 ≤ buf ∨ buf / 2 ^ 36 ≠ (buf + s.reg d (o + 24) - 1) / 2 ^ 36 then
        t.reg d (o + 8) / 2 ^ 16 % 256 = 0x83 ∧ (t.reg d (o + 8)).testBit 0 = false
      else t.reg d (o + 8) = part * 2 ^ 32 + np * 16 + 1))

/-- Resets, power, errors in storage and register writes (12 R269, R270, 20 R398-R408, 21 R408, R409): a cold reset leaves every
register and table at its reset value and every byte of the package zero; a warm one, by its three causes, keeps HBM and the
registers that the table of 20 R398 does not list, and says its cause in RSTSTAT; entering D3hot resets as a warm reset does, with
the last cause left as it was; a stack retrained clears its TRN bit, and RSTSTAT.TRN clears with the last stack or link; PWRCAP is
clamped, throttling is shown and sends vector 10 once, and a cap below the package's idle power throttles every core; errors are counted, or noted against what they hit; and a write through the
register window does what its register's own rule says. Which registers a warm reset keeps (log 83), the reset of D3hot (log 84),
that the host's MSI-X table outlives a warm reset (log 25), the numbering of storage errors (log 24), when TRN clears (log 26) and the
512-byte and 8-byte granules of an error in storage (log 59) are the model's reading. -/
def Obligations.PackageEvents : Prop := ∀ (s : State) (v : BitVec 64) (c n o : Nat), SMap.rising s.regs = true →
  let does := fun (i : Instr) (q : State → Prop) => ∃ t, exec i s = .next t ∧ q t
  let others := fun (ex : List Nat) (t : State) => ∀ d x, x < 2 ^ 20 → x ∉ ex → t.reg d x = s.reg d x
  let only := fun (ex : List Nat) (t : State) => ({ t with regs := s.regs } : State) = s ∧ others ex t
  let cleared := fun (t : State) => t.strands = [] ∧ t.cores = [] ∧ t.deps = [] ∧ t.queues = [] ∧ t.faults = [] ∧ t.layout = [] ∧
    t.fabric = [] ∧ t.tiles = [] ∧ t.ctlb = [] ∧ t.images = [] ∧ t.sweeps = [] ∧ t.permits = [] ∧ t.frz = 0
  let outside := fun (t : State) => ∀ a, 2 ^ 41 ≤ a → t.memRead a 1 = s.memRead a 1
  let warm := fun (last : Nat) (t : State) => cleared t ∧ outside t ∧ t.reg 0 0x80008 = 2 ^ 16 + 256 + last ∧
    (∀ a, a < 2 ^ 39 → t.memRead a 1 = s.memRead a 1) ∧ (∀ a, 2 ^ 39 ≤ a → a < 2 ^ 41 → t.memRead a 1 = [0#8]) ∧
    (∀ d x, x < 2 ^ 20 → x ≠ 0x80008 → warmKeeps x = false → t.reg d x = State.reset.reg d x) ∧
    (∀ k < 8, (t.reg (k / 2) (0x31028 + 0x100 * (k % 2))).testBit 0 = true ∧
      t.reg (k / 2) (0x31028 + 0x100 * (k % 2)) / 2 = s.reg (k / 2) (0x31028 + 0x100 * (k % 2)) / 2) ∧
    (∀ d x, x < 2 ^ 20 → warmKeeps x = true → x ∉ [0x31028, 0x31128, 0x34010, 0x80108] → (0x70000 ≤ x → x < 0x80000 → x % 64 ≠ 0) →
      t.reg d x = s.reg d x) ∧ ∀ j < 33, (t.reg 0 0x80108).testBit j = (s.reg 0 0x80108).testBit j
  let pwr := s.reg 0 0x80108
  let die := n / 2 % 4
  let hc := 0x31028 + 0x100 * (n % 2)
  let err := s.reg (c / 288) (0x20008 + 64 * (c % 288))
  let same := fun (i j : Instr) => exec i s = exec j s
  does .coldReset (fun t => cleared t ∧ outside t ∧ (∀ a, a < 2 ^ 41 → t.memRead a 1 = [0#8]) ∧ t.regs = State.reset.regs) ∧
  (v.toNat / 2 ^ 8 % 2 ^ 8 = 0xA5 → v.toNat.testBit 0 = true → does (.rstctlWarm v) (fun t => warm 1 t ∧
    (t.reg 0 0x80108).testBit 33 = false)) ∧
  ((v.toNat / 2 ^ 8 % 2 ^ 8 ≠ 0xA5 ∨ v.toNat.testBit 0 = false) → exec (.rstctlWarm v) s = .next s) ∧
  does .uliquinWarmReset (fun t => warm 3 t ∧ (t.reg 0 0x80108).testBit 33 = false) ∧
  does .thermalTrip (fun t => warm 2 t ∧ (t.reg 0 0x80108).testBit 33 = true ∧
    (s.msixMask.testBit 10 = false → t.msixSent = s.msixSent ++ [10])) ∧
  does (.hbmRetrainDone n) (fun t => others [hc, 0x80008] t ∧ ({ t with regs := s.regs } : State) = s ∧
    t.reg die hc = s.reg die hc / 2 * 2 ∧
    (t.reg 0 0x80008 = if (∀ k < 8, k ≠ 2 * die + n % 2 → (s.reg (k / 2) (0x31028 + 0x100 * (k % 2))).testBit 0 = false) ∧
        (∀ p < 24, s.reg 0 (0x91008 + 64 * p) % 16 ≠ 1) then s.reg 0 0x80008 % 2 ^ 16 else s.reg 0 0x80008 % 2 ^ 16 + 2 ^ 16)) ∧
  does (.pwrcapWrite v) (fun t => let cap := min (v.toNat % 65536) (pwr / 2 ^ 16 % 2 ^ 16)
    others [0x80100, 0x80108] t ∧ t.reg 0 0x80100 = cap ∧ t.reg 0 0x80108 % 65536 = min (pwr % 65536) cap ∧
      t.mem = s.mem ∧ t.strands = s.strands ∧
      (s.idlePw ≤ cap → only [0x80100, 0x80108] t ∧ t.reg 0 0x80108 / 65536 = pwr / 65536) ∧
      (cap < s.idlePw → t.live = false ∧ (∀ j, 16 ≤ j → (t.reg 0 0x80108).testBit j = (pwr.testBit j || decide (j = 32))) ∧
        (pwr.testBit 32 = false → s.msixMask.testBit 10 = false → t.msixSent = s.msixSent ++ [10]))) ∧
  does (.governorThrottle 1#1) (fun t => (t.reg 0 0x80108).testBit 32 = true ∧ others [0x80108] t ∧
    (pwr.testBit 32 = true → t = s) ∧
    (pwr.testBit 32 = false → s.msixMask.testBit 10 = false → t.msixSent = s.msixSent ++ [10])) ∧
  does (.governorThrottle 0#1) (fun t => only [0x80108] t ∧ (s.reg 0 0x80100 < s.idlePw → t = s) ∧
    (s.idlePw ≤ s.reg 0 0x80100 → ∀ j < 64, (t.reg 0 0x80108).testBit j = (pwr.testBit j && j != 32))) ∧
  exec (.pciePowerState 0#1) s = .next { s with d3 := false } ∧
  (s.d3 = true → exec (.pciePowerState 1#1) s = .next s) ∧
  (s.d3 = false → does (.pciePowerState 1#1) (fun t => warm (s.reg 0 0x80008 % 8) t ∧ t.d3 = true ∧ t.live = false)) ∧
  does (.translationCacheDrop c n) (fun t => t.mem = s.mem ∧ t.regs = s.regs ∧ t.strands = s.strands ∧
    (n < (s.core c).utlb.length → (t.core c).utlb = (s.core c).utlb.eraseIdx n ∧ t.ctlb = s.ctlb) ∧
    ((s.core c).utlb.length ≤ n → t.cores = s.cores ∧
      SMap.get [] t.ctlb (c / 16) = (SMap.get [] s.ctlb (c / 16)).eraseIdx (n - (s.core c).utlb.length))) ∧
  (∀ e : BitVec 8, 1 ≤ e.toNat → e.toNat ≤ 7 → does (.storageError c e 0#1 n) (fun t => only [0x20008 + 64 * (c % 288)] t ∧
    let w := t.reg (c / 288) (0x20008 + 64 * (c % 288))
    w / 2 ^ 48 = min 0xFFFF (err / 2 ^ 48 + 1) ∧ w / 2 ^ 24 % 2 ^ 8 = e.toNat ∧ w % 2 ^ 24 = err % 2 ^ 24 ∧
    w / 2 ^ 32 % 2 ^ 16 = err / 2 ^ 32 % 2 ^ 16)) ∧
  (n < 2 ^ 39 → does (.storageError c 0#8 0#1 n) (fun t => ({ t with regs := s.regs } : State) = s ∧
    t.reg 0 0x80200 % 2 ^ 32 = min (2 ^ 32 - 1) (s.reg 0 0x80200 % 2 ^ 32 + 1) ∧ t.reg 0 0x80200 / 2 ^ 32 = s.reg 0 0x80200 / 2 ^ 32 ∧
    let h := 0x31028 + 0x100 * (n / 2 ^ 36 % 2)
    others [h, 0x80200] t ∧ t.reg (n / 2 ^ 37) h / 2 ^ 16 % 2 ^ 16 = min 0xFFFF (s.reg (n / 2 ^ 37) h / 2 ^ 16 % 2 ^ 16 + 1))) ∧
  (n < 2 ^ 39 → exec (.storageError c 0#8 1#1 n) s = .next { s with bad := s.bad ++ [(n / 512 * 512, 512)] }) ∧
  (2 ^ 39 ≤ n → exec (.storageError c 0#8 1#1 n) s = .next { s with bad := s.bad ++ [(n / 8 * 8, 8)] }) ∧
  (o % 8 ≠ 0 ∨ 4 ≤ n → exec (.registerWrite n o v) s = .next s) ∧
  (n < 4 →
    (∀ x ∈ [0x18, 0x30000, 0x31008, 0x36018, 0x62000, 0x64018], does (.registerWrite n x v) (fun t => only [x] t ∧
      t.reg n x = v.toNat)) ∧
    (c < 8 → same (.registerWrite n (0x10018 + 0x100 * c) v) (.cswrDoorbell n c v)) ∧
    (c < 256 → same (.registerWrite n (0x40000 + 64 * c) v) (.pctlWrite (BitVec.ofNat 8 c) v)) ∧
    (c < 18 → same (.registerWrite n (0x64020 + 64 * c) v) (.trctlWrite (18 * n + c) v)) ∧
    (c < 8 → same (.registerWrite n (0x63008 + 64 * c) v) (.replayArm n c v)) ∧
    (∀ r : BitVec 2, c < 32 → same (.registerWrite n (0xA0000 + 32 * c + 8 * r.toNat) v) (.dmaWindowWrite c r v)) ∧
    same (.registerWrite n 0x36000 v) (.gstepWrite v) ∧ same (.registerWrite n 0x80000 v) (.rstctlWarm v) ∧
    same (.registerWrite n 0x80100 v) (.pwrcapWrite v) ∧ same (.registerWrite n 0x90000 v) (.pkgidWrite v) ∧
    (v.toNat.testBit 8 = true → same (.registerWrite n 0x34010 v) (.tictlGo (v.setWidth 8))) ∧
    (v.toNat / 2 ^ 8 % 4 = 1 → same (.registerWrite n 0x44000 v) (.ppreStop (v.setWidth 8))) ∧
    (v.toNat / 2 ^ 8 % 4 = 2 → same (.registerWrite n 0x44000 v) (.ppreResume (v.setWidth 8))))

/-- The fabric (21 R413-R423): PKGID takes one value after a reset; a locked window ignores every write, an enabled one all but
DWCTL, whose EN needs legal registers; a port changes state only by a step of its machine that EN and PKGID allow, and sends
vector 11; a flit that fails its check is discarded and counted, one out of sequence is discarded, one in sequence for this package is
taken in and its buffer given back; what is in flight on a port that leaves state 3 is lost, whatever the port does next: of requests on
a path that is lost a load carries an error, a store aborts its task, and a fetch of a remote operand takes
down the task that waits for it; a job card is answered, and its record registered, once some peer has been accepted; and the tiles of
a remote operand are asked for, then placed clean with a forward tag. What the other fields of DWCTL hold after a write that is refused
EN (log 34), a flit without a route (log 39) and the step of a port when its EN is written (log 41) are the model's reading; the cause
alone of a failed staging in its fault record is the model's choice (log 121), as are the LINK fields that change with a queue (log 15). -/
def Obligations.FabricEvents : Prop := ∀ (s : State) (v : BitVec 64) (n u : Nat), SMap.rising s.regs = true →
  Memory.wf s.mem = true →
  let does := fun (i : Instr) (q : State → Prop) => ∃ t, exec i s = .next t ∧ q t
  let others := fun (ex : List Nat) (t : State) => ∀ d x, x < 2 ^ 20 → x ∉ ex → t.reg d x = s.reg d x
  let only := fun (ex : List Nat) (t : State) => ({ t with regs := s.regs } : State) = s ∧ others ex t
  let port := 0x91000 + 64 * n
  let st := s.reg 0 (port + 8)
  (if (s.reg 0 0x90000).testBit 12 then exec (.pkgidWrite v) s = .next s
    else does (.pkgidWrite v) (fun t => only [0x90000] t ∧ t.reg 0 0x90000 = v.toNat % 4096 + 4096)) ∧
  (n < 32 →
    let w := 0xA0000 + 32 * n
    let base := s.reg 0 w
    let len := s.reg 0 (w + 8)
    let ctl := s.reg 0 (w + 24)
    let legal := base % 2 ^ 16 = 0 ∧ 2 ^ 39 ≤ base ∧ len % 2 ^ 16 = 0 ∧ 2 ^ 16 ≤ len ∧ len ≤ 2 ^ 39 ∧ base + len ≤ 2 ^ 40 ∧
      (v.toNat.testBit 4 = true → s.reg 0 (w + 16) < 2 ^ 40)
    (ctl.testBit 3 = true → ∀ r, exec (.dmaWindowWrite n r v) s = .next s) ∧
    (ctl.testBit 3 = false → ctl.testBit 0 = true → ∀ r, r ≠ 3#2 → exec (.dmaWindowWrite n r v) s = .next s) ∧
    (ctl.testBit 3 = false → ctl.testBit 0 = false → ∀ r, r ≠ 3#2 → does (.dmaWindowWrite n r v) (fun t =>
      only [w + 8 * r.toNat] t ∧ t.reg 0 (w + 8 * r.toNat) = if r = 0#2 then v.toNat % 2 ^ 40 else v.toNat)) ∧
    (ctl.testBit 3 = false → does (.dmaWindowWrite n 3#2 v) (fun t => only [w + 24] t ∧
      ((t.reg 0 (w + 24)).testBit 0 = true ↔ v.toNat.testBit 0 = true ∧ legal) ∧
      ∀ j, 1 ≤ j → (t.reg 0 (w + 24)).testBit j = (v.toNat.testBit j && (decide (j ≤ 4) || decide (16 ≤ j)) && decide (j < 36))))) ∧
  (n < 24 →
    (∀ (x : BitVec 4) (e : BitVec 12),
      let from' := st % 16
      let way := x.toNat ≠ from' ∧ (x.toNat ≤ 1 ∨ x.toNat = 2 ∧ (from' = 1 ∨ from' = 3) ∨ (x.toNat = 3 ∨ x.toNat = 4) ∧ from' = 2)
      let en := (s.reg 0 port).testBit 0 = true
      let barred := x ≠ 0#4 ∧ ¬en ∨ en ∧ (s.reg 0 0x90000).testBit 12 = false ∧ (from' = 1 ∨ 1 < x.toNat)
      (¬way ∨ barred → exec (.vlPortStateChange n x e) s = .next s) ∧
      (way → ¬barred → does (.vlPortStateChange n x e) (fun t => others [port + 8, 0x80008] t ∧
          t.reg 0 (port + 8) = x.toNat + (if x = 3#4 then e.toNat * 65536 else 0) ∧
          (t.reg 0 0x80008 / 2 ^ 16 = 1 ↔ s.hbmBusy = true ∨ ∃ p < 24, t.reg 0 (0x91008 + 64 * p) % 16 = 1) ∧
          (s.msixMask.testBit 11 = false → t.msixSent = s.msixSent ++ [11]) ∧
          (from' = 3 → .pathLost n ∈ t.work ∧ t.port n = {} ∧
            t.flights = s.flights.map (fun f => if f.port = n then { f with port := 32 } else f))))) ∧
    (∀ f : List (BitVec 8), (st % 16 ≠ 3 ∨ f.length ≠ 256 → exec (.flitReceive n f) s = .next s) ∧
      (st % 16 = 3 → f.length = 256 → crc64 0 (f.take 248) ≠ leNat (f.drop 248) → does (.flitReceive n f) (fun t =>
        only [0x80200] t ∧ t.reg 0 0x80200 % 2 ^ 32 = min (2 ^ 32 - 1) (s.reg 0 0x80200 % 2 ^ 32 + 1))) ∧
      (st % 16 = 3 → f.length = 256 → crc64 0 (f.take 248) = leNat (f.drop 248) → s.frz = 0 →
        (∀ e ∈ s.ports, e.2.rx = [] ∧ e.2.wait = []) → s.tileOut = [] →
        let fld := fun (o k : Nat) => leNat ((f.drop o).take k)
        let q := s.port n
        let grant := q.allow.set (fld 6 1 % 4) (q.allow.getD (fld 6 1 % 4) 0 + fld 6 1 / 4)
        does (.flitReceive n f) (fun t => ({ t with ports := s.ports } : State) = s ∧
          (fld 0 1 = 0 → t.port n = { q with allow := grant }) ∧
          (fld 0 1 ≠ 0 → fld 2 2 ≠ q.rxSeq → t = s) ∧
          (fld 0 1 ≠ 0 → fld 2 2 = q.rxSeq → s.reg 0 (0x98000 + 8 * (fld 4 2 % 4096)) % 32 ≠ n → (t.port n).allow = grant) ∧
          (fld 0 1 ≠ 0 → fld 2 2 = q.rxSeq → fld 4 2 % 4096 = s.reg 0 0x90000 % 4096 →
            t.port n = { q with allow := grant, rx := [], rxSeq := (q.rxSeq + 1) % 65536,
                                tx := q.tx ++ [flitIdle (fld 1 1 % 4)] })))) ∧
    ((∀ x ∈ s.flights, s.vlState x.port = 3) → exec (.pathLost n) s = .next s) ∧
    (s.up = true → (∀ g, (s.strand g).asks = []) → s.asks = [] → s.flights.any (fun x => s.vlState x.port != 3) = true → (∀ x ∈ s.flights, x.id < 2 ^ 64) →
      (∀ e ∈ s.cores, e.2.copies = [] ∧ e.2.nmq = []) → s.permits = [] → s.fabOut = [] → s.launches = [] →
      let lost := fun (id : Nat) => ∃ x ∈ s.flights, x.id = id ∧ s.vlState x.port ≠ 3
      ((∀ e ∈ s.deps, ∀ x ∈ e.2, x.fetch = none) → (∀ g, (s.strand g).outs = [] ∧ ((s.strand g).pends.map Pend.id).Nodup) →
        does (.pathLost n) (fun t => t.mem = s.mem ∧ t.regs = s.regs ∧ (∀ x ∈ t.flights, s.vlState x.port = 3) ∧ ∀ g,
          ({ t.strand g with pends := (s.strand g).pends } : Strand) = s.strand g ∧
          (t.strand g).pends.length = (s.strand g).pends.length ∧ ∀ (i : Nat) (q : Pend), (s.strand g).pends[i]? = some q →
            let cut := q.err = none ∧ q.kind.isToken = false ∧ lost q.id
            let va := (q.pcs.find? (fun z => decide (2 ^ 80 ≤ z.key))).elim 0 Piece.va
            (cut → (t.strand g).pends[i]? = some { q with val := some [], err := some va }) ∧
            (¬cut → (t.strand g).pends[i]? = some q))) ∧
      (∀ g o k, (∀ e ∈ s.deps, ∀ x ∈ e.2, x.fetch = none) → (s.strand g).outs = [o] → o.op.atom = none → lost o.id →
        (s.strand g).task = some k → (s.strand g).abort = none → (∀ h, h ≠ g → (s.strand h).outs = []) →
        does (.pathLost n) (fun t => t.mem = s.mem ∧ (t.strand g).outs = [] ∧ .taskAbort g ∈ t.work ∧
          ∃ a, (t.strand g).abort = some a ∧ a.cause = 0x21)) ∧
      (∀ d e id, s.deps = [(d, [e])] → e.st = 2 → e.staged = false → e.fetch = some id → lost id → d < 4 → e.clu < 18 →
        (s.reg d (trBlock (18 * d + e.clu) + 32)).testBit 0 = false → (∀ g, (s.strand g).outs = [] ∧ (s.strand g).pends = []) →
        (∀ q ∈ SMap.get [] s.queues (18 * d + e.clu), q.loc ≠ e.loc) →
        does (.pathLost n) (fun t => t.memRead (e.loc + 20) 1 = [5#8] ∧
          (∀ a, a ≠ e.loc + 20 → t.memRead a 1 = s.memRead a 1) ∧
          ∃ f, SMap.get [] t.faults d = SMap.get [] s.faults d ++ [f] ∧ f.kind = 1 ∧ f.tcr = 0x21#64 ∧ f.va = e.va)))) ∧
  (∀ (p : BitVec 8) (a : Nat) (b : List (BitVec 8)), s.up = true → b.length = 512 → a < 2 ^ 39 → s.bad = [] →
    ((∀ k < 24, s.vlState k ≠ 3) → exec (.jobCardRegister p a b) s = .next s) ∧
    ((∃ k < 24, s.vlState k = 3) → does (.jobCardRegister p a b) (fun t => ∃ q id w, t.fabOut = s.fabOut ++ [.result q id w] ∧
      (∀ x, x + 1 ≤ a ∨ a + 512 ≤ x → leNat ((b.drop 20).take 1) ≠ 0 → t.memRead x 1 = s.memRead x 1) ∧
      (leNat ((b.drop 20).take 1) ≠ 0 → w = BitVec.ofNat 64 (2 ^ 63 + 0x40 * 2 ^ 48) ∧ t.memRead a 512 = b) ∧
      (leNat ((b.drop 20).take 1) = 0 → recOf b = none → w = BitVec.ofNat 64 (2 ^ 63 + 0x41 * 2 ^ 48) ∧ t.memRead a 512 = b) ∧
      ∀ r, leNat ((b.drop 20).take 1) = 0 → recOf b = some r →
        let seq := SMap.get 0 s.spawnNo p.toNat
        seq < 2 ^ 48 → SMap.rising s.spawnNo = true →
        (∀ u, ∀ z ∈ SMap.get [] s.queues u, z.loc = a ∨ z.loc + 512 ≤ a ∨ a + 512 ≤ z.loc) → w = BitVec.ofNat 64 seq ∧
          SMap.get 0 t.spawnNo p.toNat = (seq + 1) % 2 ^ 48 ∧ t.memRead (a + 20) 1 = [if r.join = 0 then 2#8 else 1#8] ∧
          ∃ dd e, SMap.get [] t.deps dd = SMap.get [] s.deps dd ++ [e] ∧ e.loc = a ∧ e.part = p.toNat ∧ e.seq = seq ∧
            e.regions = r.regions ∧ e.graph = r.graph ∧ e.st = (if r.join = 0 then 2 else 1)))) ∧
  (∀ e, s.up = true → s.dieAwake (u / 18) = true → s.stageEnt u n = some e →
    let rs := e.regions.filter (fun r => r.kind == 0 && r.acc.testBit 0 && s.remoteHandle e.part r.handle)
    let marked := fun (t : State) => SMap.get [] t.deps (u / 18) = (SMap.get [] s.deps (u / 18)).map (fun x =>
      if x.loc = e.loc ∧ x.seq = e.seq then { x with staged := true } else x)
    (e.fetch = none → does (.stagingFetch u n) (fun t => t.mem = s.mem ∧ t.strands = s.strands ∧ t.cores = s.cores ∧
      .stagingFetch u e.loc ∈ t.work ∧ SMap.get [] t.deps (u / 18) = (SMap.get [] s.deps (u / 18)).map (fun x =>
        if x.loc = e.loc ∧ x.seq = e.seq then { x with fetch := some s.nid } else x))) ∧
    (∀ id, e.fetch = some id → s.ready id = false → exec (.stagingFetch u n) s = .next s) ∧
    (∀ id, e.fetch = some id → s.ready id = true →
      (rs = [] → does (.stagingFetch u n) (fun t => marked t ∧ ({ t with deps := s.deps, flights := s.flights } : State) = s)) ∧
      (∀ r l z, rs = [r] → s.lay e.part r.handle = some l → regionTiles l r = [z] →
        let bad := (s.badPos l (fun _ => none) ((List.range (tileItems l.fc)).map (l.tilePos z))).isSome
        (bad = false → does (.stagingFetch u n) (fun t => marked t ∧
          ∃ y ∈ SMap.get [] t.tiles u, y.isTile e.part r.handle z = true ∧ y.dirty = 0 ∧ y.fwd = some e.seq)) ∧
        (bad = true → (s.reg (u / 18) (trBlock u + 32)).testBit 0 = false → (∀ q ∈ SMap.get [] s.queues u, q.loc ≠ e.loc) →
          does (.stagingFetch u n) (fun t => t.memRead (e.loc + 20) 1 = [5#8] ∧
            (∀ a, a ≠ e.loc + 20 → t.memRead a 1 = s.memRead a 1) ∧
            ∃ f, SMap.get [] t.faults (u / 18) = SMap.get [] s.faults (u / 18) ++ [f] ∧ f.kind = 1 ∧ f.tcr = 0x21#64 ∧
              f.va = e.va)))))

-- Decoding, the step, the invariants.

/-- A word of each slot, written out field by field from its encoding (03 R75-R83), decodes to its operation: a C, an S, an A,
an L, a V, an X and an E word; and an opcode that no table lists is illegal. -/
def Obligations.DecodeWords : Prop :=
  decodeSlot 0 (0b000001#6 ++ 0b011#3 ++ 0b1#1 ++ 0b0#1 ++ 0b0#1 ++ 0x8001#16 ++ 0x5#4) = some (.br 3 1 0 0x8001 5) ∧
  decodeSlot 1 (0x01#6 ++ 0b010#3 ++ 0b0#1 ++ 0x2A#6 ++ 0x15#6 ++ 0x07#6 ++ 0x1#4) = some (.sub 2 0 0x2A 0x15 0x07) ∧
  decodeSlot 2 (0x07#6 ++ 0b10101#5 ++ 0b0110#4 ++ 0#17) = some (.astep 0b10101 0b0110) ∧
  decodeSlot 3 (0x07#6 ++ 0b10101#5 ++ 0b0110#4 ++ 0#17) = some (.astep 0b10101 0b0110) ∧
  decodeSlot 4 (0x0B#6 ++ 0b001#3 ++ 0b0#1 ++ 0x21#6 ++ 0x11#5 ++ 0b1#1 ++ 0x9#4 ++ 0x3E#6) = some (.stD 1 0 0x21 0x11 1 9 0x3E) ∧
  decodeSlot 5 (0x02#6 ++ 0b101#3 ++ 0b0#1 ++ 0x31#6 ++ 0x12#6 ++ 0b01#2 ++ 0x23#6 ++ 0b10#2) = some (.vsubF 5 0 0x31 0x12 1 0x23 2) ∧
  decodeSlot 6 (0x0C#6 ++ 0x01#6 ++ 0x02#6 ++ 0x03#6 ++ 0b100#3 ++ 0b00101#5) = some (.mtrs 1 2 3 4 0b101) ∧
  decodeSlot 7 (0x02#6 ++ 0b011#3 ++ 0x3C#6 ++ 0x12#5 ++ 0x05#5 ++ 0x2D#6 ++ 0b0#1) = some (.cpT 3 0x3C 0x12 0x05 0x2D) ∧
  (∀ k ∈ [0, 1, 2, 3, 4, 5, 6, 7], ∀ b : BitVec 26, decodeSlot k (0x3F#6 ++ b) = none)

/-- Decoding and encoding agree (03 R75-R83): the word of every well-formed slot operation decodes, in its slot, to that
operation, in both address slots for an operation of theirs; and a word that decodes is the one word of what it decodes to. -/
def Obligations.DecodeEncode : Prop :=
  (∀ i : Instr, i.wf = true → i.kind ≠ .event → decodeSlot i.kind.slot (encode i) = some i) ∧
  (∀ i : Instr, i.wf = true → i.kind = .a → decodeSlot 3 (encode i) = some i) ∧
  ∀ (k : Nat) (w : BitVec 32) (i : Instr), decodeSlot k w = some i →
    encode i = w ∧ i.wf = true ∧ i.kind ≠ .event ∧ (k = i.kind.slot ∨ k = 3 ∧ i.kind = .a)

/-- A step runs what is decoded. A move that names an event is that event's meaning, where the event may happen (one at the
register windows or a port needs the I/O die, log 106, and GO of the debug port finds no access waiting, 19 R387). A core clock in which a
strand issues takes the bundle at its pc, and with no wait, fault or comparator in the way commits its open slots in order: each slot holds
the operation its own four bytes decode to in that slot, and committing one is that operation's meaning, with the strand and
the slot as those in issue and what higher slots write over recorded (03 R68, R70, R87). Around it the step counts blocked
cycles, lets the agents around the core act when no step is due, keeps the translations of the fetch, counts the issue, and
completes the bundle, and ends the task in the same clock where the conditions of a `done` hold (05 R124). The bundle is one that no
peer has to send first. -/
def Obligations.StepRuns : Prop := ∀ (s : State) (l : List Move),
  (∀ i t, s.agenda = .ev i :: l → i.kind = .event → (s.mayHappen i = true → exec i { s with agenda := l } = .next t →
    step s = .next t) ∧ (s.mayHappen i = false → step s = .next { s with agenda := l })) ∧
  (∀ c k bs ts, s.agenda = .tick c :: l → c < 1152 → s.live = true → s.dieAwake (c / 288) = true →
    let g := 4 * c + k
    let sa : State := { s with agenda := l }
    let s0 := countBlocked c (if s.rested = true then around c sa else sa)
    let t := s0.strand g
    (s0.core c).pos = some k → s0.inPos g = true → (s0.core c).stop = .none → (s0.core c).spent = false → s0.braked g = false → s0.landHeld g = false →
    t.hold = .none → t.ctx.done ≠ 0xFF → t.ctx.sc = 0 → t.ctx.anc = 0 ∨ t.ctx.done ≠ 0 → t.due = none → t.asks = [] → s0.fetchAsk g t.ctx.pc = none →
    s0.bundleAt g t.ctx.pc = some (bs, ts) →
    let s1 := keepTlbs ts { s0 with cur := { g } }
    let slots := openSlots s1 g (words bs)
    let word := fun (n : Nat) => BitVec.ofNat 32 (leNat ((bs.drop (4 * n)).take 4))
    bundleBar (s1.strand g) slots = none → bundleFlt (s1.strand g) slots = none →
    slots.findSome? (fun x => if x.sem.guard then x.sem.hold else none) = none → s1.stopSlot g slots = none →
    let s2 := finish g (slots.foldl (commitOne g slots) (countIssue g slots s1))
    (∀ t, exec (.positionHoldEnd g) s2 = .next t → step s = .next (if (s2.strand g).hold = .done ∧ s2.inPos g = true then t else s2)) ∧
    (bs.length = 32 → ∀ x ∈ slots, x.k < 8 ∧ t.ctx.done.testBit x.k = false ∧
      x.op = if word x.k = 0#32 then none else decodeSlot x.k (word x.k)) ∧
    ∀ x ∈ slots, ∀ (i : Instr) (u v : State), x.op = some i → u.inPos g = true → (u.strand g).abort = none →
      exec i { u with cur := { g, slot := x.k, cancel := cancels slots x } } = .next v → commitOne g slots u x = v)

/-- No instruction ends a run: every constructor, on every operand and in every state, answers a next state. The causes
that the manual names are taken as traps, aborts or reports. That no step ends in a fault or a refusal is the model's choice, and so is
that an event which is not enabled leaves the state as it is (logs 66 and 57). -/
def Obligations.NeverStops : Prop := ∀ (i : Instr) (s : State), ∃ t, exec i s = .next t

/-- What reset leaves (20 R398-R400, 15 R318, R319, 12 R268, R269, 18 R367, R369, 21 R411): every stack retrains, no firmware is
verified, all vectors are masked, no core is in use, every strand is empty, every byte inside the package is zero, no handle is bound and
no sweep runs. A register that these rules give a value reads it: FQBASE, FQSIZE and FQRD, CSCTL and CSST of every stream, CST of every
core with IDLE alone beside its repair map, CERR and CEAR, the block of every partition, every row and every cadence state, GSTEP, RSTCTL
and RSTSTAT, and the registers of the fabric. The tables are in their canonical forms. The mask of the vectors is PRESUMED (log 3), and
the registers of a strand that runs no task hold at reset what they hold at task entry (log 1, the model's choice). -/
def Obligations.ResetLeaves : Prop :=
  let s := State.reset
  Memory.wf s.mem = true ∧ Tables s ∧ s.mem = [] ∧ s.strands = [] ∧ s.cores = [] ∧ s.msixMask = 0xFFFF ∧ s.frz = 0 ∧
  s.live = false ∧ (∀ a, a < 2 ^ 41 → s.memRead a 1 = [0#8]) ∧
  (∀ k < 8, (s.reg (k / 2) (0x31028 + 0x100 * (k % 2))).testBit 0 = true) ∧ s.reg 0 0x80400 = 0 ∧
  (∀ g n, (s.strand g).rs n = 0#64 ∧ (s.strand g).ra n = 0#64 ∧ (s.strand g).rm n = 0#128 ∧ (s.strand g).rvd n = 0) ∧
  s.layout = [] ∧ s.fabric = [] ∧ s.sweep = none ∧ s.sweeps = [] ∧
  ∀ d < 4,
    (∀ o ∈ [0, 8, 24, 0x36000, 0x36010, 0x80000], s.readReg d o = 0) ∧ s.readReg d 0x80008 = 2 ^ 16 ∧
    (∀ n < 8, ∀ o ∈ [32, 40], s.readReg d (0x10000 + 0x100 * n + o) = 0) ∧
    (∀ c < 288, let b := 0x20000 + 64 * c
      s.readReg d (b + 8) = 0 ∧ s.readReg d (b + 16) = 0 ∧
      s.readReg d b = 2 ^ 10 + (if 288 * d + c ∈ Config.repair.halfWidth then 2 else 0) +
        if 288 * d + c ∈ Config.repair.fxd then 1 else 0) ∧
    (∀ o, 0x40000 ≤ o → o < 0x44000 → s.readReg d o = 0) ∧ (∀ o, 0x50000 ≤ o → o < 0x52900 → s.readReg d o = 0) ∧
    ∀ o, 0x90000 ≤ o → o < 0xA0400 → s.readReg d o = 0

/-- Every step keeps the canonical form of memory: addresses strictly rising, and no byte listed that equals what an unlisted
address reads as. -/
def Obligations.StepKeepsMemory : Prop := ∀ s t : State, Memory.wf s.mem = true → step s = .next t → Memory.wf t.mem = true

/-- Every step keeps the tables of the state in order: the registers, the sequence numbers and the register files of every
strand. -/
def Obligations.StepKeepsTables : Prop := ∀ s t : State, Tables s → step s = .next t → Tables t

-- The arithmetic of the array.

/-- What the array and the block formats compute (07 R161, 02 R65, 10 R219, R221, 11 R240-R252). ChooseScale takes 127 for FP32, BF16 and
a block of zeros, and otherwise the smallest scale under which the largest magnitude fits its format. A cell of a product takes sixteen
groups of four products, each summed exactly, rounded, and added with a second rounding; in 2:4 form each group is two products that the
metadata selects; an integer cell saturates at 36 bits after each group. A step of elimination, Cholesky, the inverse, the solve and
a rotation gives every cell of its tile from the cells before it, cell by cell, and a breakdown under the trap action stops before
the step. Grow takes the largest active magnitude over DEN, rounded once. The result of a stepwise command whose operands no copy has
written is that of its steps from NEXT on, one after another, after its start actions (or, of `mres`, after Grow alone, on what FSR
records): in place up to a breakdown that stops it, and complete with NEXT 64 otherwise. A record with one rotation turns two rows; and
`mperm.inv` undoes `mperm`. -/
def Obligations.ArrayArithmetic : Prop :=
  let sq := fun (m : Tile) => m.length = 64 ∧ ∀ r ∈ m, r.length = 64
  let zero := Machine.Num.fin false 0 0
  let one := Machine.Num.fin false 1 0
  let fx := fun (fxd : Bool) (x : Machine.Num) => cellCode (roundFx fxd x)
  let stops := fun (f g : Fam) (n k : Nat) =>
    f.trap = true → g = { (if f.bkd = 0 then { f with bkd := n, bcol := k } else f) with next := k, stop := some n }
  let noted := fun (f g : Fam) (n k : Nat) => g.stop = none ∧ (g.bkd, g.bcol) = if f.bkd = 0 then (n, k) else (f.bkd, f.bcol)
  let clean := fun (f g : Fam) => g.stop = none ∧ (g.bkd, g.bcol) = (f.bkd, f.bcol)
  let grown := fun (f g : Fam) (k : Nat) => let h : Fam := { f with a := g.a }; g.gfr = (h.grow (h.active k)).gfr
  (∀ (t : Strand) (fc : Nat) (m : Machine.Num),
    let ty := fcType fc
    let ea := chooseScale t fc m
    let least := fun (lo : Nat) (bias : Int) (top : Machine.Num) => lo ≤ ea ∧ ea ≤ 254 ∧
      (∀ v, lo ≤ v → v < ea → top.lt (m.scale (bias - v)) = true) ∧ (ea < 254 → top.lt (m.scale (bias - ea)) = false)
    (ty ≤ 1 ∨ m.isZero = true → ea = 127) ∧
    (m.isZero = false →
      (ty = 2 → least 0 127 (.fin false 2047 5)) ∧ (ty = 3 → least 0 127 (.fin false 14 5)) ∧ (ty = 4 → least 0 127 (.fin false 7 13)) ∧
      (ty = 5 → least 0 127 (.fin false (if t.s8 = true then 127 else 255) 0)) ∧
      (ty = 6 → least 0 127 (.fin false (if t.s4 = true then 7 else 15) 0)) ∧
      (ty = 7 → least (fcParam fc) 132 (.fin false 63 0)) ∧ (ty = 8 → least (fcParam fc) 139 (.fin false 8191 0)))) ∧
  (∀ (bs : List (BitVec 8)) (n : Nat), bs.length = 18432 → n < 4096 → (accCells bs).getD n 0 = leNat bs / 2 ^ (36 * n) % 2 ^ 36) ∧
  (∀ (x : XCmd) (i j : Nat), i < 64 → j < 64 →
    let par := fun (n : Nat) => x.par.getD n 0
    let data := fun (n : Nat) => x.data.getD n []
    let cell := (accCells (data 2)).getD (64 * i + j) 0
    let got := (mulCells x).getD (64 * i + j) 0
    let ix := fun (n g : Nat) => leNat (((data 3).drop (8 * i)).take 8) / 2 ^ (4 * g + 2 * n) % 4
    (par 2 ≠ 1 →
      let ta := tileNums x.efr x.fxd (par 0) (data 0)
      let tb := tileNums x.efr x.fxd (par 1) (data 1)
      let a := fun (k : Nat) => ta.getD (64 * i + k) .nan
      let b := fun (k : Nat) => tb.getD (64 * k + j) .nan
      let two := fun (k p l q : Nat) (r : Machine.Num) => Machine.Num.add false (Machine.Num.mul (a k) (b p)) (Machine.Num.add false (Machine.Num.mul (a l) (b q)) r)
      let dot := fun (group : Nat → Machine.Num) => cellCode ((List.range 16).foldl (fun acc g =>
        roundFx x.fxd (Machine.Num.add false acc (roundFx x.fxd (group g)))) (Fmt.fx36.decode cell))
      ta.length = 4096 → tb.length = 4096 →
        (par 3 ≠ 1 → got = dot (fun g => two (4 * g) (4 * g) (4 * g + 1) (4 * g + 1)
          (two (4 * g + 2) (4 * g + 2) (4 * g + 3) (4 * g + 3) (.fin true 0 0)))) ∧
        (par 3 = 1 → (data 3).length = 512 →
          got = dot (fun g => two (2 * g) (4 * g + ix 0 g) (2 * g + 1) (4 * g + ix 1 g) (.fin true 0 0)))) ∧
    (par 2 = 1 →
      let ta := tileInts x.efr (par 4) (par 0) (data 0)
      let tb := tileInts x.efr (par 4 + 4096) (par 1) (data 1)
      let a := fun (k : Nat) => ta.getD (64 * i + k) 0
      let b := fun (k : Nat) => tb.getD (64 * k + j) 0
      let dot := fun (group : Nat → Int) => intCode 36 ((List.range 16).foldl (fun acc g =>
        max (-(2 ^ 35)) (min (2 ^ 35 - 1) (acc + group g))) (if cell < 2 ^ 35 then (cell : Int) else cell - 2 ^ 36))
      ta.length = 4096 → tb.length = 4096 → cell < 2 ^ 36 →
        (par 3 ≠ 1 → got = dot (fun g => a (4 * g) * b (4 * g) + a (4 * g + 1) * b (4 * g + 1) + a (4 * g + 2) * b (4 * g + 2) +
          a (4 * g + 3) * b (4 * g + 3))) ∧
        (par 3 = 1 → (data 3).length = 512 →
          got = dot (fun g => a (2 * g) * b (4 * g + ix 0 g) + a (2 * g + 1) * b (4 * g + ix 1 g))))) ∧
  (∀ (f : Fam) (k : Nat), sq f.a → k < 64 → f.pvr.length = 64 → f.stop = none →
    let g := mluStep f k
    let v := f.a.val
    let np := f.tfn.testBit 0 = true
    let here := fun (i : Nat) => k ≤ i ∧ i < 64 ∧ (v i k).isNan = false
    let nan := if f.tfn.testBit 0 = true then (v k k).isNan = true else ∃ i, k ≤ i ∧ i < 64 ∧ (v i k).isNan = true
    ∃ p, k ≤ p ∧ p < 64 ∧ (np ∨ (∀ i, ¬here i) → p = k) ∧
      (¬np → (∃ i, here i) → here p ∧ (∀ i, here i → (v p k).abs.lt (v i k).abs = false) ∧
        ∀ i, here i → i < p → (v i k).abs.lt (v p k).abs = true) ∧
      let piv := v p k
      let bad := nan ∨ piv = .inf true ∨ piv = .inf false
      let none' := ¬bad ∧ piv.isZero = true
      (bad → stops f g 2 k) ∧ (none' → stops f g 1 k) ∧ (f.trap = false → (bad → noted f g 2 k) ∧ (none' → noted f g 1 k)) ∧
      (¬bad → ¬none' → clean f g) ∧
      (f.trap = false ∨ ¬bad ∧ ¬none' → g.pvr = f.pvr.set k p ∧
        ({ g with a := f.a, pvr := f.pvr, gfr := f.gfr, bkd := f.bkd, bcol := f.bcol } : Fam) = f ∧
        (if piv.isZero = true then g.gfr = f.gfr else grown f g (k + 1)) ∧
        let b := fun (i j : Nat) => f.a.code (if i = k then p else if i = p then k else i) j
        let w := fun (i j : Nat) => Fmt.fx36.decode (b i j)
        (piv.isZero = true → ∀ i j, i < 64 → j < 64 → g.a.code i j = b i j) ∧
        (piv.isZero = false → ∀ i j, i < 64 → j < 64 → (i ≤ k ∨ j < k → g.a.code i j = b i j) ∧
          (k < i → g.a.code i k = fx f.fxd (Machine.Num.div (w i k) piv)) ∧
          (k < i → k < j → g.a.code i j = fx f.fxd (Machine.Num.sub false (w i j) (Machine.Num.mul (g.a.val i k) (w k j))))))) ∧
  (∀ (f : Fam) (k : Nat), sq f.a → k < 64 → f.stop = none →
    let g := cholStep f k
    let v := f.a.val
    let d := v k k
    let skip := d.isFin = true ∧ zero.lt d = false
    (d.isFin = false → stops f g 2 k) ∧ (skip → stops f g 3 k) ∧
    (f.trap = false → (d.isFin = false → noted f g 2 k) ∧ (skip → noted f g 3 k ∧ g.a = f.a ∧ g.gfr = f.gfr)) ∧
    (g.stop = none → ({ g with a := f.a, gfr := f.gfr, bkd := f.bkd, bcol := f.bcol } : Fam) = f) ∧
    (d.isFin = true → ¬skip → clean f g) ∧
    (¬skip → d.isFin = true ∨ f.trap = false → grown f g (k + 1) ∧ g.a.code k k = fx f.fxd (Machine.Num.sqrt d) ∧
      (∀ i, k < i → i < 64 → g.a.code i k = fx f.fxd (Machine.Num.div (v i k) (g.a.val k k))) ∧
      (∀ i j, k < j → j ≤ i → i < 64 → g.a.code i j = fx f.fxd (Machine.Num.sub false (v i j) (Machine.Num.mul (g.a.val i k) (g.a.val j k)))) ∧
      ∀ i j, i < 64 → j < 64 → i < k ∨ j < k ∨ i < j → g.a.code i j = f.a.code i j)) ∧
  (∀ (f : Fam) (j : Nat), sq f.a → j < 64 → f.stop = none →
    let g := triStep f j
    let v := f.a.val
    let d := v j j
    let w := if f.ud = true then one else roundFx f.fxd (Machine.Num.div one d)
    (f.ud = false → (d.isFin = false → stops f g 2 j) ∧ (d.isZero = true → stops f g 1 j) ∧
      (f.trap = false → (d.isFin = false → noted f g 2 j) ∧ (d.isZero = true → noted f g 1 j))) ∧
    (f.ud = true ∨ d.isFin = true ∧ d.isZero = false → clean f g) ∧
    (g.stop = none → ({ g with a := f.a, bkd := f.bkd, bcol := f.bcol } : Fam) = f) ∧
    (f.ud = true ∨ f.trap = false ∨ d.isFin = true ∧ d.isZero = false →
      g.a.code j j = (if f.ud = true then f.a.code j j else cellCode w) ∧
      (∀ i < j, g.a.code i j = fx f.fxd (Machine.Num.mul w.neg ((List.range (j - i)).foldl (fun t n => roundFx f.fxd (Machine.Num.add false t
        (Machine.Num.mul (if f.ud = true ∧ n = 0 then one else v i (i + n)) (v (i + n) j)))) zero))) ∧
      ∀ r c, r < 64 → c < 64 → c ≠ j ∨ j < r → g.a.code r c = f.a.code r c)) ∧
  (∀ (f : Fam) (lower : Bool) (n : Nat), sq f.a → sq f.q → n < 64 → f.stop = none →
    let g := trsStep lower f n
    let k := if lower = true then n else 63 - n
    let d := f.q.val k k
    let later := fun (i : Nat) => lower = true ∧ k < i ∨ lower = false ∧ i < k
    (f.ud = false → (d.isFin = false → stops f g 2 n) ∧ (d.isZero = true → stops f g 1 n) ∧
      (f.trap = false → (d.isFin = false → noted f g 2 n) ∧ (d.isZero = true → noted f g 1 n))) ∧
    (f.ud = true ∨ d.isFin = true ∧ d.isZero = false → clean f g) ∧
    (g.stop = none → ({ g with a := f.a, bkd := f.bkd, bcol := f.bcol } : Fam) = f) ∧
    (f.ud = true ∨ f.trap = false ∨ d.isFin = true ∧ d.isZero = false → g.q = f.q ∧ ∀ c < 64,
      g.a.code k c = (if f.ud = true then f.a.code k c else fx f.fxd (Machine.Num.div (f.a.val k c) d)) ∧
      ∀ i < 64, i ≠ k → (later i → g.a.code i c = fx f.fxd (Machine.Num.sub false (f.a.val i c) (Machine.Num.mul (f.q.val i k) (g.a.val k c)))) ∧
        (¬later i → g.a.code i c = f.a.code i c))) ∧
  (∀ (f : Fam) (k : Nat), k < 64 → f.stop = none →
    let bad := ∃ i, k ≤ i ∧ i < 64 ∧ (f.a.val i k).isFin = false
    let g := qrStep f k
    let h := ((List.range (63 - k)).map (fun i => k + 1 + i)).foldl (qrRot k) f
    (bad → stops f g 2 k) ∧ (f.trap = false → bad → noted f g 2 k) ∧ (¬bad → clean f g) ∧
    (¬bad ∨ f.trap = false → g.a = h.a ∧ g.q = h.q ∧ grown f g (k + 1) ∧
      ({ g with a := f.a, q := f.q, gfr := f.gfr, bkd := f.bkd, bcol := f.bcol } : Fam) = f)) ∧
  (∀ (f : Fam) (k i : Nat), sq f.a → sq f.q → k < i → i < 64 →
    let g := qrRot k f i
    let x := f.a.val k k
    let y := f.a.val i k
    let h := Machine.Num.sqrt (Machine.Num.add false (Machine.Num.mul x x) (Machine.Num.mul y y))
    let unit := fun (v : Machine.Num) => if x.isFin = true ∧ y.isFin = true then fx f.fxd (Machine.Num.div v h) else cellCode .nan
    let c := g.q.val i k
    let s := g.q.val k i
    (y.isZero = true → g = f) ∧
    (y.isZero = false → g.q.code i k = unit x ∧ g.q.code k i = unit y ∧ g.a.code k k = fx f.fxd h ∧ g.a.code i k = 0 ∧
      (∀ j, k < j → j < 64 → g.a.code k j = fx f.fxd (Machine.Num.add false (Machine.Num.mul c (f.a.val k j)) (Machine.Num.mul s (f.a.val i j))) ∧
        g.a.code i j = fx f.fxd (Machine.Num.sub false (Machine.Num.mul c (f.a.val i j)) (Machine.Num.mul s (f.a.val k j)))) ∧
      (∀ r j, r < 64 → j < 64 → j < k ∨ r ≠ k ∧ r ≠ i → g.a.code r j = f.a.code r j) ∧
      ∀ r j, r < 64 → j < 64 → (r, j) ≠ (i, k) → (r, j) ≠ (k, i) → g.q.code r j = f.q.code r j)) ∧
  (∀ (fxd tr : Bool) (q a : Tile) (k i : Nat), sq a → k < i → i < 64 →
    let same := fun (m n : Nat) => Machine.Num.eqv (q.val n m) one = true ∧ (q.val m n).isZero = true
    let g := applyRots fxd tr q a
    let c := q.val i k
    let s := q.val k i
    let plus := fun (x y : Machine.Num) => fx fxd (Machine.Num.add false (Machine.Num.mul c x) (Machine.Num.mul s y))
    let less := fun (x y : Machine.Num) => fx fxd (Machine.Num.sub false (Machine.Num.mul c x) (Machine.Num.mul s y))
    (∀ m n, m < n → n < 64 → (m, n) ≠ (k, i) → same m n) → (same k i → g = a) ∧
      (¬same k i → ∀ j < 64, (∀ r < 64, r ≠ k → r ≠ i → g.code r j = a.code r j) ∧
        (tr = true → g.code k j = plus (a.val k j) (a.val i j) ∧ g.code i j = less (a.val i j) (a.val k j)) ∧
        (tr = false → g.code k j = less (a.val k j) (a.val i j) ∧ g.code i j = plus (a.val i j) (a.val k j)))) ∧
  (∀ l : List Machine.Num, ((∃ v ∈ l, v.isNan = true) → maxAbs l = .nan) ∧
    ((∀ v ∈ l, v.isNan = false) → (∀ v ∈ l, (maxAbs l).lt v.abs = false) ∧
      (maxAbs l = zero ∨ ∃ v ∈ l, maxAbs l = v.abs))) ∧
  (∀ (f : Fam) (k : Nat) (v : Machine.Num), v ∈ f.active k ↔
    ∃ i j, k ≤ i ∧ i < 64 ∧ k ≤ j ∧ j < 64 ∧ (f.kind = 2 → j ≤ i) ∧ v = f.a.val i j) ∧
  (∀ (f : Fam) (l : List Machine.Num),
    let n := rne32 (Machine.Num.div (maxAbs l) (Fmt.fx36.decode f.den))
    let new := Fmt.fp32.decode n
    let old := Fmt.fp32.decode f.gfr
    ({ f.grow l with gfr := f.gfr } : Fam) = f ∧ (l = [] → f.grow l = f) ∧
    (l ≠ [] → (new.isNan = true ∨ old.isNan = true → (f.grow l).gfr = Fmt.fp32.canonNan) ∧
      (new.isNan = false → old.isNan = false → (old.lt new = true → (f.grow l).gfr = n) ∧
        (old.lt new = false → (f.grow l).gfr = f.gfr)))) ∧
  (∀ (x : XCmd), x.taint = [] →
    let p := fun (i : Nat) => x.par.getD i 0
    let d := tileOf (x.data.getD 0 [])
    let q := tileOf (x.data.getD 1 [])
    let f := x.fam
    let w := p 6
    let old := pvrEntries ((List.range 8).map (fun i => p (8 + i)))
    let anew := fun (g : Fam) (kind : Nat) => g.fxd = x.fxd ∧ g.trap = decide (p 5 = 1) ∧ g.stop = none ∧ g.kind = kind ∧
      g.tfn = p 2 ∧ g.ud = decide (p 3 = 1) ∧ g.anm = p 4 ∧ g.next = 0 ∧ g.bkd = 0 ∧ g.bcol = 0
    let first := fun (g : Fam) => g.den = cellCode (maxAbs (f.active 0)) ∧
      g.gfr = (({ f with den := g.den, gfr := 0 } : Fam).grow (f.active 0)).gfr
    let up := f.tfn.testBit 1
    let right := f.tfn.testBit 0
    let turned := f.tfn.testBit 2 != right
    let entry := fun (g : Fam) =>
      (x.op = 9 → anew g 1 ∧ first g ∧ g.a = d ∧ g.pvr = List.range 64) ∧
      (x.op = 10 → anew g 2 ∧ first g ∧ g.a = d) ∧
      (x.op = 13 → anew g 3 ∧ first g ∧ g.a = d ∧ ∀ i j, i < 64 → j < 64 → g.q.code i j = if j < i then cellCode one else 0) ∧
      (x.op = 11 → anew g 4 ∧ g.den = 0 ∧ g.a = if up = true then d else d.tr) ∧
      (x.op = 12 → anew g 5 ∧ g.den = 0 ∧ (let b := tileOf (x.data.getD 2 []); g.a = if right = true then b.tr else b) ∧
        g.q = if turned = true then q.tr else q) ∧
      (x.op = 16 → g.fxd = x.fxd ∧ g.trap = decide (p 5 = 1) ∧ g.stop = none ∧ g.pvr = old ∧
        (g.den, g.kind, g.next, g.bkd, g.bcol, g.tfn, g.ud, g.anm) = (w / 2 ^ 28 % 2 ^ 36, w / 2 ^ 25 % 8, w / 2 ^ 18 % 128,
          w / 2 ^ 16 % 4, w / 2 ^ 10 % 64, w / 2 ^ 7 % 8, w.testBit 6, w % 64) ∧
        (g.kind ≤ 3 → g.a = d ∧ g.q = q ∧ ∃ h : Fam, ({ h with gfr := g.gfr } : Fam) = g ∧ h.gfr = p 7 ∧
          g.gfr = (h.grow (h.active g.next)).gfr) ∧
        (g.kind = 4 → g.a = if up = true then d else d.tr) ∧
        (g.kind = 5 → g.a = (if right = true then d.tr else d) ∧ g.q = if turned = true then q.tr else q))
    let step := fun (g : Fam) (k : Nat) => if f.kind = 1 then mluStep g k else if f.kind = 2 then cholStep g k
      else if f.kind = 3 then qrStep g k else if f.kind = 4 then triStep g k else trsStep (up == turned) g k
    (x.op ∈ [9, 10, 11, 12, 13, 16] → 1 ≤ f.kind → f.kind ≤ 5 → f.next < 64 → ∃ (run : Nat → Fam) (n : Nat), entry (run f.next) ∧
      f.next ≤ n ∧ n ≤ 64 ∧ (∀ k, f.next ≤ k → k < n → (run k).stop = none ∧ run (k + 1) = step (run k) k) ∧
      (n < 64 → (run n).stop.isSome = true) ∧
      let e : Fam := if (run n).stop.isSome = true then run n else { run n with next := 64 }
      let back := f.kind = 4 ∧ up = false ∨ f.kind = 5 ∧ right = true
      x.breaks = e.stop ∧
      famEffs x = [cellEff (p 0) (famCells f) (if back then e.a.tr else e.a)] ++
        (if f.kind = 3 then [cellEff (p 1) (fun _ _ => true) e.q] else []) ++
        [.sys 6 (BitVec.ofNat 64 (e.den * 2 ^ 28 + e.kind * 2 ^ 25 + e.next * 2 ^ 18 + e.bkd * 2 ^ 16 + e.bcol * 2 ^ 10 + e.tfn * 2 ^ 7 +
          (if e.ud = true then 64 else 0) + e.anm))] ++ (if f.kind = 1 then pvrEffs e.pvr else []) ++
        if f.kind ≤ 3 then [.sys 7 (BitVec.ofNat 64 e.gfr)] else []) ∧
    (x.op = 14 → famEffs x = [cellEff (p 0) (fun _ _ => true) (applyRots x.fxd (p 2 == 1) q d)]) ∧
    (x.op = 15 → famEffs x = [cellEff (p 0) (fun _ _ => true) (applyPerm (p 2 == 1) old d)])) ∧
  (∀ m : Tile, sq m → ∀ i j, i < 64 → j < 64 → m.tr.code i j = m.code j i) ∧
  (∀ (pvr : List Nat) (a : Tile), sq a → applyPerm true pvr (applyPerm false pvr a) = a ∧
    ∀ n < 64, ∀ (inv : Bool), (∀ m < 64, m ≠ n → pvr.getD m 0 % 64 = m) → ∀ i < 64, ∀ j,
      (applyPerm inv pvr a).code i j = a.code (if i = n then pvr.getD n 0 % 64 else if i = pvr.getD n 0 % 64 then n else i) j)
end

