-- ==== Sys2Proof/Laws/Link.lean ====
section
/-! SUPPORT. Laws of the requests that leave by the ports: what a request may change, and that an operation which needs no peer
makes none and waits for none. -/

namespace Sys2Proof.Machine

/-- The two states differ in the ports, the requests under way, the due work and the number of free values taken alone. -/
def LinkOnly (s t : State) : Prop :=
  ({ t with ports := s.ports, flights := s.flights, work := s.work, fresh := s.fresh } : State) = s

theorem LinkOnly.refl (s : State) : LinkOnly s s := rfl

theorem LinkOnly.trans {s t u : State} (h : LinkOnly s t) (k : LinkOnly t u) : LinkOnly s u := by
  unfold LinkOnly at *
  rw [← h, ← k]

theorem LinkOnly.strands {s t : State} (h : LinkOnly s t) : t.strands = s.strands := by rw [← h]
theorem LinkOnly.cores {s t : State} (h : LinkOnly s t) : t.cores = s.cores := by rw [← h]
theorem LinkOnly.mem {s t : State} (h : LinkOnly s t) : t.mem = s.mem := by rw [← h]
theorem LinkOnly.regs {s t : State} (h : LinkOnly s t) : t.regs = s.regs := by rw [← h]
theorem LinkOnly.deps {s t : State} (h : LinkOnly s t) : t.deps = s.deps := by rw [← h]
theorem LinkOnly.tiles {s t : State} (h : LinkOnly s t) : t.tiles = s.tiles := by rw [← h]
theorem LinkOnly.strand {s t : State} (h : LinkOnly s t) (g : Nat) : t.strand g = s.strand g := by
  unfold State.strand; rw [h.strands]
theorem LinkOnly.core {s t : State} (h : LinkOnly s t) (c : Nat) : t.core c = s.core c := by
  unfold State.core; rw [h.cores]

theorem LinkOnly.pushFlits (p : Nat) (l kept : List (Nat × List Byte)) (s : State) : LinkOnly s (s.pushFlits p kept l) := by
  induction l generalizing kept s with
  | nil => exact .refl s
  | cons e l ih =>
    unfold State.pushFlits
    split
    · exact ih _ s
    · exact LinkOnly.trans (show LinkOnly s (s.sendFlit p e.2) from rfl) (ih _ _)

/-- Flits leave a port without a change elsewhere. -/
theorem LinkOnly.pushPort (s : State) (p : Nat) : LinkOnly s (s.pushPort p) := by
  unfold State.pushPort
  split
  · exact .refl s
  · exact (LinkOnly.pushFlits p _ _ s).trans rfl

/-- A request changes nothing else. -/
theorem LinkOnly.request (s : State) (id peer type vc n : Nat) : LinkOnly s (s.request id peer type vc n) := by
  unfold State.request
  split
  · dsimp only
    refine LinkOnly.trans ?_ (LinkOnly.pushPort _ _)
    rfl
  · rfl

/-- Nor do the requests of an access. -/
theorem LinkOnly.requestPieces (s : State) (id : Nat) (w : Bool) (ps : List Piece) : LinkOnly s (s.requestPieces id w ps) := by
  unfold State.requestPieces
  generalize farPieces ps = l
  induction l generalizing s with
  | nil => exact .refl s
  | cons p l ih => exact (LinkOnly.request s ..).trans (ih _)

theorem LinkOnly.landed (s : State) (id : Nat) : LinkOnly s (s.landed id) := by
  unfold State.landed; split <;> rfl

/-- An access that stays in the package makes no request. -/
theorem State.requestPieces_local (s : State) (id : Nat) (w : Bool) (ps : List Piece) (h : ∀ p ∈ ps, p.key < 2 ^ 80) :
    s.requestPieces id w ps = s := by
  unfold State.requestPieces
  rw [farPieces, List.filter_eq_nil_iff.mpr (fun p hp => by simpa using h p hp)]
  rfl

/-- A request that was never made is over as it is. -/
theorem State.landed_of_none (s : State) (id : Nat) (h : s.flights.any (fun f => f.id == id) = false) : s.landed id = s := by
  unfold State.landed; rw [h]; rfl

/-- With no flit waiting and no request under way, every operation may be done. -/
theorem State.ready_of_idle (s : State) (id : Nat) (hp : ∀ x ∈ s.ports, x.2.wait = []) (hf : s.flights = []) : s.ready id = true := by
  have : s.sent id = true := List.all_eq_true.mpr (fun x hx => by rw [hp x hx]; rfl)
  simp [State.ready, State.lostReq, this, hf]

end Sys2Proof.Machine
end

