-- ==== Sys2Proof/Laws/Sparse.lean ====
section
/-! SUPPORT. Laws of sparse maps and of byte maps: a read after a write, other keys left alone, the canonical form kept. -/

namespace Sys2Proof

variable {α : Type}

@[simp] theorem SMap.get_put (d : α) (m : SMap α) (k j : Nat) (v : α) :
    SMap.get d (SMap.put m k v) j = if j = k then v else SMap.get d m j := by
  induction m with
  | nil => by_cases h : j = k <;> simp [SMap.put, SMap.get, h, Ne.symm]
  | cons e m ih =>
    obtain ⟨i, w⟩ := e
    by_cases h : j = k
    · subst h
      simp only [SMap.put]
      split
      · simp [SMap.get]
      · split
        · simp [SMap.get]
        · rename_i hne; simp [SMap.get, Ne.symm hne, ih]
    · simp only [SMap.put]
      split
      · simp [SMap.get, Ne.symm h]
      · split
        · rename_i hk; subst hk; simp [SMap.get, Ne.symm h]
        · simp [SMap.get, ih, h]

theorem SMap.get_above (d : α) (m : SMap α) (k : Nat) (h : SMap.above k m = true) : SMap.get d m k = d := by
  induction m with
  | nil => rfl
  | cons e m ih =>
    obtain ⟨i, w⟩ := e
    simp only [SMap.above, List.all_cons, Bool.and_eq_true, decide_eq_true_eq] at h
    simp only [SMap.get, if_neg (Nat.ne_of_gt h.1)]
    exact ih h.2

theorem SMap.above_le (m : SMap α) {j k : Nat} (h : j ≤ k) (hk : SMap.above k m = true) : SMap.above j m = true := by
  simp only [SMap.above, List.all_eq_true, decide_eq_true_eq] at *
  exact fun e he => Nat.lt_of_le_of_lt h (hk e he)

variable [DecidableEq α]

theorem SMap.get_set_ne (d : α) (d' : α) (m : SMap α) (k j : Nat) (v : α) (h : j ≠ k) :
    SMap.get d' (SMap.set d m k v) j = SMap.get d' m j := by
  induction m with
  | nil => simp only [SMap.set]; split <;> simp [SMap.get, Ne.symm h]
  | cons e m ih =>
    obtain ⟨i, w⟩ := e
    simp only [SMap.set]
    split
    · split
      · rfl
      · simp [SMap.get, Ne.symm h]
    · split
      · rename_i hk; subst hk
        split <;> simp [SMap.get, Ne.symm h]
      · simp only [SMap.get, ih]

theorem SMap.above_set (d : α) (m : SMap α) (i k : Nat) (v : α) (hk : i < k) (h : SMap.above i m = true) :
    SMap.above i (SMap.set d m k v) = true := by
  induction m with
  | nil => simp only [SMap.set]; split <;> simp [SMap.above, hk]
  | cons e m ih =>
    obtain ⟨j, w⟩ := e
    have ht : SMap.above i m = true := by
      simp only [SMap.above, List.all_cons, Bool.and_eq_true] at h ⊢; exact h.2
    have hj : i < j := by
      simp only [SMap.above, List.all_cons, Bool.and_eq_true, decide_eq_true_eq] at h; exact h.1
    have cons : ∀ (n : Nat) (u : α) (l : SMap α), i < n → SMap.above i l = true → SMap.above i ((n, u) :: l) = true := by
      intro n u l hn hl
      simp only [SMap.above, List.all_cons, Bool.and_eq_true, decide_eq_true_eq] at hl ⊢; exact ⟨hn, hl⟩
    simp only [SMap.set]
    split
    · split
      · exact h
      · exact cons _ _ _ hk (cons _ _ _ hj ht)
    · split
      · split
        · exact ht
        · exact cons _ _ _ hk ht
      · exact cons _ _ _ hj (ih ht)

theorem SMap.rising_set (d : α) (m : SMap α) (k : Nat) (v : α) (h : SMap.rising m = true) :
    SMap.rising (SMap.set d m k v) = true := by
  induction m with
  | nil => simp only [SMap.set]; split <;> simp [SMap.rising, SMap.above]
  | cons e m ih =>
    obtain ⟨j, w⟩ := e
    have h' := h
    simp only [SMap.rising, Bool.and_eq_true] at h'
    simp only [SMap.set]
    split
    · split
      · exact h
      · rename_i hk _
        simp only [SMap.rising, SMap.above, List.all_cons, Bool.and_eq_true, decide_eq_true_eq]
        exact ⟨⟨hk, SMap.above_le m (Nat.le_of_lt hk) h'.1⟩, h'⟩
    · split
      · split
        · exact h'.2
        · subst_vars; exact h
      · rename_i hk hne
        simp only [SMap.rising, Bool.and_eq_true]
        exact ⟨SMap.above_set d m j k v (by omega) h'.1, ih h'.2⟩

theorem SMap.get_set (d : α) (m : SMap α) (k : Nat) (v : α) (h : SMap.rising m = true) :
    SMap.get d (SMap.set d m k v) k = v := by
  induction m with
  | nil => simp only [SMap.set]; split <;> simp_all [SMap.get]
  | cons e m ih =>
    obtain ⟨j, w⟩ := e
    have h' := h
    simp only [SMap.rising, Bool.and_eq_true] at h'
    simp only [SMap.set]
    split
    · rename_i hk
      split
      · rename_i hv; subst hv
        simp only [SMap.get, if_neg (Nat.ne_of_gt hk)]
        exact SMap.get_above _ m k (SMap.above_le m (Nat.le_of_lt hk) h'.1)
      · simp [SMap.get]
    · split
      · rename_i hkj; subst hkj
        split
        · rename_i hv; subst hv; exact SMap.get_above _ m k h'.1
        · simp [SMap.get]
      · rename_i hne
        simp only [SMap.get, if_neg (Ne.symm hne)]
        exact ih h'.2

end Sys2Proof
end

