-- ==== Sys2Proof/Laws/Memory.lean ====
section
/-! SUPPORT. Laws of memory: its canonical form and the operations that keep it, and reads after writes. -/

namespace Sys2Proof.Machine

/-- The canonical form, said of all entries at once. -/
theorem Memory.wf_iff (m : List (Nat × Byte)) :
    Memory.wf m = true ↔ m.Pairwise (fun x y => x.1 < y.1) ∧ ∀ e ∈ m, e.2 ≠ memDefault e.1 := by
  induction m with
  | nil => simp [Memory.wf]
  | cons e m ih =>
    obtain ⟨a, b⟩ := e
    simp only [Memory.wf, memKeep, SMap.above, Bool.and_eq_true, decide_eq_true_eq, List.all_eq_true, ih,
      List.pairwise_cons, List.mem_cons]
    constructor
    · rintro ⟨⟨h1, h2⟩, h3, h4⟩
      refine ⟨⟨h2, h3⟩, ?_⟩
      rintro e (rfl | he)
      · exact h1
      · exact h4 e he
    · rintro ⟨⟨h2, h3⟩, h4⟩
      exact ⟨⟨h4 _ (.inl rfl), h2⟩, h3, fun e he => h4 e (.inr he)⟩

/-- A part of a canonical memory is canonical. -/
theorem Memory.wf_filter (m : List (Nat × Byte)) (p : Nat × Byte → Bool) (h : Memory.wf m = true) :
    Memory.wf (m.filter p) = true := by
  rw [Memory.wf_iff] at *
  exact ⟨h.1.filter p, fun e he => h.2 e ((List.mem_filter.mp he).1)⟩

theorem mem_cellsOf (keep : Nat → Byte → Bool) (bs : List Byte) (a : Nat) (e : Nat × Byte) :
    e ∈ cellsOf keep a bs ↔ a ≤ e.1 ∧ bs[e.1 - a]? = some e.2 ∧ keep e.1 e.2 = true := by
  induction bs generalizing a with
  | nil => simp [cellsOf]
  | cons b bs ih =>
    obtain ⟨n, v⟩ := e
    have step : (a + 1 ≤ n ∧ bs[n - (a + 1)]? = some v ∧ keep n v = true) ↔
        (a < n ∧ (b :: bs)[n - a]? = some v ∧ keep n v = true) := by
      constructor
      · rintro ⟨h1, h2, h3⟩
        refine ⟨by omega, ?_, h3⟩
        rw [show n - a = (n - (a + 1)) + 1 by omega, List.getElem?_cons_succ]; exact h2
      · rintro ⟨h1, h2, h3⟩
        refine ⟨by omega, ?_, h3⟩
        rw [show n - a = (n - (a + 1)) + 1 by omega, List.getElem?_cons_succ] at h2; exact h2
    by_cases hn : n = a
    · subst hn
      simp only [cellsOf]
      split
      · rename_i hk
        simp only [List.mem_cons, ih, Nat.sub_self, List.getElem?_cons_zero, Nat.le_refl, true_and, Prod.mk.injEq,
          Option.some.injEq]
        constructor
        · rintro (rfl | h)
          · exact ⟨rfl, hk⟩
          · omega
        · rintro ⟨rfl, -⟩; exact .inl rfl
      · rename_i hk
        simp only [ih, Nat.sub_self, List.getElem?_cons_zero, Nat.le_refl, true_and, Option.some.injEq]
        constructor
        · rintro ⟨h, -⟩; omega
        · rintro ⟨rfl, h⟩; exact absurd h hk
    · simp only [cellsOf]
      split
      · simp only [List.mem_cons, Prod.mk.injEq, hn, false_and, false_or, ih, step]
        constructor
        · rintro ⟨h, r⟩; exact ⟨by omega, r⟩
        · rintro ⟨h, r⟩; exact ⟨by omega, r⟩
      · simp only [ih, step]
        constructor
        · rintro ⟨h, r⟩; exact ⟨by omega, r⟩
        · rintro ⟨h, r⟩; exact ⟨by omega, r⟩

theorem cellsOf_sorted (keep : Nat → Byte → Bool) (bs : List Byte) (a : Nat) :
    (cellsOf keep a bs).Pairwise (fun x y => x.1 < y.1) := by
  induction bs generalizing a with
  | nil => simp [cellsOf]
  | cons b bs ih =>
    simp only [cellsOf]
    split
    · refine List.pairwise_cons.mpr ⟨fun e he => ?_, ih _⟩
      have := ((mem_cellsOf keep bs (a + 1) e).mp he).1
      show a < e.1
      omega
    · exact ih _

/-- Every write keeps the canonical form. -/
theorem Memory.wf_writeBytes (m : List (Nat × Byte)) (a : Nat) (bs : List Byte) (h : Memory.wf m = true) :
    Memory.wf (writeBytes memKeep m a bs) = true := by
  rw [Memory.wf_iff] at *
  have hc : ∀ e ∈ cellsOf memKeep a bs, a ≤ e.1 ∧ e.1 < a + bs.length := by
    intro e he
    have := (mem_cellsOf _ _ _ _).mp he
    refine ⟨this.1, ?_⟩
    have hl := (List.getElem?_eq_some_iff.mp this.2.1).1
    omega
  constructor
  · unfold writeBytes
    refine List.pairwise_append.mpr ⟨List.pairwise_append.mpr ⟨h.1.filter _, cellsOf_sorted _ _ _, ?_⟩, h.1.filter _, ?_⟩
    · intro x hx y hy
      have h1 := (List.mem_filter.mp hx).2
      have h2 := (hc y hy).1
      simp only [decide_eq_true_eq] at h1
      omega
    · intro x hx y hy
      have h2 := (List.mem_filter.mp hy).2
      simp only [decide_eq_true_eq] at h2
      rcases List.mem_append.mp hx with hx | hx
      · have h1 := (List.mem_filter.mp hx).2
        simp only [decide_eq_true_eq] at h1
        omega
      · have := (hc x hx).2
        omega
  · intro e he
    rcases List.mem_append.mp he with he | he
    · rcases List.mem_append.mp he with he | he
      · exact h.2 e ((List.mem_filter.mp he).1)
      · have := ((mem_cellsOf _ _ _ _).mp he).2.2
        simpa [memKeep] using this
    · exact h.2 e ((List.mem_filter.mp he).1)

/-- Every memory operation of the model is a write of this form or a filter, and keeps the canonical form. -/
theorem State.wf_memWrite (s : State) (k : Nat) (bs : List Byte) (h : Memory.wf s.mem = true) :
    Memory.wf (s.memWrite k bs).mem = true := Memory.wf_writeBytes _ _ _ h

/-- Reset leaves memory in its canonical form. -/
theorem State.wf_reset : Memory.wf State.reset.mem = true := rfl

/-- One byte of a byte map, whatever the order of its entries: the first entry at the address. -/
theorem readBytes_one (d : Nat → Byte) (m : List (Nat × Byte)) (a : Nat) :
    readBytes d m a 1 = [((m.find? (fun e => e.1 == a)).map Prod.snd).getD (d a)] := by
  induction m with
  | nil => rfl
  | cons e m ih =>
    obtain ⟨n, v⟩ := e
    by_cases hn : n = a
    · subst hn
      simp [readBytes, fillBytes]
    · have : (decide (a ≤ n) && decide (n < a + 1)) = false := by
        simp only [Bool.and_eq_false_iff, decide_eq_false_iff_not]; omega
      simp only [readBytes, List.filter_cons, this, Bool.false_eq_true, if_false, List.find?_cons]
      simp only [readBytes] at ih
      rw [ih, show (n == a) = false by simp [hn]]

/-- A byte outside a write reads as before. -/
theorem State.memRead_memWrite_ne (s : State) (k a : Nat) (bs : List Byte) (h : a < k ∨ k + bs.length ≤ a) :
    (s.memWrite k bs).memRead a 1 = s.memRead a 1 := by
  have hc : (cellsOf memKeep k bs).find? (fun e => e.1 == a) = none := by
    refine List.find?_eq_none.mpr (fun e he => ?_)
    have := (mem_cellsOf _ _ _ _).mp he
    have hl := (List.getElem?_eq_some_iff.mp this.2.1).1
    simp only [beq_iff_eq]
    omega
  simp only [State.memRead, State.memWrite, readBytes_one, writeBytes, List.find?_append, hc, List.find?_filter]
  congr 2
  rcases h with h | h
  · have : s.mem.find? (fun e => decide (decide (k + bs.length ≤ e.1) = true ∧ (e.1 == a) = true)) = none :=
      List.find?_eq_none.mpr (fun e _ => by simp; omega)
    rw [this]
    congr 1
    simp only [Option.or_none]
    congr 1; funext e
    by_cases he : e.1 = a <;> simp [he, h]
  · have : s.mem.find? (fun e => decide (decide (e.1 < k) = true ∧ (e.1 == a) = true)) = none :=
      List.find?_eq_none.mpr (fun e _ => by simp; omega)
    rw [this]
    congr 1
    simp only [Option.none_or]
    congr 1; funext e
    by_cases he : e.1 = a <;> simp [he, h]

/-- A byte inside a write reads as written. -/
theorem State.memRead_memWrite (s : State) (k i : Nat) (bs : List Byte) (b : Byte) (h : bs[i]? = some b) :
    (s.memWrite k bs).memRead (k + i) 1 = [b] := by
  have hi := (List.getElem?_eq_some_iff.mp h).1
  have hl : (s.mem.filter (fun e => e.1 < k)).find? (fun e => e.1 == k + i) = none := by
    refine List.find?_eq_none.mpr (fun e he => ?_)
    have := (List.mem_filter.mp he).2
    simp only [decide_eq_true_eq, beq_iff_eq] at *
    omega
  have hr : (s.mem.filter (fun e => k + bs.length ≤ e.1)).find? (fun e => e.1 == k + i) = none := by
    refine List.find?_eq_none.mpr (fun e he => ?_)
    have := (List.mem_filter.mp he).2
    simp only [decide_eq_true_eq, beq_iff_eq] at *
    omega
  simp only [State.memRead, State.memWrite, readBytes_one, writeBytes, List.find?_append, hl, hr, Option.none_or,
    Option.or_none, List.cons.injEq, and_true]
  cases hf : (cellsOf memKeep k bs).find? (fun e => e.1 == k + i) with
  | none =>
    rw [List.find?_eq_none] at hf
    by_cases hk : memKeep (k + i) b = true
    · have := hf (k + i, b) ((mem_cellsOf _ _ _ _).mpr ⟨by simp, by simpa using h, hk⟩)
      simp at this
    · simp only [memKeep, decide_eq_true_eq, Decidable.not_not] at hk
      simp [hk]
  | some e =>
    have he := (mem_cellsOf _ _ _ _).mp (List.mem_of_find?_eq_some hf)
    have hk : e.1 = k + i := by have := List.find?_some hf; simpa using this
    have h2 := he.2.1
    rw [hk, Nat.add_sub_cancel_left, h] at h2
    simp [← Option.some.inj h2]

/-- Bytes laid out as cells, read back where the map lists nothing but them. -/
theorem fillBytes_cellsOf (bs : List Byte) (a : Nat) : fillBytes memDefault bs.length a (cellsOf memKeep a bs) = bs := by
  induction bs generalizing a with
  | nil => rfl
  | cons b bs ih =>
    simp only [cellsOf, List.length_cons]
    split
    · simp [fillBytes, ih]
    · rename_i h
      have hb : memDefault a = b := by simp only [memKeep, decide_eq_true_eq, Decidable.not_not] at h; exact h.symm
      have ih' := ih (a + 1)
      cases hc : cellsOf memKeep (a + 1) bs with
      | nil => rw [hc] at ih'; simp [fillBytes, ih', hb]
      | cons e l =>
        obtain ⟨j, v⟩ := e
        have hj : a + 1 ≤ j := ((mem_cellsOf memKeep bs (a + 1) (j, v)).mp (by simp [hc])).1
        rw [hc] at ih'
        simp [fillBytes, show j ≠ a by omega, ih', hb]

/-- The bytes of a write read back as written. -/
theorem State.memRead_memWrite_all (s : State) (k n : Nat) (bs : List Byte) (h : bs.length = n) :
    (s.memWrite k bs).memRead k n = bs := by
  subst h
  have hin : ∀ e ∈ cellsOf memKeep k bs, (decide (k ≤ e.1) && decide (e.1 < k + bs.length)) = true := fun e he => by
    have h := (mem_cellsOf _ _ _ _).mp he
    have := (List.getElem?_eq_some_iff.mp h.2.1).1
    simp only [Bool.and_eq_true, decide_eq_true_eq]; omega
  have hl : ∀ l : List (Nat × Byte), (l.filter (fun e => decide (e.1 < k))).filter (fun e => decide (k ≤ e.1) && decide (e.1 < k + bs.length)) = [] :=
    fun l => List.filter_eq_nil_iff.mpr (fun e he => by
      have := (List.mem_filter.mp he).2
      simp only [decide_eq_true_eq, Bool.and_eq_true, not_and] at *; omega)
  have hr : ∀ l : List (Nat × Byte), (l.filter (fun e => decide (k + bs.length ≤ e.1))).filter
      (fun e => decide (k ≤ e.1) && decide (e.1 < k + bs.length)) = [] :=
    fun l => List.filter_eq_nil_iff.mpr (fun e he => by
      have := (List.mem_filter.mp he).2
      simp only [decide_eq_true_eq, Bool.and_eq_true, not_and] at *; omega)
  simp only [State.memRead, State.memWrite, readBytes, writeBytes, List.filter_append, hl, hr, List.nil_append, List.append_nil,
    List.filter_eq_self.mpr hin, fillBytes_cellsOf]

end Sys2Proof.Machine
end

