-- ==== Sys2Proof/Laws/State.lean ====
section
/-! SUPPORT. Laws of the updates of State: what each of them leaves as it is, field by field, and what a table reads after
a write. -/

namespace Sys2Proof.Machine

variable (s : State)

@[simp] theorem State.modStrand_eq (g : Nat) (f : Strand → Strand) : s.modStrand g f = s.setStrand g (f (s.strand g)) := rfl
@[simp] theorem State.modCore_eq (c : Nat) (f : Core → Core) : s.modCore c f = s.setCore c (f (s.core c)) := rfl
@[simp] theorem State.modMe_eq (f : Strand → Strand) : s.modMe f = s.setStrand s.cur.g (f s.me) := rfl
theorem State.me_eq : s.me = s.strand s.cur.g := rfl

@[simp] theorem State.setStrand_frz (g : Nat) (t : Strand) : (s.setStrand g t).frz = s.frz := rfl
@[simp] theorem State.setStrand_stepArm (g : Nat) (t : Strand) : (s.setStrand g t).stepArm = s.stepArm := rfl
@[simp] theorem State.setStrand_agenda (g : Nat) (t : Strand) : (s.setStrand g t).agenda = s.agenda := rfl
@[simp] theorem State.setStrand_work (g : Nat) (t : Strand) : (s.setStrand g t).work = s.work := rfl
@[simp] theorem State.setStrand_turn (g : Nat) (t : Strand) : (s.setStrand g t).turn = s.turn := rfl
@[simp] theorem State.setStrand_cur (g : Nat) (t : Strand) : (s.setStrand g t).cur = s.cur := rfl
@[simp] theorem State.setStrand_cores (g : Nat) (t : Strand) : (s.setStrand g t).cores = s.cores := rfl
@[simp] theorem State.setStrand_ctlb (g : Nat) (t : Strand) : (s.setStrand g t).ctlb = s.ctlb := rfl
@[simp] theorem State.setStrand_mem (g : Nat) (t : Strand) : (s.setStrand g t).mem = s.mem := rfl
@[simp] theorem State.setStrand_regs (g : Nat) (t : Strand) : (s.setStrand g t).regs = s.regs := rfl
@[simp] theorem State.setStrand_tiles (g : Nat) (t : Strand) : (s.setStrand g t).tiles = s.tiles := rfl
@[simp] theorem State.setStrand_queues (g : Nat) (t : Strand) : (s.setStrand g t).queues = s.queues := rfl
@[simp] theorem State.setStrand_pushNo (g : Nat) (t : Strand) : (s.setStrand g t).pushNo = s.pushNo := rfl
@[simp] theorem State.setStrand_aging (g : Nat) (t : Strand) : (s.setStrand g t).aging = s.aging := rfl
@[simp] theorem State.setStrand_deps (g : Nat) (t : Strand) : (s.setStrand g t).deps = s.deps := rfl
@[simp] theorem State.setStrand_spawnNo (g : Nat) (t : Strand) : (s.setStrand g t).spawnNo = s.spawnNo := rfl
@[simp] theorem State.setStrand_faults (g : Nat) (t : Strand) : (s.setStrand g t).faults = s.faults := rfl
@[simp] theorem State.setStrand_permits (g : Nat) (t : Strand) : (s.setStrand g t).permits = s.permits := rfl
@[simp] theorem State.setStrand_loops (g : Nat) (t : Strand) : (s.setStrand g t).loops = s.loops := rfl
@[simp] theorem State.setStrand_replays (g : Nat) (t : Strand) : (s.setStrand g t).replays = s.replays := rfl
@[simp] theorem State.setStrand_layout (g : Nat) (t : Strand) : (s.setStrand g t).layout = s.layout := rfl
@[simp] theorem State.setStrand_fabric (g : Nat) (t : Strand) : (s.setStrand g t).fabric = s.fabric := rfl
@[simp] theorem State.setStrand_sweeps (g : Nat) (t : Strand) : (s.setStrand g t).sweeps = s.sweeps := rfl
@[simp] theorem State.setStrand_sweep (g : Nat) (t : Strand) : (s.setStrand g t).sweep = s.sweep := rfl
@[simp] theorem State.setStrand_images (g : Nat) (t : Strand) : (s.setStrand g t).images = s.images := rfl
@[simp] theorem State.setStrand_saves (g : Nat) (t : Strand) : (s.setStrand g t).saves = s.saves := rfl
@[simp] theorem State.setStrand_trSeq (g : Nat) (t : Strand) : (s.setStrand g t).trSeq = s.trSeq := rfl
@[simp] theorem State.setStrand_msixMask (g : Nat) (t : Strand) : (s.setStrand g t).msixMask = s.msixMask := rfl
@[simp] theorem State.setStrand_msixPend (g : Nat) (t : Strand) : (s.setStrand g t).msixPend = s.msixPend := rfl
@[simp] theorem State.setStrand_msixSent (g : Nat) (t : Strand) : (s.setStrand g t).msixSent = s.msixSent := rfl
@[simp] theorem State.setStrand_ports (g : Nat) (t : Strand) : (s.setStrand g t).ports = s.ports := rfl
@[simp] theorem State.setStrand_flights (g : Nat) (t : Strand) : (s.setStrand g t).flights = s.flights := rfl
@[simp] theorem State.setStrand_launches (g : Nat) (t : Strand) : (s.setStrand g t).launches = s.launches := rfl
@[simp] theorem State.setStrand_asks (g : Nat) (t : Strand) : (s.setStrand g t).asks = s.asks := rfl
@[simp] theorem State.setStrand_tileOut (g : Nat) (t : Strand) : (s.setStrand g t).tileOut = s.tileOut := rfl
@[simp] theorem State.setStrand_edgeQ (g : Nat) (t : Strand) : (s.setStrand g t).edgeQ = s.edgeQ := rfl
@[simp] theorem State.setStrand_fabOut (g : Nat) (t : Strand) : (s.setStrand g t).fabOut = s.fabOut := rfl
@[simp] theorem State.setStrand_peerLay (g : Nat) (t : Strand) : (s.setStrand g t).peerLay = s.peerLay := rfl
@[simp] theorem State.setStrand_bad (g : Nat) (t : Strand) : (s.setStrand g t).bad = s.bad := rfl
@[simp] theorem State.setStrand_d3 (g : Nat) (t : Strand) : (s.setStrand g t).d3 = s.d3 := rfl
@[simp] theorem State.setStrand_msixTab (g : Nat) (t : Strand) : (s.setStrand g t).msixTab = s.msixTab := rfl
@[simp] theorem State.setStrand_keys (g : Nat) (t : Strand) : (s.setStrand g t).keys = s.keys := rfl
@[simp] theorem State.setStrand_measured (g : Nat) (t : Strand) : (s.setStrand g t).measured = s.measured := rfl
@[simp] theorem State.setStrand_coreReports (g : Nat) (t : Strand) : (s.setStrand g t).coreReports = s.coreReports := rfl
@[simp] theorem State.setStrand_idlePw (g : Nat) (t : Strand) : (s.setStrand g t).idlePw = s.idlePw := rfl
@[simp] theorem State.setStrand_fxdCores (g : Nat) (t : Strand) : (s.setStrand g t).fxdCores = s.fxdCores := rfl
@[simp] theorem State.setStrand_hwCores (g : Nat) (t : Strand) : (s.setStrand g t).hwCores = s.hwCores := rfl
@[simp] theorem State.setStrand_nid (g : Nat) (t : Strand) : (s.setStrand g t).nid = s.nid := rfl
@[simp] theorem State.setStrand_fresh (g : Nat) (t : Strand) : (s.setStrand g t).fresh = s.fresh := rfl

@[simp] theorem State.setCore_frz (c : Nat) (k : Core) : (s.setCore c k).frz = s.frz := rfl
@[simp] theorem State.setCore_stepArm (c : Nat) (k : Core) : (s.setCore c k).stepArm = s.stepArm := rfl
@[simp] theorem State.setCore_agenda (c : Nat) (k : Core) : (s.setCore c k).agenda = s.agenda := rfl
@[simp] theorem State.setCore_work (c : Nat) (k : Core) : (s.setCore c k).work = s.work := rfl
@[simp] theorem State.setCore_turn (c : Nat) (k : Core) : (s.setCore c k).turn = s.turn := rfl
@[simp] theorem State.setCore_cur (c : Nat) (k : Core) : (s.setCore c k).cur = s.cur := rfl
@[simp] theorem State.setCore_strands (c : Nat) (k : Core) : (s.setCore c k).strands = s.strands := rfl
@[simp] theorem State.setCore_ctlb (c : Nat) (k : Core) : (s.setCore c k).ctlb = s.ctlb := rfl
@[simp] theorem State.setCore_mem (c : Nat) (k : Core) : (s.setCore c k).mem = s.mem := rfl
@[simp] theorem State.setCore_regs (c : Nat) (k : Core) : (s.setCore c k).regs = s.regs := rfl
@[simp] theorem State.setCore_tiles (c : Nat) (k : Core) : (s.setCore c k).tiles = s.tiles := rfl
@[simp] theorem State.setCore_queues (c : Nat) (k : Core) : (s.setCore c k).queues = s.queues := rfl
@[simp] theorem State.setCore_pushNo (c : Nat) (k : Core) : (s.setCore c k).pushNo = s.pushNo := rfl
@[simp] theorem State.setCore_aging (c : Nat) (k : Core) : (s.setCore c k).aging = s.aging := rfl
@[simp] theorem State.setCore_deps (c : Nat) (k : Core) : (s.setCore c k).deps = s.deps := rfl
@[simp] theorem State.setCore_spawnNo (c : Nat) (k : Core) : (s.setCore c k).spawnNo = s.spawnNo := rfl
@[simp] theorem State.setCore_faults (c : Nat) (k : Core) : (s.setCore c k).faults = s.faults := rfl
@[simp] theorem State.setCore_permits (c : Nat) (k : Core) : (s.setCore c k).permits = s.permits := rfl
@[simp] theorem State.setCore_loops (c : Nat) (k : Core) : (s.setCore c k).loops = s.loops := rfl
@[simp] theorem State.setCore_replays (c : Nat) (k : Core) : (s.setCore c k).replays = s.replays := rfl
@[simp] theorem State.setCore_layout (c : Nat) (k : Core) : (s.setCore c k).layout = s.layout := rfl
@[simp] theorem State.setCore_fabric (c : Nat) (k : Core) : (s.setCore c k).fabric = s.fabric := rfl
@[simp] theorem State.setCore_sweeps (c : Nat) (k : Core) : (s.setCore c k).sweeps = s.sweeps := rfl
@[simp] theorem State.setCore_sweep (c : Nat) (k : Core) : (s.setCore c k).sweep = s.sweep := rfl
@[simp] theorem State.setCore_images (c : Nat) (k : Core) : (s.setCore c k).images = s.images := rfl
@[simp] theorem State.setCore_saves (c : Nat) (k : Core) : (s.setCore c k).saves = s.saves := rfl
@[simp] theorem State.setCore_trSeq (c : Nat) (k : Core) : (s.setCore c k).trSeq = s.trSeq := rfl
@[simp] theorem State.setCore_msixMask (c : Nat) (k : Core) : (s.setCore c k).msixMask = s.msixMask := rfl
@[simp] theorem State.setCore_msixPend (c : Nat) (k : Core) : (s.setCore c k).msixPend = s.msixPend := rfl
@[simp] theorem State.setCore_msixSent (c : Nat) (k : Core) : (s.setCore c k).msixSent = s.msixSent := rfl
@[simp] theorem State.setCore_ports (c : Nat) (k : Core) : (s.setCore c k).ports = s.ports := rfl
@[simp] theorem State.setCore_flights (c : Nat) (k : Core) : (s.setCore c k).flights = s.flights := rfl
@[simp] theorem State.setCore_launches (c : Nat) (k : Core) : (s.setCore c k).launches = s.launches := rfl
@[simp] theorem State.setCore_asks (c : Nat) (k : Core) : (s.setCore c k).asks = s.asks := rfl
@[simp] theorem State.setCore_tileOut (c : Nat) (k : Core) : (s.setCore c k).tileOut = s.tileOut := rfl
@[simp] theorem State.setCore_edgeQ (c : Nat) (k : Core) : (s.setCore c k).edgeQ = s.edgeQ := rfl
@[simp] theorem State.setCore_fabOut (c : Nat) (k : Core) : (s.setCore c k).fabOut = s.fabOut := rfl
@[simp] theorem State.setCore_peerLay (c : Nat) (k : Core) : (s.setCore c k).peerLay = s.peerLay := rfl
@[simp] theorem State.setCore_bad (c : Nat) (k : Core) : (s.setCore c k).bad = s.bad := rfl
@[simp] theorem State.setCore_d3 (c : Nat) (k : Core) : (s.setCore c k).d3 = s.d3 := rfl
@[simp] theorem State.setCore_msixTab (c : Nat) (k : Core) : (s.setCore c k).msixTab = s.msixTab := rfl
@[simp] theorem State.setCore_keys (c : Nat) (k : Core) : (s.setCore c k).keys = s.keys := rfl
@[simp] theorem State.setCore_measured (c : Nat) (k : Core) : (s.setCore c k).measured = s.measured := rfl
@[simp] theorem State.setCore_coreReports (c : Nat) (k : Core) : (s.setCore c k).coreReports = s.coreReports := rfl
@[simp] theorem State.setCore_idlePw (c : Nat) (k : Core) : (s.setCore c k).idlePw = s.idlePw := rfl
@[simp] theorem State.setCore_fxdCores (c : Nat) (k : Core) : (s.setCore c k).fxdCores = s.fxdCores := rfl
@[simp] theorem State.setCore_hwCores (c : Nat) (k : Core) : (s.setCore c k).hwCores = s.hwCores := rfl
@[simp] theorem State.setCore_nid (c : Nat) (k : Core) : (s.setCore c k).nid = s.nid := rfl
@[simp] theorem State.setCore_fresh (c : Nat) (k : Core) : (s.setCore c k).fresh = s.fresh := rfl

@[simp] theorem State.setReg_frz (d o v : Nat) : (s.setReg d o v).frz = s.frz := rfl
@[simp] theorem State.setReg_stepArm (d o v : Nat) : (s.setReg d o v).stepArm = s.stepArm := rfl
@[simp] theorem State.setReg_agenda (d o v : Nat) : (s.setReg d o v).agenda = s.agenda := rfl
@[simp] theorem State.setReg_work (d o v : Nat) : (s.setReg d o v).work = s.work := rfl
@[simp] theorem State.setReg_turn (d o v : Nat) : (s.setReg d o v).turn = s.turn := rfl
@[simp] theorem State.setReg_cur (d o v : Nat) : (s.setReg d o v).cur = s.cur := rfl
@[simp] theorem State.setReg_strands (d o v : Nat) : (s.setReg d o v).strands = s.strands := rfl
@[simp] theorem State.setReg_cores (d o v : Nat) : (s.setReg d o v).cores = s.cores := rfl
@[simp] theorem State.setReg_ctlb (d o v : Nat) : (s.setReg d o v).ctlb = s.ctlb := rfl
@[simp] theorem State.setReg_mem (d o v : Nat) : (s.setReg d o v).mem = s.mem := rfl
@[simp] theorem State.setReg_tiles (d o v : Nat) : (s.setReg d o v).tiles = s.tiles := rfl
@[simp] theorem State.setReg_queues (d o v : Nat) : (s.setReg d o v).queues = s.queues := rfl
@[simp] theorem State.setReg_pushNo (d o v : Nat) : (s.setReg d o v).pushNo = s.pushNo := rfl
@[simp] theorem State.setReg_aging (d o v : Nat) : (s.setReg d o v).aging = s.aging := rfl
@[simp] theorem State.setReg_deps (d o v : Nat) : (s.setReg d o v).deps = s.deps := rfl
@[simp] theorem State.setReg_spawnNo (d o v : Nat) : (s.setReg d o v).spawnNo = s.spawnNo := rfl
@[simp] theorem State.setReg_faults (d o v : Nat) : (s.setReg d o v).faults = s.faults := rfl
@[simp] theorem State.setReg_permits (d o v : Nat) : (s.setReg d o v).permits = s.permits := rfl
@[simp] theorem State.setReg_loops (d o v : Nat) : (s.setReg d o v).loops = s.loops := rfl
@[simp] theorem State.setReg_replays (d o v : Nat) : (s.setReg d o v).replays = s.replays := rfl
@[simp] theorem State.setReg_layout (d o v : Nat) : (s.setReg d o v).layout = s.layout := rfl
@[simp] theorem State.setReg_fabric (d o v : Nat) : (s.setReg d o v).fabric = s.fabric := rfl
@[simp] theorem State.setReg_sweeps (d o v : Nat) : (s.setReg d o v).sweeps = s.sweeps := rfl
@[simp] theorem State.setReg_sweep (d o v : Nat) : (s.setReg d o v).sweep = s.sweep := rfl
@[simp] theorem State.setReg_images (d o v : Nat) : (s.setReg d o v).images = s.images := rfl
@[simp] theorem State.setReg_saves (d o v : Nat) : (s.setReg d o v).saves = s.saves := rfl
@[simp] theorem State.setReg_trSeq (d o v : Nat) : (s.setReg d o v).trSeq = s.trSeq := rfl
@[simp] theorem State.setReg_msixMask (d o v : Nat) : (s.setReg d o v).msixMask = s.msixMask := rfl
@[simp] theorem State.setReg_msixPend (d o v : Nat) : (s.setReg d o v).msixPend = s.msixPend := rfl
@[simp] theorem State.setReg_msixSent (d o v : Nat) : (s.setReg d o v).msixSent = s.msixSent := rfl
@[simp] theorem State.setReg_ports (d o v : Nat) : (s.setReg d o v).ports = s.ports := rfl
@[simp] theorem State.setReg_flights (d o v : Nat) : (s.setReg d o v).flights = s.flights := rfl
@[simp] theorem State.setReg_launches (d o v : Nat) : (s.setReg d o v).launches = s.launches := rfl
@[simp] theorem State.setReg_asks (d o v : Nat) : (s.setReg d o v).asks = s.asks := rfl
@[simp] theorem State.setReg_tileOut (d o v : Nat) : (s.setReg d o v).tileOut = s.tileOut := rfl
@[simp] theorem State.setReg_edgeQ (d o v : Nat) : (s.setReg d o v).edgeQ = s.edgeQ := rfl
@[simp] theorem State.setReg_fabOut (d o v : Nat) : (s.setReg d o v).fabOut = s.fabOut := rfl
@[simp] theorem State.setReg_peerLay (d o v : Nat) : (s.setReg d o v).peerLay = s.peerLay := rfl
@[simp] theorem State.setReg_bad (d o v : Nat) : (s.setReg d o v).bad = s.bad := rfl
@[simp] theorem State.setReg_d3 (d o v : Nat) : (s.setReg d o v).d3 = s.d3 := rfl
@[simp] theorem State.setReg_msixTab (d o v : Nat) : (s.setReg d o v).msixTab = s.msixTab := rfl
@[simp] theorem State.setReg_keys (d o v : Nat) : (s.setReg d o v).keys = s.keys := rfl
@[simp] theorem State.setReg_measured (d o v : Nat) : (s.setReg d o v).measured = s.measured := rfl
@[simp] theorem State.setReg_coreReports (d o v : Nat) : (s.setReg d o v).coreReports = s.coreReports := rfl
@[simp] theorem State.setReg_idlePw (d o v : Nat) : (s.setReg d o v).idlePw = s.idlePw := rfl
@[simp] theorem State.setReg_fxdCores (d o v : Nat) : (s.setReg d o v).fxdCores = s.fxdCores := rfl
@[simp] theorem State.setReg_hwCores (d o v : Nat) : (s.setReg d o v).hwCores = s.hwCores := rfl
@[simp] theorem State.setReg_nid (d o v : Nat) : (s.setReg d o v).nid = s.nid := rfl
@[simp] theorem State.setReg_fresh (d o v : Nat) : (s.setReg d o v).fresh = s.fresh := rfl

@[simp] theorem State.memWrite_frz (k : Nat) (bs : List Byte) : (s.memWrite k bs).frz = s.frz := rfl
@[simp] theorem State.memWrite_stepArm (k : Nat) (bs : List Byte) : (s.memWrite k bs).stepArm = s.stepArm := rfl
@[simp] theorem State.memWrite_agenda (k : Nat) (bs : List Byte) : (s.memWrite k bs).agenda = s.agenda := rfl
@[simp] theorem State.memWrite_work (k : Nat) (bs : List Byte) : (s.memWrite k bs).work = s.work := rfl
@[simp] theorem State.memWrite_turn (k : Nat) (bs : List Byte) : (s.memWrite k bs).turn = s.turn := rfl
@[simp] theorem State.memWrite_cur (k : Nat) (bs : List Byte) : (s.memWrite k bs).cur = s.cur := rfl
@[simp] theorem State.memWrite_strands (k : Nat) (bs : List Byte) : (s.memWrite k bs).strands = s.strands := rfl
@[simp] theorem State.memWrite_cores (k : Nat) (bs : List Byte) : (s.memWrite k bs).cores = s.cores := rfl
@[simp] theorem State.memWrite_ctlb (k : Nat) (bs : List Byte) : (s.memWrite k bs).ctlb = s.ctlb := rfl
@[simp] theorem State.memWrite_regs (k : Nat) (bs : List Byte) : (s.memWrite k bs).regs = s.regs := rfl
@[simp] theorem State.memWrite_tiles (k : Nat) (bs : List Byte) : (s.memWrite k bs).tiles = s.tiles := rfl
@[simp] theorem State.memWrite_queues (k : Nat) (bs : List Byte) : (s.memWrite k bs).queues = s.queues := rfl
@[simp] theorem State.memWrite_pushNo (k : Nat) (bs : List Byte) : (s.memWrite k bs).pushNo = s.pushNo := rfl
@[simp] theorem State.memWrite_aging (k : Nat) (bs : List Byte) : (s.memWrite k bs).aging = s.aging := rfl
@[simp] theorem State.memWrite_deps (k : Nat) (bs : List Byte) : (s.memWrite k bs).deps = s.deps := rfl
@[simp] theorem State.memWrite_spawnNo (k : Nat) (bs : List Byte) : (s.memWrite k bs).spawnNo = s.spawnNo := rfl
@[simp] theorem State.memWrite_faults (k : Nat) (bs : List Byte) : (s.memWrite k bs).faults = s.faults := rfl
@[simp] theorem State.memWrite_permits (k : Nat) (bs : List Byte) : (s.memWrite k bs).permits = s.permits := rfl
@[simp] theorem State.memWrite_loops (k : Nat) (bs : List Byte) : (s.memWrite k bs).loops = s.loops := rfl
@[simp] theorem State.memWrite_replays (k : Nat) (bs : List Byte) : (s.memWrite k bs).replays = s.replays := rfl
@[simp] theorem State.memWrite_layout (k : Nat) (bs : List Byte) : (s.memWrite k bs).layout = s.layout := rfl
@[simp] theorem State.memWrite_fabric (k : Nat) (bs : List Byte) : (s.memWrite k bs).fabric = s.fabric := rfl
@[simp] theorem State.memWrite_sweeps (k : Nat) (bs : List Byte) : (s.memWrite k bs).sweeps = s.sweeps := rfl
@[simp] theorem State.memWrite_sweep (k : Nat) (bs : List Byte) : (s.memWrite k bs).sweep = s.sweep := rfl
@[simp] theorem State.memWrite_images (k : Nat) (bs : List Byte) : (s.memWrite k bs).images = s.images := rfl
@[simp] theorem State.memWrite_saves (k : Nat) (bs : List Byte) : (s.memWrite k bs).saves = s.saves := rfl
@[simp] theorem State.memWrite_trSeq (k : Nat) (bs : List Byte) : (s.memWrite k bs).trSeq = s.trSeq := rfl
@[simp] theorem State.memWrite_msixMask (k : Nat) (bs : List Byte) : (s.memWrite k bs).msixMask = s.msixMask := rfl
@[simp] theorem State.memWrite_msixPend (k : Nat) (bs : List Byte) : (s.memWrite k bs).msixPend = s.msixPend := rfl
@[simp] theorem State.memWrite_msixSent (k : Nat) (bs : List Byte) : (s.memWrite k bs).msixSent = s.msixSent := rfl
@[simp] theorem State.memWrite_ports (k : Nat) (bs : List Byte) : (s.memWrite k bs).ports = s.ports := rfl
@[simp] theorem State.memWrite_flights (k : Nat) (bs : List Byte) : (s.memWrite k bs).flights = s.flights := rfl
@[simp] theorem State.memWrite_launches (k : Nat) (bs : List Byte) : (s.memWrite k bs).launches = s.launches := rfl
@[simp] theorem State.memWrite_asks (k : Nat) (bs : List Byte) : (s.memWrite k bs).asks = s.asks := rfl
@[simp] theorem State.memWrite_tileOut (k : Nat) (bs : List Byte) : (s.memWrite k bs).tileOut = s.tileOut := rfl
@[simp] theorem State.memWrite_edgeQ (k : Nat) (bs : List Byte) : (s.memWrite k bs).edgeQ = s.edgeQ := rfl
@[simp] theorem State.memWrite_fabOut (k : Nat) (bs : List Byte) : (s.memWrite k bs).fabOut = s.fabOut := rfl
@[simp] theorem State.memWrite_peerLay (k : Nat) (bs : List Byte) : (s.memWrite k bs).peerLay = s.peerLay := rfl
@[simp] theorem State.memWrite_d3 (k : Nat) (bs : List Byte) : (s.memWrite k bs).d3 = s.d3 := rfl
@[simp] theorem State.memWrite_msixTab (k : Nat) (bs : List Byte) : (s.memWrite k bs).msixTab = s.msixTab := rfl
@[simp] theorem State.memWrite_keys (k : Nat) (bs : List Byte) : (s.memWrite k bs).keys = s.keys := rfl
@[simp] theorem State.memWrite_measured (k : Nat) (bs : List Byte) : (s.memWrite k bs).measured = s.measured := rfl
@[simp] theorem State.memWrite_coreReports (k : Nat) (bs : List Byte) : (s.memWrite k bs).coreReports = s.coreReports := rfl
@[simp] theorem State.memWrite_idlePw (k : Nat) (bs : List Byte) : (s.memWrite k bs).idlePw = s.idlePw := rfl
@[simp] theorem State.memWrite_fxdCores (k : Nat) (bs : List Byte) : (s.memWrite k bs).fxdCores = s.fxdCores := rfl
@[simp] theorem State.memWrite_hwCores (k : Nat) (bs : List Byte) : (s.memWrite k bs).hwCores = s.hwCores := rfl
@[simp] theorem State.memWrite_nid (k : Nat) (bs : List Byte) : (s.memWrite k bs).nid = s.nid := rfl
@[simp] theorem State.memWrite_fresh (k : Nat) (bs : List Byte) : (s.memWrite k bs).fresh = s.fresh := rfl

@[simp] theorem State.due_frz (i : Instr) : (s.due i).frz = s.frz := rfl
@[simp] theorem State.due_stepArm (i : Instr) : (s.due i).stepArm = s.stepArm := rfl
@[simp] theorem State.due_agenda (i : Instr) : (s.due i).agenda = s.agenda := rfl
@[simp] theorem State.due_turn (i : Instr) : (s.due i).turn = s.turn := rfl
@[simp] theorem State.due_cur (i : Instr) : (s.due i).cur = s.cur := rfl
@[simp] theorem State.due_strands (i : Instr) : (s.due i).strands = s.strands := rfl
@[simp] theorem State.due_cores (i : Instr) : (s.due i).cores = s.cores := rfl
@[simp] theorem State.due_ctlb (i : Instr) : (s.due i).ctlb = s.ctlb := rfl
@[simp] theorem State.due_mem (i : Instr) : (s.due i).mem = s.mem := rfl
@[simp] theorem State.due_regs (i : Instr) : (s.due i).regs = s.regs := rfl
@[simp] theorem State.due_tiles (i : Instr) : (s.due i).tiles = s.tiles := rfl
@[simp] theorem State.due_queues (i : Instr) : (s.due i).queues = s.queues := rfl
@[simp] theorem State.due_pushNo (i : Instr) : (s.due i).pushNo = s.pushNo := rfl
@[simp] theorem State.due_aging (i : Instr) : (s.due i).aging = s.aging := rfl
@[simp] theorem State.due_deps (i : Instr) : (s.due i).deps = s.deps := rfl
@[simp] theorem State.due_spawnNo (i : Instr) : (s.due i).spawnNo = s.spawnNo := rfl
@[simp] theorem State.due_faults (i : Instr) : (s.due i).faults = s.faults := rfl
@[simp] theorem State.due_permits (i : Instr) : (s.due i).permits = s.permits := rfl
@[simp] theorem State.due_loops (i : Instr) : (s.due i).loops = s.loops := rfl
@[simp] theorem State.due_replays (i : Instr) : (s.due i).replays = s.replays := rfl
@[simp] theorem State.due_layout (i : Instr) : (s.due i).layout = s.layout := rfl
@[simp] theorem State.due_fabric (i : Instr) : (s.due i).fabric = s.fabric := rfl
@[simp] theorem State.due_sweeps (i : Instr) : (s.due i).sweeps = s.sweeps := rfl
@[simp] theorem State.due_sweep (i : Instr) : (s.due i).sweep = s.sweep := rfl
@[simp] theorem State.due_images (i : Instr) : (s.due i).images = s.images := rfl
@[simp] theorem State.due_saves (i : Instr) : (s.due i).saves = s.saves := rfl
@[simp] theorem State.due_trSeq (i : Instr) : (s.due i).trSeq = s.trSeq := rfl
@[simp] theorem State.due_msixMask (i : Instr) : (s.due i).msixMask = s.msixMask := rfl
@[simp] theorem State.due_msixPend (i : Instr) : (s.due i).msixPend = s.msixPend := rfl
@[simp] theorem State.due_msixSent (i : Instr) : (s.due i).msixSent = s.msixSent := rfl
@[simp] theorem State.due_ports (i : Instr) : (s.due i).ports = s.ports := rfl
@[simp] theorem State.due_flights (i : Instr) : (s.due i).flights = s.flights := rfl
@[simp] theorem State.due_launches (i : Instr) : (s.due i).launches = s.launches := rfl
@[simp] theorem State.due_asks (i : Instr) : (s.due i).asks = s.asks := rfl
@[simp] theorem State.due_tileOut (i : Instr) : (s.due i).tileOut = s.tileOut := rfl
@[simp] theorem State.due_edgeQ (i : Instr) : (s.due i).edgeQ = s.edgeQ := rfl
@[simp] theorem State.due_fabOut (i : Instr) : (s.due i).fabOut = s.fabOut := rfl
@[simp] theorem State.due_peerLay (i : Instr) : (s.due i).peerLay = s.peerLay := rfl
@[simp] theorem State.due_bad (i : Instr) : (s.due i).bad = s.bad := rfl
@[simp] theorem State.due_d3 (i : Instr) : (s.due i).d3 = s.d3 := rfl
@[simp] theorem State.due_msixTab (i : Instr) : (s.due i).msixTab = s.msixTab := rfl
@[simp] theorem State.due_keys (i : Instr) : (s.due i).keys = s.keys := rfl
@[simp] theorem State.due_measured (i : Instr) : (s.due i).measured = s.measured := rfl
@[simp] theorem State.due_coreReports (i : Instr) : (s.due i).coreReports = s.coreReports := rfl
@[simp] theorem State.due_idlePw (i : Instr) : (s.due i).idlePw = s.idlePw := rfl
@[simp] theorem State.due_fxdCores (i : Instr) : (s.due i).fxdCores = s.fxdCores := rfl
@[simp] theorem State.due_hwCores (i : Instr) : (s.due i).hwCores = s.hwCores := rfl
@[simp] theorem State.due_nid (i : Instr) : (s.due i).nid = s.nid := rfl
@[simp] theorem State.due_fresh (i : Instr) : (s.due i).fresh = s.fresh := rfl

@[simp] theorem State.due_work (i : Instr) : (s.due i).work = s.work ++ [i] := rfl
@[simp] theorem State.strand_setStrand (g h : Nat) (t : Strand) :
    (s.setStrand g t).strand h = if h = g then t else s.strand h := SMap.get_put _ _ _ _ _
@[simp] theorem State.core_setCore (c h : Nat) (k : Core) : (s.setCore c k).core h = if h = c then k else s.core h :=
  SMap.get_put _ _ _ _ _
@[simp] theorem State.strand_setCore (c g : Nat) (k : Core) : (s.setCore c k).strand g = s.strand g := rfl
@[simp] theorem State.strand_setReg (d o v g : Nat) : (s.setReg d o v).strand g = s.strand g := rfl
@[simp] theorem State.strand_memWrite (k g : Nat) (bs : List Byte) : (s.memWrite k bs).strand g = s.strand g := rfl
@[simp] theorem State.strand_due (i : Instr) (g : Nat) : (s.due i).strand g = s.strand g := rfl
@[simp] theorem State.core_setStrand (g c : Nat) (t : Strand) : (s.setStrand g t).core c = s.core c := rfl
@[simp] theorem State.core_setReg (d o v c : Nat) : (s.setReg d o v).core c = s.core c := rfl
@[simp] theorem State.core_memWrite (k c : Nat) (bs : List Byte) : (s.memWrite k bs).core c = s.core c := rfl
@[simp] theorem State.core_due (i : Instr) (c : Nat) : (s.due i).core c = s.core c := rfl
@[simp] theorem State.reg_setStrand (g d o : Nat) (t : Strand) : (s.setStrand g t).reg d o = s.reg d o := rfl
@[simp] theorem State.reg_setCore (c d o : Nat) (k : Core) : (s.setCore c k).reg d o = s.reg d o := rfl
@[simp] theorem State.reg_memWrite (k d o : Nat) (bs : List Byte) : (s.memWrite k bs).reg d o = s.reg d o := rfl
@[simp] theorem State.reg_due (i : Instr) (d o : Nat) : (s.due i).reg d o = s.reg d o := rfl

/-- A register reads as before after a write to another. -/
theorem State.reg_setReg_ne (d o v d' o' : Nat) (h : d' * 2 ^ 20 + o' ≠ d * 2 ^ 20 + o) :
    (s.setReg d o v).reg d' o' = s.reg d' o' := by
  simp only [State.reg, State.setReg, SMap.get_set_ne _ _ _ _ _ _ h]

/-- A register reads the value written, in 64 bits. -/
theorem State.reg_setReg (d o v : Nat) (h : SMap.rising s.regs = true) : (s.setReg d o v).reg d o = v % 2 ^ 64 := by
  simp only [State.reg, State.setReg, SMap.get_set _ _ _ _ h, BitVec.toNat_ofNat]

/-- A write of a register keeps the keys rising. -/
theorem State.rising_setReg (d o v : Nat) (h : SMap.rising s.regs = true) : SMap.rising (s.setReg d o v).regs = true :=
  SMap.rising_set _ _ _ _ h

@[simp] theorem State.me_setStrand (t : Strand) : (s.setStrand s.cur.g t).me = t := by
  simp only [State.me, State.setStrand_cur, State.strand_setStrand, if_true]
@[simp] theorem State.me_setCore (c : Nat) (k : Core) : (s.setCore c k).me = s.me := rfl
@[simp] theorem State.me_setReg (d o v : Nat) : (s.setReg d o v).me = s.me := rfl
@[simp] theorem State.me_memWrite (k : Nat) (bs : List Byte) : (s.memWrite k bs).me = s.me := rfl
@[simp] theorem State.me_due (i : Instr) : (s.due i).me = s.me := rfl
theorem State.me_modMe (f : Strand → Strand) : (s.modMe f).me = f s.me := by simp

end Sys2Proof.Machine
end

