-- ==== Sys2Proof/Laws/Slot.lean ====
section
/-! SUPPORT. What a slot operation does once it may commit, and what its parts leave alone. -/

namespace Sys2Proof.Machine

/-- Two states that differ in event counters alone. -/
structure Counted (s t : State) : Prop where
  rest : ({ t with regs := s.regs } : State) = s
  regs : ∀ d o, o < 2 ^ 20 → isCounter o = false → t.reg d o = s.reg d o

theorem Counted.refl (s : State) : Counted s s := ⟨rfl, fun _ _ _ _ => rfl⟩

theorem Counted.trans {s t u : State} (h : Counted s t) (k : Counted t u) : Counted s u := by
  refine ⟨?_, fun d o h1 h2 => (k.regs d o h1 h2).trans (h.regs d o h1 h2)⟩
  have e := congrArg (fun v : State => { v with regs := s.regs }) k.rest
  exact e.trans h.rest

theorem Counted.strands {s t : State} (h : Counted s t) : t.strands = s.strands := by
  have e := congrArg State.strands h.rest; exact e
theorem Counted.cores {s t : State} (h : Counted s t) : t.cores = s.cores := by
  have e := congrArg State.cores h.rest; exact e
theorem Counted.cur {s t : State} (h : Counted s t) : t.cur = s.cur := by
  have e := congrArg State.cur h.rest; exact e
theorem Counted.mem {s t : State} (h : Counted s t) : t.mem = s.mem := by
  have e := congrArg State.mem h.rest; exact e
theorem Counted.strand {s t : State} (h : Counted s t) (g : Nat) : t.strand g = s.strand g := by
  simp only [State.strand, h.strands]
theorem Counted.me {s t : State} (h : Counted s t) : t.me = s.me := by
  simp only [State.me, State.strand, h.strands, h.cur]

theorem Counted.fold {α : Type} (f : State → α → State) (l : List α) (h : ∀ s a, Counted s (f s a)) (s : State) :
    Counted s (l.foldl f s) := by
  induction l generalizing s with
  | nil => exact .refl s
  | cons a l ih => exact (h s a).trans (ih _)

/-- A write of an event counter changes event counters alone. -/
theorem Counted.set (s : State) (d c k v : Nat) (hk : k < 64) : Counted s (s.setReg d (ecBlock c k) v) := by
  refine ⟨rfl, fun d' o ho hc => State.reg_setReg_ne _ _ _ _ _ _ ?_⟩
  simp only [ecBlock]
  simp only [isCounter, Bool.and_eq_false_iff, decide_eq_false_iff_not] at hc
  have := Nat.mod_lt c (by decide : 288 > 0)
  omega

/-- Events of a strand change event counters alone (19 R391). -/
theorem Counted.event (s : State) (g code n : Nat) : Counted s (s.event g code n) := by
  unfold State.event
  dsimp only
  split
  · exact .refl s
  · have h : ∀ (l : List Nat) (u : State) (P : State → Nat → Bool), (∀ k ∈ l, k < 4) →
        Counted u (l.foldl (fun v k => if P v k then v.setReg (dieOf g) (ecBlock (coreOf g) (8 + 8 * k))
          (v.reg (dieOf g) (ecBlock (coreOf g) (8 + 8 * k)) + n) else v) u) := by
      intro l
      induction l with
      | nil => intro u P _; exact .refl u
      | cons a l ih =>
        intro u P hl
        refine Counted.trans ?_ (ih _ P (fun k hk => hl k (List.mem_cons_of_mem _ hk)))
        have := hl a (List.mem_cons_self ..)
        dsimp only
        split
        · exact .set _ _ _ _ _ (by omega)
        · exact .refl u
    exact h [0, 1, 2, 3] s _ (by decide)

theorem Counted.events (s : State) (l : List (Nat × Nat)) :
    Counted s (l.foldl (fun (s : State) e => s.event s.cur.g e.1 e.2) s) :=
  .fold _ _ (fun (s : State) (e : Nat × Nat) => .event s s.cur.g e.1 e.2) s

/-- What recording effects does to a control context. -/
theorem record_eq (slot : Nat) (cancel : List Dst) (l : List (Nat × Eff)) (c : Ctx) :
    record slot cancel c l = { c with
      buf := c.buf ++ heldOf slot cancel l
      lq := c.lq ++ queuedOf slot c.pc cancel l } := by
  induction l generalizing c with
  | nil => simp [record, heldOf, queuedOf]
  | cons e l ih =>
    obtain ⟨n, x⟩ := e
    simp only [record]
    cases hx : trimEff cancel x with
    | none =>
      rw [ih]; simp only [heldOf, queuedOf, List.filterMap_cons, hx, Option.map_none, ite_self]
    | some y =>
      by_cases hn : 1 < n
      · simp only [hn, if_true]; rw [ih]
        simp [heldOf, queuedOf, hx, hn]
      · simp only [hn, if_false]; rw [ih]
        simp [heldOf, queuedOf, hx, hn]

theorem heldOf_nil (slot : Nat) (cancel : List Dst) : heldOf slot cancel [] = [] := rfl
theorem queuedOf_nil (slot pc : Nat) (cancel : List Dst) : queuedOf slot pc cancel [] = [] := rfl

/-- Nothing pending meets what a ready slot reads or writes. -/
theorem Ready.pend {s : State} {slot n : Nat} {srcs dsts : List Dst} (h : Ready s slot srcs dsts n) :
    pendBar s.me (srcs ++ dsts) = none := by
  have e : s.me.oldPends.filter (fun p => dstsMeet p.dsts (srcs ++ dsts)) = [] :=
    List.filter_eq_nil_iff.mpr (fun p hp => by simp [h.settled p hp])
  simp [pendBar, e]

/-- The checking scoreboard finds nothing in a ready slot. -/
theorem Ready.csb {s : State} {slot n : Nat} {m : SlotSem} {srcs dsts : List Dst} (h : Ready s slot srcs dsts n) (hs : m.srcs = srcs) :
    csbFlt s.me m = none := by
  subst hs
  unfold csbFlt
  rcases h.checked with hc | hc | ⟨hq, hd⟩
  · simp only [hc, Bool.false_and, Bool.false_eq_true, if_false]
  · simp [hc]
  · have e : s.me.oldLq.any (fun e => dstsMeet (landDst e.what) m.srcs) = false :=
      List.any_eq_false.mpr (fun e he => by simp [hq e he])
    simp [e, hd]

/-- A ready slot with its guard true, no wait and no fault of its own commits. -/
theorem runSlot_commits {s : State} {slot n : Nat} {m : SlotSem} (h : Ready s slot m.srcs m.dsts n)
    (hg : m.guard = true) (hw : m.wait = none) (ht : m.touches = []) (hh : m.hold = none) (hl : m.literal = none)
    (hf : m.fault = none) (hn : slotEnts m = n) (hr : m.reads = [] := by rfl) :
    runSlot slot m s = commitSlot slot m (if s.me.ctx.done = 0 then markFirst s else s) := by
  have hbar : slotBar s.me m = none := by simp [slotBar, hg, ht, h.pend, hw]
  have herr : errFlt s.me m = none := by
    have e : s.me.errs.find? (fun e => (dstsMeet [e.1] m.srcs && e.2.1 % 256 == 0x21) ||
        (dstsMeet [e.1] m.reads && e.2.1 == 0x21)) = none :=
      List.find?_eq_none.mpr (fun e he => by simp [h.sound e he, hr, show dstsMeet [e.1] [] = false from rfl])
    simp only [errFlt, e, Option.map_none]
  have hhor : horizonFlt s.me m = none := by
    have e : s.me.errs.any (fun e => e.2.1 == 5 && dstsMeet [e.1] m.srcs) = false :=
      List.any_eq_false.mpr (fun e he => by simp [h.sound e he])
    simp [horizonFlt, hr, e]
  have hcsb : csbFlt s.me m = none := h.csb rfl
  have hflt : slotFlt s.me m = none := by
    simp [slotFlt, hl, hg, horizonHere, hhor, hf, hcsb, herr]
  have hroom : ¬ s.me.ctx.lq.length + slotEnts m > 64 := by have := h.room; omega
  unfold runSlot
  dsimp only
  rw [if_neg (by simp [h.clear, h.alive]), hbar]
  dsimp only
  rw [hflt]
  dsimp only
  rw [if_neg hroom, if_pos hg, hh]

/-- The strand in issue changed, and nothing else. -/
theorem OnlyMe.mod (s : State) (f : Strand → Strand) (ex : List Nat) : OnlyMe s (s.modMe f) ex :=
  ⟨rfl, fun g h => by simp [h], fun _ _ _ _ _ => rfl⟩

theorem OnlyMe.trans {s t u : State} {ex : List Nat} (h : OnlyMe s t ex) (k : OnlyMe t u ex) : OnlyMe s u ex := by
  have hc : t.cur = s.cur := by have e := congrArg State.cur h.rest; exact e
  refine ⟨?_, fun g hg => (k.others g (hc ▸ hg)).trans (h.others g hg),
    fun d o h1 h2 h3 => (k.regs d o h1 h2 h3).trans (h.regs d o h1 h2 h3)⟩
  have e := congrArg (fun v : State => { v with strands := s.strands, regs := s.regs }) k.rest
  exact e.trans h.rest

theorem Counted.only {s t : State} (h : Counted s t) (ex : List Nat) : OnlyMe s t ex := by
  refine ⟨?_, fun g _ => h.strand g, fun d o h1 h2 _ => h.regs d o h1 h2⟩
  have e := congrArg (fun v : State => { v with strands := s.strands }) h.rest
  exact e

theorem OnlyMe.refl (s : State) (ex : List Nat) : OnlyMe s s ex := ⟨rfl, fun _ _ => rfl, fun _ _ _ _ _ => rfl⟩

/-- What a C operation's outcome and an S operation's lane seeds amount to: a change of the strand in issue beside what the
commit itself records. -/
structure Posts (post : State → State) (out : COut → COut) (keep : Strand → Strand) (ex : List Nat := []) : Prop where
  only : ∀ s, OnlyMe s (post s) ex
  me : ∀ s, (post s).me = { keep s.me with ctx := { s.me.ctx with cout := out s.me.ctx.cout } }

theorem Posts.id : Posts id (fun c => c) (fun t => t) := ⟨fun s => .refl s _, fun _ => rfl⟩

/-- A slot that commits leaves the state that `Commits` describes. -/
theorem commits_of {s : State} {slot n : Nat} {m : SlotSem} {out : COut → COut} {keep : Strand → Strand} {ex : List Nat}
    (h : Ready s slot m.srcs m.dsts n) (hg : m.guard = true) (hw : m.wait = none) (ht : m.touches = []) (hh : m.hold = none)
    (hl : m.literal = none) (hf : m.fault = none) (hn : slotEnts m = n) (hp : Posts m.post out keep ex) (hc : m.commits = true)
    (hk : ∀ t c, keep { t with ctx := c } = { keep t with ctx := c }) (hr : m.reads = [] := by rfl) :
    Commits s (runSlot slot m s) slot m.srcs m.lands out keep ex := by
  rw [runSlot_commits h hg hw ht hh hl hf hn hr]
  generalize hs' : (if s.me.ctx.done = 0 then markFirst s else s) = s'
  have hcur : s'.cur = s.cur := by subst hs'; split <;> rfl
  have hme : s'.me = { s.me with ctx := { s.me.ctx with
      first := if s.me.ctx.done = 0 then some (s.nid, s.me.ctx.lq.length) else s.me.ctx.first } } := by
    subst hs'; split
    · simp [markFirst]
    · rfl
  have honly : OnlyMe s s' ex := by
    subst hs'; split
    · exact .mod s _ _
    · exact .refl s _
  have hd : deadCount s'.me m.srcs = deadCount s.me m.srcs := by rw [hme]; rfl
  unfold commitSlot
  simp only [hg, hc, Bool.not_true, Bool.false_eq_true, if_false, if_true]
  generalize hu : s'.modMe _ = u
  have hu1 : OnlyMe s' u ex := hu ▸ .mod s' _ _
  have hu2 : u.me = { s'.me with ctx := { record slot s'.cur.cancel s'.me.ctx m.lands with
      evDead := s'.me.ctx.evDead + deadCount s'.me m.srcs } } := by subst hu; simp
  have hcu : u.cur = s'.cur := by subst hu; rfl
  generalize hv : List.foldl _ u _ = v
  have hv1 : Counted u v := hv ▸ .events u _
  have hx1 := hp.only v
  have hx2 := hp.me v
  generalize m.post v = x at hx1 hx2
  have hcx : x.cur = v.cur := by have e := congrArg State.cur hx1.rest; exact e
  refine ⟨((honly.trans hu1).trans (hv1.only ex)).trans (hx1.trans (.mod x _ _)), ?_, ?_⟩
  · rw [State.me_modMe, hx2, hv1.me, hu2, hme]
    simp only [record_eq, markDone, ctxAfter, hcur]
    rfl
  · rw [State.me_modMe, hx2, hv1.me, hu2, hme]
    dsimp only
    exact (congrArg (fun t : Strand => ({ t with ctx := s.me.ctx } : Strand)) (hk s.me _)).trans (hk s.me s.me.ctx).symm

/-- The part of a state that a change of the outcome of the C slot makes. -/
theorem Posts.setCout (f : COut → COut) : Posts (setCout f) f (fun t => t) :=
  ⟨fun s => .mod s _ _, fun s => by simp [Machine.setCout]⟩

/-- An outcome and an event. -/
theorem Posts.setCoutEvent (f : COut → COut) (code n : Nat) :
    Posts (fun s => (Machine.setCout f s).event s.cur.g code n) f (fun t => t) :=
  ⟨fun s => ((Posts.setCout f).only s).trans ((Counted.event _ _ _ _).only _),
    fun s => by rw [(Counted.event _ _ _ _).me, (Posts.setCout f).me]⟩

/-- Lane seeds reserved leave the control context alone. -/
theorem Strand.reserve_ctx (t : Strand) (l : List (Nat × Nat)) (c : Ctx) :
    ({ t with ctx := c } : Strand).reserve l = { t.reserve l with ctx := c } := by
  induction l generalizing t with
  | nil => rfl
  | cons e l ih => obtain ⟨i, n⟩ := e; exact ih (t.setSeed i (Strand.reserve.lfsrN n (t.seed i)))

theorem Strand.reserve_ctx_eq (t : Strand) (l : List (Nat × Nat)) : (t.reserve l).ctx = t.ctx := by
  induction l generalizing t with
  | nil => rfl
  | cons e l ih => obtain ⟨i, n⟩ := e; exact ih (t.setSeed i (Strand.reserve.lfsrN n (t.seed i)))

/-- A rounding of the S slot. -/
theorem Posts.sStep : Posts sStep (fun c => c) (fun t => if t.rmode = .rsto then t.reserve [(0, 1)] else t) := by
  refine ⟨fun s => ?_, fun s => ?_⟩
  · unfold Machine.sStep; split
    · exact .mod s _ _
    · exact .refl s _
  · unfold Machine.sStep; split
    · rw [State.me_modMe]; exact Strand.reserve_ctx s.me [(0, 1)] s.me.ctx
    · rfl

/-- A slot operation that commits answers the next state of `Commits`. -/
theorem writes_of {i : Instr} {slot : Nat} {guard : Strand → Bool} {srcs dsts : List Dst} {ents : Nat}
    {lands : Strand → List (Nat × Eff)} {out : Strand → COut → COut} {keep : Strand → Strand} (sem : State → SlotSem)
    (he : ∀ s, exec i s = .next (runSlot slot (sem s) s)) (hs : ∀ s, (sem s).srcs = srcs) (hd : ∀ s, (sem s).dsts = dsts)
    (hg : ∀ s, guard s.me = true → (sem s).guard = true) (hw : ∀ s, (sem s).wait = none)
    (ht : ∀ s, (sem s).touches = []) (hh : ∀ s, (sem s).hold = none)
    (hl : ∀ s, (sem s).literal = none) (hf : ∀ s, (sem s).fault = none)
    (hn : ∀ s, guard s.me = true → slotEnts (sem s) = ents) (hp : ∀ s, Posts (sem s).post (out s.me) keep)
    (hc : ∀ s, (sem s).commits = true) (hk : ∀ t c, keep { t with ctx := c } = { keep t with ctx := c })
    (hv : ∀ s, (sem s).lands = lands s.me) (hrd : ∀ s, (sem s).reads = [] := by intro; rfl) : Writes i slot guard srcs dsts ents lands out keep := by
  intro s hgs hr
  refine ⟨_, he s, ?_⟩
  have h : Ready s slot (sem s).srcs (sem s).dsts ents := by rw [hs, hd]; exact hr
  have := commits_of h (hg s hgs) (hw s) (ht s) (hh s) (hl s) (hf s) (hn s hgs) (hp s) (hc s) hk (hrd s)
  rw [hs, hv] at this
  exact this

theorem slotEnts_nil (m : SlotSem) (h : m.lands = []) (he : m.ents = 0) (hg : m.guard = true) : slotEnts m = 0 := by
  simp [slotEnts, h, he, hg]
theorem slotEnts_one (m : SlotSem) (l : Nat) (e : Eff) (h : m.lands = [(l, e)]) (he : m.ents = 0) (hg : m.guard = true) :
    slotEnts m = if 1 < l then 1 else 0 := by
  by_cases hl : 1 < l <;> simp [slotEnts, h, he, hg, hl]

/-- A ready slot whose operation has a fault of its own raises it. -/
theorem raises_of {s : State} {slot : Nat} {m : SlotSem} {srcs dsts : List Dst} {n : Nat} {f : Flt}
    (h : Ready s slot srcs dsts n) (hs : m.srcs = srcs) (hd : m.dsts = dsts) (hg : m.guard = true) (hw : m.wait = none)
    (ht : m.touches = []) (hl : m.literal = none) (hf : m.fault = some f) (hr : m.reads = [] := by rfl) : runSlot slot m s = s.raise s.cur.g slot f := by
  have hbar : slotBar s.me m = none := by subst hs hd; simp [slotBar, hg, ht, h.pend, hw]
  have hhor : horizonFlt s.me m = none := by
    have e : s.me.errs.any (fun e => e.2.1 == 5 && dstsMeet [e.1] m.srcs) = false :=
      List.any_eq_false.mpr (fun e he => by simp [hs, h.sound e he])
    simp [horizonFlt, hr, e]
  have hh : horizonHere s.me m = false := by simp [horizonHere, hhor]
  have hflt : slotFlt s.me m = some f := by simp [slotFlt, hl, hg, hh, hf, h.csb hs]
  unfold runSlot
  dsimp only
  rw [if_neg (by simp [h.clear, h.alive]), hbar]
  dsimp only
  rw [hflt]
  simp [clearHorizon, hh]

/-- A ready slot commits with its effects, the outcome of the C slot and the strand beside changed as its post does. -/
theorem commits_with {s : State} {slot n : Nat} {m : SlotSem} {srcs dsts : List Dst} {lands : List (Nat × Eff)}
    {out : COut → COut} {ex : List Nat} (h : Ready s slot srcs dsts n) (hs : m.srcs = srcs) (hd : m.dsts = dsts) (hg : m.guard = true)
    (hw : m.wait = none) (ht : m.touches = []) (hh : m.hold = none) (hl : m.literal = none) (hf : m.fault = none)
    (hn : slotEnts m = n) (hp : Posts m.post out (fun t => t) ex) (hc : m.commits = true) (hv : m.lands = lands)
    (hr : m.reads = [] := by rfl) : Commits s (runSlot slot m s) slot srcs lands out (fun t => t) ex := by
  subst hs hd hv
  exact commits_of h hg hw ht hh hl hf hn hp hc (fun _ _ => rfl) hr

end Sys2Proof.Machine
end

