-- ==== Sys2Proof/Laws/Tensor.lean ====
section
/-! SUPPORT. Laws of items: how many a run of bytes gives. -/

namespace Sys2Proof.Machine

@[simp] theorem length_itemsOf (w n : Nat) (bs : List Byte) : (itemsOf w n bs).length = n := by
  induction n generalizing bs with
  | zero => rfl
  | succ n ih => simp [itemsOf, ih]

/-- Items of a byte or more are as many as are asked for. -/
theorem length_unpackItems {fc : Nat} (h : 8 ≤ itemBits fc) (n : Nat) (bs : List Byte) : (unpackItems fc n bs).length = n := by
  rw [unpackItems, if_neg (by omega), length_itemsOf]

end Sys2Proof.Machine
end

