-- ==== Sys2Proof/Tests/Slice0.lean ====
section
/-! SUPPORT. Tests: ill-formed terms that the check refuses, words written from the encoding tables of 03, single steps
whose results are computed by hand from the manual, and for every statement with hypotheses a state that meets them. -/

namespace Sys2Proof.Tests

-- One test after another, so that the checks of this file do not all hold their memory at once.
set_option Elab.async false

open Sys2Proof Sys2Proof.Machine

-- A small package: strand 0 runs a task of partition 5, with two pages of linear memory, its own vault, four kinds of views
-- and three tensors.

/-- A view descriptor. -/
def view (fmt kind hi lo base : Nat) : W64 :=
  BitVec.ofNat 64 (2 ^ 63 + fmt * 2 ^ 24 + kind * 2 ^ 22 + hi * 2 ^ 16 + lo * 2 ^ 10 + base)

/-- A layout record (16 R328). -/
def record (fc ms base rows cols rslot : Nat) : List Byte :=
  leBytes 1 fc ++ leBytes 1 ms ++ leBytes 6 0 ++ leBytes 8 base ++ leBytes 2 rows ++ leBytes 2 cols ++ leBytes 2 1 ++
    leBytes 2 1 ++ leBytes 1 1 ++ leBytes 1 0 ++ leBytes 1 rslot ++ leBytes 37 0

/-- Address of the strand's own vault in the aperture. -/
def own : Nat := 0x1FFFFFF00000000 + 127 * 2 ^ 24

/-- The strand. -/
def worker : Strand where
  run := .inPos
  sreg := [(1, 5#64), (2, 0xFFFFFFFFFFFFFFF9#64), (4, 0x3F800000#64), (5, 0x40000000#64), (7, 64#64),
    (8, 0x0000000000100010#64), (9, 0x8081828384858687#64)]
  areg := [(1, 0x10000#64), (2, 0x20000#64), (3, BitVec.ofNat 64 own), (4, 0x2000000700000000#64),
    (5, 0x2000000800000000#64), (6, 0x10001#64), (7, 0x1000000000000000#64), (8, 0x2000000900000000#64),
    (9, 0x30000#64), (10, 0x10200#64), (11, 0x100000000000003F#64)]
  preg := 0b00000010#8
  qreg := [(1, 0xF#256)]
  urs := [(1026, 0xA0#8)]
  vd := [(0, view 0x00 0 7 0 0), (1, view 0x10 1 17 16 128), (2, view 0x00 2 21 20 384), (3, view 0x00 3 27 24 960),
    (4, view 0x50 0 31 30 0), (5, view 0x01 0 33 32 0), (6, view 0x50 1 37 36 128)]
  mlp := 0x10000#64
  regions := [{ kind := 2, acc := 3, vault := 0, base := 0, len := 0x10000 },
    { kind := 1, acc := 3, base := 0x10000, len := 0x20000 },
    { kind := 0, acc := 3, handle := 7, rows := 2, cols := 15, n2 := 1, n3 := 1 },
    { kind := 0, acc := 3, handle := 8, rows := 2, cols := 15, n2 := 1, n3 := 1 },
    { kind := 0, acc := 3, handle := 9, rows := 16, cols := 16, n2 := 1, n3 := 1 }]
  task := some { loc := 0x40000, va := 0x40000, part := 5, graph := 3, seq := 1, prio := 0, tail := 0 }

/-- Its page of cached memory. -/
def page : Tlb := ⟨5, 0x10000, 0x10000, 0x10000, 7, false, 0, 0⟩
/-- Its memory-side page. -/
def sidePage : Tlb := ⟨5, 0x20000, 0x10000, 0x20000, 3, true, 0, 0⟩

/-- The package: its firmware verified and its stacks trained. -/
def rig : State :=
  { State.reset with
    strands := [(0, worker)]
    cores := [(0, { pos := some 0, part := 5, utlb := [page, sidePage] })]
    regs := [(0x31028, 0#64), (0x31128, 0#64), (0x80400, 1#64), (2 ^ 20 + 0x31028, 0#64), (2 ^ 20 + 0x31128, 0#64),
      (2 ^ 21 + 0x31028, 0#64), (2 ^ 21 + 0x31128, 0#64), (3 * 2 ^ 20 + 0x31028, 0#64), (3 * 2 ^ 20 + 0x31128, 0#64)]
    layout := [⟨5, 7, record 0xA0 1 0x1000000 2 15 6⟩, ⟨5, 8, record 0x00 1 0x2000000 2 15 6⟩,
      ⟨5, 9, record 0x00 0 0x3000000 16 16 0⟩] }

/-- The package with its strand changed. -/
def rigWith (f : Strand → Strand) : State := { rig with strands := [(0, f worker)] }

/-- The package with slot `k` in issue. -/
def rigAt (k : Nat) : State := { rig with cur := { slot := k } }

/-- A strand of which nothing keeps a slot from committing. -/
def calm (t : Strand) : Bool :=
  decide (t.ctx.done = 0) && t.abort.isNone && decide (t.pends = []) && decide (t.errs = []) &&
  !t.scr.getLsbD 0 && decide (t.ctx.lq.length ≤ 1)

/-- Such a strand is ready for every operation. -/
theorem ready_of_calm {s : State} (h : calm s.me = true) {k n : Nat} (hn : n ≤ 63) (srcs dsts : List Dst) :
    Ready s k srcs dsts n := by
  simp only [calm, Bool.and_eq_true, decide_eq_true_eq, Bool.not_eq_true', Option.isNone_iff_eq_none] at h
  obtain ⟨⟨⟨⟨⟨h1, h2⟩, h3⟩, h4⟩, h5⟩, h6⟩ := h
  refine ⟨by simp [h1], h2, ?_, ?_, .inl h5, by omega⟩
  · unfold Strand.oldPends; cases s.me.ctx.first <;> simp [h3]
  · simp [h4]

theorem rig_calm : calm rig.me = true := by decide
theorem rig_live : rig.live = true := by decide
theorem rig_inPos : rig.inPos 0 = true := by decide

/-- The effects that strand 0 has recorded after a step, those of its landing queue last. -/
def effects (o : Host.Outcome State Fault Refusal) : List Eff :=
  match o with
  | .next t => (t.strand 0).ctx.buf.map Held.eff ++ (t.strand 0).ctx.lq.filterMap (fun e => match e.what with
    | .eff x => some x
    | _ => none)
  | _ => []

/-- The effects of one operation on the small package. -/
def does (i : Instr) : List Eff := effects (exec i rig)

/-- The control context of strand 0 after a step. -/
def ctxOf (o : Host.Outcome State Fault Refusal) : Ctx := match o with | .next t => (t.strand 0).ctx | _ => {}

/-- Cause, detail and address that strand 0's TCR, or its abort, shows after a step. -/
def causeOf (o : Host.Outcome State Fault Refusal) : Nat × Nat × Nat :=
  match o with
  | .next t =>
    let x := t.strand 0
    match x.abort with
    | some a => (a.cause, a.detail, a.addr)
    | none => (x.tcr.toNat % 256, x.tcr.toNat / 2 ^ 32 % 65536, x.tar.toNat)
  | _ => (0, 0, 0)

-- The S slot. Registers: s1 = 5, s2 = -7, s4 = 1.0, s5 = 2.0, s7 = 64, s9 = 0x8081828384858687.

/-- 04 R97, R98, by hand. -/
theorem test_scalar_integer :
    does (.add 0 0 3 1 2) = [.sreg 3 0xFFFFFFFFFFFFFFFE#64] ∧ does (.sub 0 0 3 1 2) = [.sreg 3 12#64] ∧
    does (.and 0 0 3 1 2) = [.sreg 3 1#64] ∧ does (.or 0 0 3 1 2) = [.sreg 3 0xFFFFFFFFFFFFFFFD#64] ∧
    does (.xor 0 0 3 1 2) = [.sreg 3 0xFFFFFFFFFFFFFFFC#64] ∧ does (.andn 0 0 3 1 2) = [.sreg 3 4#64] ∧
    does (.shl 0 0 3 1 2) = [.sreg 3 0x0A00000000000000#64] ∧ does (.shl 0 0 3 1 7) = [.sreg 3 5#64] ∧
    does (.shrS 0 0 3 2 1) = [.sreg 3 0xFFFFFFFFFFFFFFFF#64] ∧ does (.shrZ 0 0 3 2 1) = [.sreg 3 0x07FFFFFFFFFFFFFF#64] ∧
    does (.rotr 0 0 3 1 1) = [.sreg 3 0x2800000000000000#64] ∧ does (.minS 0 0 3 1 2) = [.sreg 3 0xFFFFFFFFFFFFFFF9#64] ∧
    does (.minZ 0 0 3 1 2) = [.sreg 3 5#64] ∧ does (.maxS 0 0 3 1 2) = [.sreg 3 5#64] ∧
    does (.maxZ 0 0 3 1 2) = [.sreg 3 0xFFFFFFFFFFFFFFF9#64] := by decide

/-- 04 R98, the constants of its table among them. -/
theorem test_scalar_immediate :
    does (.addi 0 0 3 1 0x200) = [.sreg 3 0xFFFFFFFFFFFFFE05#64] ∧ does (.andi 0 0 3 2 0x3FE) = [.sreg 3 0xFFFFFFFFFFFFFFF8#64] ∧
    does (.ori 0 0 3 1 0x200) = [.sreg 3 0xFFFFFFFFFFFFFE05#64] ∧ does (.xori 0 0 3 1 0x3FF) = [.sreg 3 0xFFFFFFFFFFFFFFFA#64] ∧
    does (.andni 0 0 3 1 0x001) = [.sreg 3 4#64] ∧ does (.shli 0 0 3 1 63) = [.sreg 3 0x8000000000000000#64] ∧
    does (.shriS 0 0 3 2 63) = [.sreg 3 0xFFFFFFFFFFFFFFFF#64] ∧ does (.shriZ 0 0 3 2 63) = [.sreg 3 1#64] ∧
    does (.lui 0 0 3 0x048D) = [.sreg 3 0x123400#64] ∧ does (.lui 0 0 3 0x8000) = [.sreg 3 0xFFFFFFFFFE000000#64] := by decide

/-- 04 R99: products, quotients, the zero divisor and the one overflow. -/
theorem test_multiply_divide :
    does (.mul 0 0 3 1 2) = [.sreg 3 0xFFFFFFFFFFFFFFDD#64] ∧ does (.mulhS 0 0 3 1 2) = [.sreg 3 0xFFFFFFFFFFFFFFFF#64] ∧
    does (.mulhZ 0 0 3 1 2) = [.sreg 3 4#64] ∧ does (.divS 0 0 3 2 1) = [.sreg 3 0xFFFFFFFFFFFFFFFF#64] ∧
    does (.divZ 0 0 3 2 1) = [.sreg 3 3689348814741910321#64] ∧ does (.remS 0 0 3 2 1) = [.sreg 3 0xFFFFFFFFFFFFFFFE#64] ∧
    does (.remZ 0 0 3 2 1) = [.sreg 3 4#64] ∧ does (.divS 0 0 3 1 0) = [.sreg 3 0xFFFFFFFFFFFFFFFF#64] ∧
    does (.divZ 0 0 3 1 0) = [.sreg 3 0xFFFFFFFFFFFFFFFF#64] ∧ does (.remS 0 0 3 1 0) = [.sreg 3 5#64] ∧
    does (.remZ 0 0 3 1 0) = [.sreg 3 5#64] ∧
    effects (exec (.divS 0 0 3 1 2) (rigWith (fun t => (t.ws 1 0x8000000000000000#64).ws 2 0xFFFFFFFFFFFFFFFF#64))) =
      [.sreg 3 0x8000000000000000#64] ∧
    effects (exec (.remS 0 0 3 1 2) (rigWith (fun t => (t.ws 1 0x8000000000000000#64).ws 2 0xFFFFFFFFFFFFFFFF#64))) =
      [.sreg 3 0#64] := by decide

/-- 04 R100. -/
theorem test_unary :
    does (.clz 0 0 3 1) = [.sreg 3 61#64] ∧ does (.clz 0 0 3 0) = [.sreg 3 64#64] ∧ does (.ctz 0 0 3 7) = [.sreg 3 6#64] ∧
    does (.ctz 0 0 3 0) = [.sreg 3 64#64] ∧ does (.popc 0 0 3 2) = [.sreg 3 62#64] ∧
    does (.sextB 0 0 3 9) = [.sreg 3 0xFFFFFFFFFFFFFF87#64] ∧ does (.sextH 0 0 3 9) = [.sreg 3 0xFFFFFFFFFFFF8687#64] ∧
    does (.sextW 0 0 3 9) = [.sreg 3 0xFFFFFFFF84858687#64] ∧ does (.zextB 0 0 3 9) = [.sreg 3 0x87#64] ∧
    does (.zextH 0 0 3 9) = [.sreg 3 0x8687#64] ∧ does (.zextW 0 0 3 9) = [.sreg 3 0x84858687#64] := by decide

/-- 04 R101-R103: signed and unsigned relations, the example of R101, `sel`, and predicate logic with p1 true, p2 false. -/
theorem test_compare_predicate :
    does (.cmp 0 0 3 2 1 2) = [.preg 3 true] ∧ does (.cmp 0 0 3 2 1 6) = [.preg 3 false] ∧
    does (.cmpi 0 0 6 1 4 0x1FF) = [.preg 1 true] ∧ does (.cmpi 0 0 9 1 4 0x1FF) = [.preg 1 false] ∧
    does (.sel 0 0 3 1 2 1) = [.sreg 3 5#64] ∧ does (.sel 0 0 3 1 2 2) = [.sreg 3 0xFFFFFFFFFFFFFFF9#64] ∧
    does (.pand 0 0 3 1 2) = [.preg 3 false] ∧ does (.por 0 0 3 1 2) = [.preg 3 true] ∧
    does (.pxor 0 0 3 1 1) = [.preg 3 false] ∧ does (.pnot 0 0 4 0) = [.preg 4 false] ∧
    does (.pmov 0 0 4 0) = [.preg 4 true] := by decide

/-- 04 R104-R107: 1 + 2, 1 - 2, 1 × 2, 1 × 2 + 2, and conversions. -/
theorem test_scalar_floating :
    does (.fadd 0 0 3 4 5) = [.sreg 3 0x40400000#64] ∧ does (.fsub 0 0 3 4 5) = [.sreg 3 0xBF800000#64] ∧
    does (.fmul 0 0 3 4 5) = [.sreg 3 0x40000000#64] ∧ does (.fma 0 0 5 4 5) = [.sreg 5 0x40800000#64] ∧
    does (.fcmp 0 0 3 4 5 2) = [.preg 3 true] ∧ does (.fcmp 0 0 3 4 5 6) = [.preg 3 false] ∧
    does (.fcvtF2iS 0 0 3 5) = [.sreg 3 2#64] ∧ does (.fcvtF2iZ 0 0 3 5) = [.sreg 3 2#64] ∧
    does (.fcvtI2fS 0 0 3 2) = [.sreg 3 0xC0E00000#64] ∧ does (.fcvtI2fZ 0 0 3 1) = [.sreg 3 0x40A00000#64] ∧
    does (.fcvtF2h 0 0 3 4) = [.sreg 3 0x3C00#64] ∧ does (.fcvtF2b 0 0 3 4) = [.sreg 3 0x3F80#64] := by decide

/-- 04 R107: 0x3C00 is 1.0 in FP16, 0x3F80 in BF16. -/
theorem test_widening :
    effects (exec (.fcvtH2f 0 0 3 1) (rigWith (fun t => t.ws 1 0x3C00#64))) = [.sreg 3 0x3F800000#64] ∧
    effects (exec (.fcvtB2f 0 0 3 1) (rigWith (fun t => t.ws 1 0x3F80#64))) = [.sreg 3 0x3F800000#64] := by decide

/-- 04 R108, R109: byte 2 of entry 1, the first byte beyond its 1024, and a name without a view. -/
theorem test_element_moves :
    effects (exec (.sGet 0 0 3 1 1 0 0) (rigWith (fun t => t.ws 1 2#64))) = [.sreg 3 0xA0#64] ∧
    effects (exec (.sPut 0 0 4 2 1 1) (rigWith (fun t => t.ws 1 511#64))) =
      [.urs 3070 [some (0xFF#8, 0#8), some (0xFF#8, 0#8)]] ∧
    (causeOf (exec (.sGet 0 0 3 1 1 0 0) (rigWith (fun t => t.ws 1 1024#64)))).1 = 5 ∧
    effects (exec (.sGet 0 0 3 1 1 0 0) (rigWith (fun t => t.ws 1 1024#64))) = [] := by decide

-- The A slots. a1 = 0x10000, a2 = 0x20000, a6 = 0x10001.

/-- 04 R110, R111, R114. -/
theorem test_address :
    effects (exec (.amov 20 1) (rigAt 2)) = [.areg 20 0x10000#64] ∧ effects (exec (.aset 20 1) (rigAt 2)) = [.areg 20 5#64] ∧
    effects (exec (.aget 3 1) (rigAt 3)) = [.sreg 3 0x10000#64] ∧ effects (exec (.aadd 20 1 2) (rigAt 3)) = [.areg 20 0x30000#64] ∧
    effects (exec (.aaddi 20 1 0xFFFF) (rigAt 2)) = [.areg 20 0xFFFF#64] ∧
    effects (exec (.mset 3 1 7) (rigAt 2)) = [.mfld 3 1 64#64] ∧ effects (exec (.acmp 5 3 2 1) (rigAt 2)) = [.preg 3 true] ∧
    effects (exec (.acmp 2 3 2 1) (rigAt 2)) = [.preg 3 false] := by decide

/-- A modifier descriptor. -/
def modifier (step : Int) (len mode base : Nat) : W128 :=
  BitVec.ofInt 32 step ++ BitVec.ofNat 24 len ++ 0#6 ++ BitVec.ofNat 2 mode ++ 0#7 ++ BitVec.ofNat 57 base

/-- 04 R112, R113: 0x10000 - 4; in a window of 8 from 0xFFFC, 4 - 12 wraps to 0; and in bit-reversed order, four places of
16 bytes, place 0 is followed by place 2. -/
theorem test_astep :
    let at0 := fun m => { rigAt 2 with strands := [(0, { worker with mreg := [(0, m)] })] }
    effects (exec (.astep 1 0) (at0 (modifier (-4) 0 0 0))) = [.areg 1 0xFFFC#64] ∧
    effects (exec (.astep 1 0) (at0 (modifier (-12) 8 1 0xFFFC))) = [.areg 1 0xFFFC#64] ∧
    effects (exec (.astep 1 0) (at0 (modifier 16 64 2 0x10000))) = [.areg 1 0x10020#64] ∧
    effects (exec (.astep 1 0) (at0 (modifier 16 48 2 0x10000))) = [] ∧
    effects (exec (.astep 1 0) (at0 (modifier 16 64 3 0x10000))) = [] := by decide

-- The C slot.

/-- 05 R121: from 0, a taken `br` with displacement 3 goes to 96 after two bundles, rotating; `br.a` not taken annuls. -/
theorem test_branches :
    ((ctxOf (exec (.br 1 0 1 3 2) rig)).cout = { redirect := some (96, true), sc := 2 }) ∧
    ((ctxOf (exec (.brA 2 0 0 3 0) rig)).cout = { annul := true }) ∧
    ((ctxOf (exec (.brZ 1 0 0 0xFFFF 0) rig)).cout = { redirect := some (2 ^ 57 - 32, false), annul := true }) ∧
    does (.br 1 0 1 3 2) = [.rotate] := by decide

/-- 05 R122: `call` links 96, `jr` goes to a1, and a6, which is no bundle address, raises 0x05. -/
theorem test_jumps :
    does (.call 0 0 2 0) = [.areg 31 96#64] ∧ (ctxOf (exec (.jr 0 0 1 0) rig)).cout.redirect = some (0x10000, false) ∧
    (ctxOf (exec (.ret 0 0 0) rig)).cout.redirect = some (0, false) ∧ (causeOf (exec (.jr 0 0 6 0) rig)).1 = 5 ∧
    (ctxOf (exec (.jmp 0 0 1 0) rig)).cout.redirect = some (32, false) := by decide

/-- 05 R123-R128, R132. -/
theorem test_outcomes :
    (ctxOf (exec (.doneTask 0 0 0) rig)).cout.after = .done ∧ (ctxOf (exec (.trap 0 0 0x33 0) rig)).cout.after = .trap 8 0x33 ∧
    (ctxOf (exec (.sys 0 0 0x1234 0) rig)).cout.after = .trap 9 0x1234 ∧
    (ctxOf (exec (.brk 0 0 7 0) rig)).cout.after = .trap 10 7 ∧ (ctxOf (exec (.segend 0 0 9 0) rig)).cout.after = .segend 9 ∧
    (ctxOf (exec (.yield 0 0 0) rig)).cout.after = .yield ∧ (causeOf (exec (.rfe 0 0 0) rig)).1 = 5 ∧
    does (.rot 0 0 0) = [.rotate] ∧ (ctxOf (exec (.nop 9) rig)).cout.sc = 9 := by decide

/-- 05 R129, 01 R32: EFR reads 0x18 at task entry, and rounding mode 5 is reserved. -/
theorem test_system_registers :
    does (.mfsr 0 0 3 1 0) = [.sreg 3 0x18#64] ∧ does (.mtsr 0 0 7 0 0) = [.sys 0 64#64] ∧
    (causeOf (exec (.mtsr 0 0 1 1 0) rig)).1 = 5 ∧ does (.mtsr 0 0 7 1 0) = [.efr 64#64] := by decide

/-- 08 R189, R194: an acquire of package scope brings the step view to GSTEP, and drops the lines of the data cache. -/
theorem test_fence :
    let t := match exec (.fence 0 0 0 4 0) { rig with regs := SMap.set 0#64 rig.regs 0x36000 77#64 } with
      | .next t => t
      | _ => rig
    t.me.svr = 77#64 ∧ (t.core 0).dc = [] ∧ t.me.ctx.done = 1 := by decide

/-- 08 R195, 05 R131: `drain` and `isync` commit when nothing is outstanding. -/
theorem test_drain :
    (ctxOf (exec (.drain 0 0 5 0) rig)).done = 1 ∧ (ctxOf (exec (.isync 0 0 0) rig)).done = 1 := by decide

-- The V slot.

/-- The lanes that the one effect of an operation writes: lane, the four bytes as a word. -/
def lanesOf (es : List Eff) (i : Nat) : Option Nat :=
  match es with
  | [.urs _ ws] =>
    let q := (ws.drop (4 * i)).take 4
    if q.all (fun w => match w with | some (m, _) => m == 0xFF#8 | none => false) then
      some (leNat (q.map (fun w => match w with | some (_, v) => v | none => 0#8)))
    else none
  | _ => none

/-- Bytes at an address. -/
def cells (a : Nat) (bs : List Byte) : List (Nat × Byte) := bs.zipIdx.map (fun e => (a + e.2, e.1))

/-- The package with these bytes of the URS. -/
def withUrs (u : List (Nat × Byte)) : State := rigWith (fun t => { t with urs := u })

/-- The package with two words in lane 0 of the entries at 0 and 1024. -/
def twoWords (a b : Nat) : State := withUrs (cells 0 (leBytes 4 a) ++ cells 1024 (leBytes 4 b))

/-- Lane 0 of an operation on 1.0 and 2.0. -/
def lane0 (i : Instr) : Option Nat := lanesOf (effects (exec i (twoWords 0x3F800000 0x40000000))) 0

/-- Lane 0 of an operation on -3 and 33. -/
def intLane (i : Instr) : Option Nat := lanesOf (effects (exec i (twoWords 0xFFFFFFFD 33))) 0

/-- 07 R153, R154: 1 + 2, 1 - 2, 1 × 2, 1 × 2 + 0, and so on. -/
theorem test_vector_floating :
    lane0 (.vaddF 1 0 3 0 0 1 1) = some 0x40400000 ∧ lane0 (.vsubF 1 0 3 0 0 1 1) = some 0xBF800000 ∧
    lane0 (.vmulF 1 0 3 0 0 1 1) = some 0x40000000 ∧ lane0 (.vfmaF 1 0 3 0 0 1 1) = some 0x40000000 ∧
    lane0 (.vminF 1 0 3 0 0 1 1) = some 0x3F800000 ∧ lane0 (.vmaxF 1 0 3 0 0 1 1) = some 0x40000000 ∧
    lane0 (.vabsF 1 0 3 0 0) = some 0x3F800000 ∧ lane0 (.vnegF 1 0 3 0 0) = some 0xBF800000 := by decide

/-- 07 R155: 1/2, 1/√1, 2^1, log2 2. -/
theorem test_vector_functions :
    lane0 (.vrcp 1 0 3 1 0) = some 0x3F000000 ∧ lane0 (.vrsq 1 0 3 0 0) = some 0x3F800000 ∧
    lane0 (.vexp2 1 0 3 0 0) = some 0x40000000 ∧ lane0 (.vlog2 1 0 3 1 0) = some 0x3F800000 := by decide +kernel

/-- 07 R156: the shift count is 33 mod 32. -/
theorem test_vector_integer :
    intLane (.vaddI 1 0 3 0 0 1 1) = some 30 ∧ intLane (.vsubI 1 0 3 0 0 1 1) = some 0xFFFFFFDC ∧
    intLane (.vmulI 1 0 3 0 0 1 1) = some 0xFFFFFF9D ∧ intLane (.vminI 1 0 3 0 0 1 1) = some 0xFFFFFFFD ∧
    intLane (.vmaxI 1 0 3 0 0 1 1) = some 33 ∧ intLane (.vand 1 0 3 0 0 1 1) = some 0x21 ∧
    intLane (.vor 1 0 3 0 0 1 1) = some 0xFFFFFFFD ∧ intLane (.vxor 1 0 3 0 0 1 1) = some 0xFFFFFFDC ∧
    intLane (.vshl 1 0 3 0 0 1 1) = some 0xFFFFFFFA ∧ intLane (.vshrS 1 0 3 0 0 1 1) = some 0xFFFFFFFE ∧
    intLane (.vshrZ 1 0 3 0 0 1 1) = some 0x7FFFFFFE := by decide

/-- 07 R157: 1 < 2 in lane 0, and no lane beyond the mask's four is active. -/
theorem test_vector_compare :
    (match effects (exec (.vcmpF 1 0 2 3 0 0 1 1) (twoWords 0x3F800000 0x40000000)) with
      | [.qreg 3 act v] => act.toNat == 15 && v.getLsbD 0 | _ => false) = true ∧
    (match effects (exec (.vcmpI 1 0 4 3 0 0 1 1) (twoWords 0xFFFFFFFD 33)) with
      | [.qreg 3 _ v] => !v.getLsbD 0 | _ => false) = true := by decide +kernel

/-- 07 R158, R164, R168: lane 0 of the mask selects A and lane 4 selects B; a broadcast of 5; the seed of lane 0. -/
theorem test_vector_moves :
    lane0 (.vsel 1 0 3 0 0 1 1) = some 0x3F800000 ∧
    lanesOf (effects (exec (.vsel 1 0 3 0 0 1 1) (twoWords 7 8))) 4 = some 0 ∧
    lane0 (.vbcast 1 0 3 1) = some 5 ∧ lane0 (.vmov 1 0 3 1 0) = some 0x40000000 ∧
    lane0 (.vperm 1 0 3 1 0 0 1) = some 0x40000000 ∧ lane0 (.vseedGet 1 0 3) = some 0x9E3779B9 ∧
    (match effects (exec (.vseedSet 1 0 1 0) (twoWords 7 8)) with | [.seeds l] => decide (l = [(0, 8#32), (1, 0#32), (2, 0#32), (3, 0#32)]) | _ => false) = true := by
  decide

/-- 07 R163: 1 + three zeros, and 1 × 2. -/
theorem test_reductions :
    lane0 (.vsum 1 0 3 0 0) = some 0x3F800000 ∧ lane0 (.vdot 1 0 3 0 0 1 1) = some 0x40000000 := by decide

/-- 07 R159: 2.0 as an 8-bit integer; n30 has that format. -/
theorem test_convert :
    (match effects (exec (.vcvt 1 0 30 1 0) (twoWords 0x3F800000 0x40000000)) with
      | [.urs 0 (some (0xFF#8, 2#8) :: _)] => true | _ => false) = true := by decide +kernel

/-- The worked block of 07 R161: 1000.0, 3.0 and -0.5 packed in FP8 E4M3, and read back as 1024.0, 3.0 and -0.5. -/
theorem test_blocks :
    let src := cells 0 ([0x447A0000, 0x40400000, 0xBF000000].flatMap (leBytes 4))
    let blk := cells 1024 ([0x31, 0x81, 0, 0, 0x78, 0x34, 0xA0].map (BitVec.ofNat 8))
    let fp8 := fun (s : State) => { s with strands := [(0, { s.me with vd := SMap.set 0#64 s.me.vd 5 (view 0x31 0 34 32 0) })] }
    (match effects (exec (.vpack 0 0 34 0 0) (fp8 (withUrs src))) with
      | [.urs 2048 ws] => decide (ws.length = 320 ∧ ws.take 8 =
          [0x31, 0x81, 0, 0, 0x78, 0x34, 0xA0, 0].map (fun b => some (0xFF#8, BitVec.ofNat 8 b)))
      | _ => false) = true ∧
    let es := effects (exec (.vunpack 0 0 0 33 0) (fp8 (withUrs blk)))
    (match es with
      | [.urs 0 ws] => decide ((ws.take 12).map (fun w => match w with | some (_, v) => v.toNat | none => 0) =
          [0, 0, 0x80, 0x44, 0, 0, 0x40, 0x40, 0, 0, 0, 0xBF])
      | _ => false) = true := by decide +kernel

-- The L slot. a3 is the own vault, a1 a cached page, a2 a memory-side page, a4 a stamped tensor, a5 a dense one.

/-- The package with bytes of memory. -/
def withMem (k : Nat) (bs : List Byte) : State := { rig with mem := cells k bs }

/-- The one pending destination after an operation: its kind and its value. -/
def loaded (o : Host.Outcome State Fault Refusal) : Option (PendKind × Option (List Byte)) :=
  match o with
  | .next t => (t.strand 0).pends.head?.map (fun p => (p.kind, p.val))
  | _ => none

/-- 08 R178: a load of the own vault is fixed at once; one of linear memory waits. -/
theorem test_scalar_load :
    loaded (exec (.ldHS 0 0 3 3 0 0 1) (withMem (2 ^ 40 + 2) [0x34#8, 0x92#8])) =
      some (.scalar 3 2 true, some [0x34#8, 0x92#8]) ∧
    loaded (exec (.ldD 0 0 3 2 0 0 0) rig) = some (.scalar 3 8 false, none) ∧
    loaded (exec (.ldBZ 0 0 3 3 0 0 2) (withMem (2 ^ 40 + 2) [0x34#8])) = some (.scalar 3 1 false, some [0x34#8]) := by
  decide +kernel

/-- 08 R176: a6 is odd; a9 has no translation; an address in the own vault beyond its region is undeclared. -/
theorem test_access_faults :
    causeOf (exec (.ldD 0 0 3 6 0 0 0) rig) = (0x07, 0, 0x10001) ∧ causeOf (exec (.stD 0 0 3 9 0 0 0) rig) = (0x06, 1, 0x30000) ∧
    causeOf (exec (.ldD 0 0 3 3 0 0 0) (rigWith (fun t => t.wa 3 (BitVec.ofNat 64 (own + 0x10000))))) =
      (0x20, 0, own + 0x10000) := by decide +kernel

/-- 08 R178, R179: what a store and a block store hold. -/
theorem test_stores :
    does (.stH 0 0 9 3 0 0 1) = [.mem ⟨[⟨own + 2, 2 ^ 40 + 2, 2, .own⟩], [0x87#8, 0x86#8], none⟩] ∧
    does (.stBlk 0 0 24 2 0 0 0 1) = [.mem ⟨[⟨0x20040, 0x20040, 64, .ms⟩], List.replicate 64 0#8, none⟩] ∧
    (loaded (exec (.ldBlk 0 0 24 2 0 0 0) rig)).map Prod.fst = some (.urs 61440 (List.replicate 64 (some 0xFF#8))) := by
  decide +kernel

/-- 08 R180, R181: `pf` of an unmapped address does nothing; `atom` holds its operands. -/
theorem test_atomic :
    (ctxOf (exec (.pf 0 0 9 0 0 0) rig)).done = 16 ∧
    does (.atom 0 0 3 2 1 0 0) = [.mem ⟨[⟨0x20000, 0x20000, 4, .ms⟩], [], some ⟨0, 4, 5, 0, some 0⟩⟩] := by decide +kernel

/-- Keys and lengths of the pieces of the pending destinations after an operation. -/
def reads (o : Host.Outcome State Fault Refusal) : List (List (Nat × Nat)) :=
  match o with | .next t => (t.strand 0).pends.map (fun p => p.pcs.map (fun z => (z.key, z.len))) | _ => []

/-- 17 R355-R357: the block at flat row 1 of the stamped tensor, and a row of the dense one. -/
theorem test_freewheel_access :
    reads (exec (.ldFw 0 0 24 4 0 0 1) rig) = [[(0x1000040, 64)]] ∧
    reads (exec (.ldRow 0 0 24 5 0 0 0) rig) = [[(0x2000000, 60)]] := by decide +kernel

/-- 07 R165: `vld` of the own vault. -/
theorem test_vld : (loaded (exec (.vld 1 0 3 3 0 0) rig)).map (fun p => p.2.map List.length) = some (some 1024) := by
  decide +kernel

-- The E slot.

/-- 09 R198-R202: s1 = 5 is a reserved rounding mode; a6 is no word address. -/
theorem test_configuration :
    (causeOf (exec (.efrSet 1) rig)).1 = 5 ∧ does (.efrSet 7) = [.efr 64#64] ∧ does (.vdSet 7 3) = [.vd 3 64#64] ∧
    does (.rotSet 0 2 7) = [.rotSet 0 2 7] ∧ (causeOf (exec (.rotSet 0 2 8) rig)).1 = 5 ∧ does (.mlpSet 1) = [.mlp 0x10000#64] ∧
    (causeOf (exec (.mlpSet 6) rig)).1 = 5 := by decide +kernel

/-- The core's queues after a step. -/
def coreOne (o : Host.Outcome State Fault Refusal) : Core := match o with | .next t => t.core 0 | _ => {}

/-- 09 R203-R209: a tensor to the URS, 1024 bytes; a linear copy of s7 = 64 bytes; a delayed one waits in the landing queue. -/
theorem test_copies :
    (coreOne (exec (.cp 0 3 7 8 8) rig)).copies.map (fun c => (c.op, c.len, c.dst, c.src)) =
      [(0, 1024, .urs 0, .tens 9 0 0)] ∧
    (coreOne (exec (.cp 0 0 7 1 7) rig)).copies.map CopyCmd.len = [64] ∧
    ((ctxOf (exec (.cp 5 0 7 1 7) rig)).lq.map Landing.rem) = [5] ∧
    (causeOf (exec (.cp 0 0 11 1 7) rig)) = (0x07, 3, 0x3F) := by decide +kernel

/-- 16 R336-R340, 17 R352: queued at the core's near-memory queue. -/
theorem test_near_memory :
    (coreOne (exec (.nmRed 0 0 0 2 0 1) rig)).nmq.map (fun c => (c.op, c.pcs.map Piece.key, c.data.length)) =
      [(2, [0x20000], 1024)] ∧
    (coreOne (exec (.nmRadd 0 0 0 5 0 0 0) rig)).nmq.map (fun c => (c.op, c.pcs.map Piece.key, c.data.length)) =
      [(0, [0x2000000], 60)] ∧
    (coreOne (exec (.nmSweepReg 0 4 0) rig)).nmq.map NmCmd.op = [4] := by decide +kernel

/-- 13 R277-R280: a10 = 0x10200 is a record slot, a6 is not. -/
theorem test_tasks :
    (coreOne (exec (.tspawn 0 3 10) rig)).nmq.map NmCmd.op = [6] ∧ (causeOf (exec (.tspawn 0 3 6) rig)) = (0x07, 3, 0x10001) ∧
    (match exec (.tjoin 0 10) rig with | .next t => (t.strand 0).joins | _ => []) = [(0x10200, 0x10200)] := by decide +kernel

-- The X slot. The literal word at 0x10000 is zero: no guard, no options.

/-- 03 R89-R91, 10 R219, R226: the pointer moves by four; `mmul` leaves a landing-queue entry of its latency. -/
theorem test_matrix :
    (match exec (.mmul 20 16 17 0) rig with | .next t => (t.strand 0).mlp | _ => 0#64) = 0x10004#64 ∧
    (coreOne (exec (.mmul 20 16 17 0) rig)).mq.map XCmd.op = [1] ∧
    (ctxOf (exec (.mmul 20 16 17 0) rig)).lq.map Landing.rem = [80] ∧ does (.mwld 16 0) = [.wref 8192 0x10] ∧
    (ctxOf (exec (.mzero 20 0) rig)).lq.map Landing.rem = [4] := by decide +kernel

-- For every statement about slot operations: states and operands that meet its hypotheses together, clause by clause.

/-- Slot `k` of the package is ready, whatever the operands. -/
theorem rig_ready (k n : Nat) (h : n ≤ 63) (a b : List Dst) : Ready rig k a b n := ready_of_calm rig_calm h a b

/-- So is the package with slot `k` in issue. -/
theorem rigAt_ready (k n : Nat) (h : n ≤ 63) (a b : List Dst) : Ready (rigAt k) k a b n :=
  ready_of_calm (show calm (rigAt k).me = true from rig_calm) h a b

/-- Guards that hold: p0, p1 and, negated, p2. -/
theorem rig_guards : rig.me.guard 0 0 = true ∧ rig.me.guard 1 0 = true ∧ rig.me.guard 2 1 = true := by decide

theorem hyp_ScalarInteger : rig.me.guard 2 1 = true ∧ Ready rig 1 ([1#6, 2#6].map (fun r => .s r.toNat)) [.s 3] 0 ∧
    Ready rig 1 ([1#6].map (fun r => .s r.toNat)) [.s 0] 0 ∧ (14 ≤ (14#4).toNat ∧ 14 ≤ (15#4).toNat) :=
  ⟨rig_guards.2.2, rig_ready 1 0 (by decide) _ _, rig_ready 1 0 (by decide) _ _, by decide⟩

theorem hyp_ScalarMultiplyUnary : rig.me.guard 1 0 = true ∧ Ready rig 1 ([1#6, 2#6].map (fun r => .s r.toNat)) [.s 3] 1 ∧
    Ready rig 1 ([1#6].map (fun r => .s r.toNat)) [.s 3] 0 ∧ 7 ≤ (7#4).toNat ∧ 9 ≤ (9#4).toNat ∧ 1#6 ≠ 0#6 :=
  ⟨rig_guards.2.1, rig_ready 1 1 (by decide) _ _, rig_ready 1 0 (by decide) _ _, by decide⟩

theorem hyp_CompareAndPredicates : rig.me.guard 1 0 = true ∧ Ready rig 1 [.s 1, .s 2] [.p 3] 0 ∧ Ready rig 1 [.p 1, .p 2] [.p 3] 0 ∧
    Ready rig 1 [.s 1, .s 2] [.s 3] 0 ∧ (9#4).toNat < 10 ∧ 10 ≤ (10#4).toNat ∧ 5 ≤ (5#4).toNat ∧
    (3 ≤ (3#4).toNat ∧ 1#3 ≠ 0#3) :=
  ⟨rig_guards.2.1, rig_ready 1 0 (by decide) _ _, rig_ready 1 0 (by decide) _ _, rig_ready 1 0 (by decide) _ _, by decide⟩

theorem hyp_ScalarFloating : rig.me.guard 1 0 = true ∧ Ready rig 1 ([4#6, 5#6, 3#6].map (fun r => .s r.toNat)) [.s 3] 1 ∧
    Ready rig 1 [.s 4, .s 5] [.p 3] 0 ∧ (6#4).toNat < 7 :=
  ⟨rig_guards.2.1, rig_ready 1 1 (by decide) _ _, rig_ready 1 0 (by decide) _ _, by decide⟩

/-- Entry 1 resolves and name 40 does not; the last element of two bytes is inside, the next is not. -/
theorem hyp_ElementMoves :
    let s := rigWith (fun t => (t.ws 1 511#64).ws 2 512#64)
    s.me.guard 1 0 = true ∧ resolve s.me 40 = none ∧
    ∃ r, resolve s.me 1 = some r ∧
    (s.me.rs 1).toNat * 2 ^ 1 + 2 ^ 1 ≤ min r.pitch 1024 ∧ ¬(s.me.rs 2).toNat * 2 ^ 1 + 2 ^ 1 ≤ min r.pitch 1024 ∧
    Ready s 1 [.s 1, .urs (r.addr + 1022) 2] [.s 3] 0 ∧ Ready s 1 [.s 3, .s 1] [.urs (r.addr + 1022) 2] 0 ∧
    Ready s 1 [.s 1] [.s 3] 0 ∧ Ready s 1 [.s 3, .s 1] [] 0 :=
  have c : calm (rigWith (fun t => (t.ws 1 511#64).ws 2 512#64)).me = true := by decide
  ⟨by decide, by rfl, ⟨0, 1, 1024, 1024, worker.rvd 0⟩, by rfl, by decide, by decide, ready_of_calm c (by decide) _ _,
    ready_of_calm c (by decide) _ _, ready_of_calm c (by decide) _ _, ready_of_calm c (by decide) _ _⟩

/-- Every mode of a descriptor, at the values where the clauses meet: LEN 0 and 8 in mode 1; 64 by 16, 64 by 64, 48 by 16, 64 by 48
and 16 by 64 in mode 2; and mode 3. -/
theorem hyp_AddressUnits :
    (Ready (rigAt 2) 2 [.a 1] [.a 1] 0 ∧ Ready (rigAt 3) 3 [.a 1] [.a 1] 0 ∧ (rigAt 2).cur.slot = 2 ∧ (rigAt 3).cur.slot = 3) ∧
    (5#3).toNat < 6 ∧ 6 ≤ (6#3).toNat ∧
    let fields := fun (d : W128) => ((d.extractLsb' 64 2).toNat, (d.extractLsb' 72 24).toNat, (d.extractLsb' 96 32).toInt,
      (d.extractLsb' 0 57).toNat)
    fields (modifier (-4) 0 0 0) = (0, 0, -4, 0) ∧ fields (modifier (-12) 8 1 0xFFFC) = (1, 8, -12, 0xFFFC) ∧
    fields (modifier 4 0 1 0) = (1, 0, 4, 0) ∧ fields (modifier 16 64 2 0x10000) = (2, 2 ^ 6, 2 ^ 4, 0x10000) ∧
    fields (modifier 64 64 2 0) = (2, 2 ^ 6, 2 ^ 6, 0) ∧ fields (modifier 64 16 2 0) = (2, 16, 64, 0) ∧
    fields (modifier 16 48 2 0) = (2, 48, 16, 0) ∧ fields (modifier 16 64 3 0) = (3, 64, 16, 0) :=
  ⟨⟨rigAt_ready 2 0 (by decide) _ _, rigAt_ready 3 0 (by decide) _ _, by decide⟩, by decide⟩

theorem hyp_Branches : rig.me.guard 1 0 = true ∧ (!rig.me.guard 2 0) = true ∧ Ready rig 0 [] [] 0 :=
  ⟨by decide, by decide, rig_ready 0 0 (by decide) _ _⟩

/-- a1 is a bundle address, a6 is not, and neither is 2^57. -/
theorem hyp_Jumps :
    rig.me.guard 1 0 = true ∧ Ready rig 0 [.a 1] [] 0 ∧ Ready rig 0 [] [.a 31] 0 ∧
    ((rig.me.ra 1).toNat % 32 = 0 ∧ (rig.me.ra 1).toNat < 2 ^ 57) ∧ ¬((rig.me.ra 6).toNat % 32 = 0 ∧ (rig.me.ra 6).toNat < 2 ^ 57) :=
  ⟨by decide, rig_ready 0 0 (by decide) _ _, rig_ready 0 0 (by decide) _ _, by decide, by decide⟩

/-- Inside a handler and outside; with breakpoint stops armed and not. -/
theorem hyp_BundleOutcomes :
    let h := rigWith (fun t => { t with hmode := true })
    let b : State := { rig with regs := SMap.set 0#64 rig.regs 0x60000 0x100#64 }
    rig.me.guard 1 0 = true ∧ rig.me.hmode = false ∧ (rig.reg 0 0x60000).testBit 8 = false ∧ Ready rig 0 [] [] 0 ∧
    h.me.guard 1 0 = true ∧ h.me.hmode = true ∧ Ready h 0 [] [] 0 ∧
    b.me.guard 1 0 = true ∧ (b.reg 0 0x60000).testBit 8 = true ∧ Ready b 0 [] [] 0 :=
  ⟨by decide, by decide, by decide, rig_ready 0 0 (by decide) _ _, by decide, by decide,
    ready_of_calm (by decide) (by decide) _ _, by decide, by decide, ready_of_calm (by decide) (by decide) _ _⟩

/-- A command of the array. -/
def xcmd (op : Nat) (lat : Option Nat) (started : Bool) : XCmd :=
  { id := 4, strand := 0, addr := 0, op := op, par := [24576, 0, 0, 0, 0, 0, 0], data := [], efr := 0, fxd := false, lat := lat,
    dst := [], started := started }

/-- The core. -/
def core0 : Core := { pos := some 0, part := 5, utlb := [page, sidePage] }

/-- The package with commands in the array's queue. -/
def arrayOf (l : List XCmd) : State := { rig with cores := [(0, { core0 with mq := l })] }

/-- The package with a command at the head of the array's queue. -/
def arrayRig (x : XCmd) : State := arrayOf [x]

/-- s1 holds a reserved rounding mode, s7 a legal one; the factor registers free, behind a command in the array, and behind a
result to land. -/
theorem hyp_SystemRegisters :
    (let b := arrayRig (xcmd 8 (some 4) false)
     let h := rigWith (fun t => { t with ctx := { lq := [⟨3, 0, 6, .result 4 []⟩] } })
     (6 ≤ (15#8).toNat ∧ (15#8).toNat ≤ 15) ∧ b.me.guard 1 0 = true ∧ b.inArray b.cur.g = true ∧ Ready b 0 [.sr 6] [.s 3] 0 ∧
     Ready b 0 [.s 1] [.sr 6] 0 ∧ h.me.guard 1 0 = true ∧ h.inArray h.cur.g = false ∧ h.me.resultDue = true ∧
     Ready h 0 [.sr 6] [.s 3] 0 ∧ Ready h 0 [.s 1] [.sr 6] 0) ∧ rig.me.guard 1 0 = true ∧ rig.inArray rig.cur.g = false ∧ rig.me.resultDue = false ∧
    5 ≤ (rig.me.rs 1).toNat % 8 ∧ ¬5 ≤ (rig.me.rs 7).toNat % 8 ∧ Ready rig 0 [.sr 6] [.s 3] 0 ∧ Ready rig 0 [.s 1] [.efr] 0 ∧
    Ready rig 0 [.s 1] [.sr 6] 0 :=
  have b : calm (arrayRig (xcmd 8 (some 4) false)).me = true := by decide
  have h : calm (rigWith (fun t => { t with ctx := { lq := [⟨3, 0, 6, .result 4 []⟩] } })).me = true := by decide
  ⟨⟨by decide, by decide, by decide, ready_of_calm b (by decide) _ _, ready_of_calm b (by decide) _ _, by decide, by decide,
    by decide, ready_of_calm h (by decide) _ _, ready_of_calm h (by decide) _ _⟩,
    by decide, by decide, by decide, by decide, by decide, rig_ready 0 0 (by decide) _ _, rig_ready 0 0 (by decide) _ _,
    rig_ready 0 0 (by decide) _ _⟩

/-- The package with registers written, keyed die × 2^20 + offset. -/
def withRegs (l : List (Nat × Nat)) (s : State) : State :=
  { s with regs := l.foldl (fun m e => SMap.set 0#64 m e.1 (BitVec.ofNat 64 e.2)) s.regs }

/-- A page of a peer's memory. -/
def farPage : Tlb := ⟨5, 0x50000, 0x10000, 4 * 2 ^ 80, 7, false, 2, 0⟩

/-- The package with that page and a route to the peer; a literal pointer, and what the strand has asked of peers. -/
def farRig (mlp : Nat) (as : List (Nat × Nat)) : State :=
  { withRegs [(0x98000 + 8 * 3, 0x100), (0x90000, 0x1007), (0x91000, 1), (0x91008, 3)] rig with
    cores := [(0, { core0 with utlb := [page, sidePage, farPage] })],
    strands := [(0, { worker with mlp := BitVec.ofNat 64 mlp, asks := as })] }

/-- An outstanding store of one byte to the peer. -/
def farOut : Out := ⟨4, ⟨[⟨0x50000, 4 * 2 ^ 80, 1, .window⟩], [1#8], none⟩⟩

/-- Every scope, from 0 to 6. -/
theorem hyp_FencesAndDrains : rig.me.guard 1 0 = true ∧ Ready rig 0 [] [] 0 ∧ (0#3).toNat < 7 ∧ (6#3).toNat < 7 ∧
    rig.rowBusy rig.cur.g = false ∧ rig.me.outs = [] ∧ rig.me.pends = [] ∧
    (rig.core (coreOf rig.cur.g)).copies.any (fun x => x.strand == rig.cur.g) = false ∧ rig.me.waiting Cmd.isCopy = false :=
  ⟨by decide, rig_ready 0 0 (by decide) _ _, by decide, by decide, by decide, by decide, by decide, by decide, by decide⟩

/-- A store of the strand, and one of another strand of its core, which system scope orders and narrower scopes do not. -/
theorem hyp_FencesAndDrains2 :
    let own := rigWith (fun t => { t with outs := [farOut] })
    let other : State := { rig with strands := [(0, worker), (1, { worker with outs := [farOut] })] }
    (∀ s ∈ [own, other], calm s.me = true ∧ s.seenOuts 0 = [farOut] ∧ farOut.openAt 5 = true ∧
      ∀ e < 5, farOut.openAt e = false) ∧ farOut.op.atom = none := by decide +kernel

/-- Entry `n` of the lane view. -/
def entry (n : Nat) : Res := ⟨0, n, 1024 * n, 1024, worker.rvd 0⟩

/-- What a check lets pass. -/
def passed {ε α : Type} : Except ε α → Option α
  | .ok x => some x
  | .error _ => none

theorem ok_of {ε α : Type} {e : Except ε α} {x : α} (h : passed e = some x) : e = .ok x := by
  cases e with
  | ok y => exact congrArg _ (Option.some.inj h)
  | error _ => nomatch h

theorem ok_entry0 : vecOperand rig.me 0 = .ok (entry 0) := ok_of (by decide +kernel)
theorem ok_entry1 : vecOperand rig.me 1 = .ok (entry 1) := ok_of (by decide +kernel)
theorem ok_entry3 : vecOperand rig.me 3 = .ok (entry 3) := ok_of (by decide +kernel)
theorem ok_entry7 : vecOperand rig.me 7 = .ok (entry 7) := ok_of (by decide +kernel)

theorem hyp_VectorFloating : rig.me.guard 1 0 = true ∧ vecOperand rig.me 3 = .ok (entry 3) ∧
    [0#6, 7#6, 3#6].map (fun r => vecOperand rig.me r.toNat) = [entry 0, entry 7, entry 3].map .ok ∧
    Ready rig 5 (.q 1 :: [entry 0, entry 7, entry 3].map (fun r => .urs r.addr 1024)) [.urs (entry 3).addr 1024] 1 :=
  ⟨by decide, ok_entry3, by simp [ok_entry0, ok_entry7, ok_entry3], rig_ready 5 1 (by decide) _ _⟩

theorem hyp_VectorInteger : rig.me.guard 2 1 = true ∧ vecOperand rig.me 3 = .ok (entry 3) ∧
    [0#6, 1#6].map (fun r => vecOperand rig.me r.toNat) = [entry 0, entry 1].map .ok ∧
    Ready rig 5 (.q 2 :: [entry 0, entry 1].map (fun r => .urs r.addr 1024)) [.urs (entry 3).addr 1024] 1 :=
  ⟨by decide, ok_entry3, by simp [ok_entry0, ok_entry1], rig_ready 5 1 (by decide) _ _⟩

theorem hyp_VectorCompareSelect : rig.me.guard 1 0 = true ∧ vecOperand rig.me 0 = .ok (entry 0) ∧ vecOperand rig.me 1 = .ok (entry 1) ∧
    vecOperand rig.me 3 = .ok (entry 3) ∧ (6#3).toNat < 7 ∧ (5#3).toNat < 6 ∧ 6 ≤ (6#3).toNat ∧
    Ready rig 5 [.q 1, .urs 0 1024, .urs 1024 1024] [.q 3] 1 ∧ Ready rig 5 [.q 1, .urs 0 1024, .urs 1024 1024] [.urs 3072 1024] 1 :=
  ⟨by decide, ok_entry0, ok_entry1, ok_entry3, by decide, by decide, by decide, rig_ready 5 1 (by decide) _ _, rig_ready 5 1 (by decide) _ _⟩

theorem hyp_VectorMovesReductions : rig.me.guard 1 0 = true ∧ vecOperand rig.me 3 = .ok (entry 3) ∧ vecOperand rig.me 0 = .ok (entry 0) ∧
    vecOperand rig.me 1 = .ok (entry 1) ∧ Ready rig 5 [.q 1, .s 1] [.urs 3072 1024] 1 ∧
    Ready rig 5 [.q 1, .urs 0 1024] [.seeds] 0 ∧ Ready rig 5 [.q 1, .urs 0 1024, .urs 1024 1024] [.urs 3072 4] 1 :=
  ⟨by decide, ok_entry3, ok_entry0, ok_entry1, rig_ready 5 1 (by decide) _ _, rig_ready 5 0 (by decide) _ _, rig_ready 5 1 (by decide) _ _⟩

/-- A dense and a block format in each place. -/
theorem hyp_VectorConversions : rig.me.guard 1 0 = true ∧ vecOperand rig.me 30 = .ok ⟨4, 0, 0, 1024, worker.rvd 4⟩ ∧
    vecOperand rig.me 1 = .ok (entry 1) ∧ vecOperand rig.me 32 = .ok ⟨5, 0, 0, 1024, worker.rvd 5⟩ ∧
    fcDense (vdFmt (worker.rvd 4)) = true ∧ fcDense (vdFmt (worker.rvd 0)) = true ∧ fcBlock (vdFmt (worker.rvd 5)) = true ∧
    fcStamped (vdFmt (worker.rvd 5)) = false ∧ fcBlock (vdFmt (worker.rvd 0)) = false ∧ fcDense (vdFmt (worker.rvd 5)) = false ∧
    Ready rig 5 [.q 1, .urs 1024 1024] [.urs 0 256] 1 ∧ Ready rig 5 [.q 1, .urs 0 960] [.urs 1024 1024] 1 ∧ Ready rig 5 [.q 1] [] 0 :=
  ⟨by decide, ok_of (by decide +kernel), ok_entry1, ok_of (by decide +kernel), by decide, by decide, by decide, by decide, by decide, by decide,
    rig_ready 5 1 (by decide) _ _, rig_ready 5 1 (by decide) _ _, rig_ready 5 0 (by decide) _ _⟩

/-- No access of the strand is under way. -/
theorem rig_clear (ps : List Piece) : rig.me.clearOf ps := ⟨fun _ h => (nomatch h), fun _ h => (nomatch h)⟩

/-- In the vault; outside the aperture; misaligned; outside the regions. The last case is one address beyond. -/
theorem hyp_VectorLoad : rig.me.guard 1 0 = true ∧ vecOperand rig.me 3 = .ok (entry 3) ∧ postMod rig.me 0 3 0 = .ok [] ∧
    rig.cur.cancel = [] ∧ Ready rig 5 [.q 1, .a 3] [.urs 3072 1024] 0 ∧ destDue rig.me [.urs 3072 1024] = false ∧
    vaultAt (cluOf rig.cur.g) own 1024 = some (0, 0) ∧ own % 64 = 0 ∧ undeclared rig.me rig.cur.g own 1024 1 = none ∧
    vaultAt (cluOf rig.cur.g) (own + 1) 1024 = some (0, 1) ∧ (own + 1) % 64 ≠ 0 ∧
    undeclared rig.me rig.cur.g (own + 0xFC40) 1024 1 = some (own + 0x10000) ∧
    vaultAt (cluOf rig.cur.g) (own + 0xFFFC40) 1024 = none ∧ (rig.me.ra 1).toNat < 0x1FFFFFF00000000 ∧
    (0x1FFFFFF00000000 ≤ (rig.me.ra 3).toNat ∧ (rig.me.ra 3).toNat < 2 ^ 57) ∧ rig.me.clearOf [⟨own, vaultKey 0 0, 1024, .own⟩] :=
  ⟨by decide, ok_entry3, by rfl, by decide, rig_ready 5 0 (by decide) _ _, by decide, by decide, by decide, by decide, by decide, by decide,
    by decide, by decide, by decide, by decide, rig_clear _⟩

/-- An earlier write of D, one byte of it, still to land. -/
theorem hyp_VectorLoad2 :
    let s := rigWith (fun t => { t with ctx := { lq := [⟨3, 0, 5, .eff (.urs 3072 [some (0xFF#8, 1#8)])⟩] } })
    calm s.me = true ∧ s.me.guard 1 0 = true ∧ s.cur.cancel = [] ∧ destDue s.me [.urs 3072 1024] = true := by decide

/-- Entry 1 holds an image of stamped FP32 blocks, all malformed; entry 0 has no header. -/
theorem hyp_VectorFreewheel : rig.me.guard 1 0 = true ∧ vecOperand rig.me 1 = .ok (entry 1) ∧ vecOperand rig.me 0 = .ok (entry 0) ∧
    Ready rig 5 [.q 1, .urs 1024 1024] [.urs 0 1024] 1 ∧ imageOk (rig.me.ursRead 1024 1024) = true ∧
    imageOk (rig.me.ursRead 0 1024) = false ∧
    (List.range 15).all (fun j => fwMalformed 0xA0 (((rig.me.ursRead 1024 1024).drop (64 + 64 * j)).take 64)) = true :=
  ⟨by decide, ok_entry1, ok_entry0, rig_ready 5 1 (by decide) _ _, by decide +kernel, by decide +kernel, by decide +kernel⟩

/-- A post-modified address, and one as it stands. -/
theorem ok_postMod : postMod rig.me 0 3 0 = .ok [] ∧ postMod rig.me 1 3 0 = .ok [(1, .areg 3 (BitVec.ofNat 64 own))] :=
  ⟨rfl, by rfl⟩

/-- Eight bytes of the own vault, of a cached and of a memory-side page; the last eight of the page. -/
theorem allowed_own : Allowed rig own 8 3 8 false [⟨own, 2 ^ 40, 8, .own⟩] [] :=
  ⟨ok_of (by decide +kernel), by decide, by decide +kernel⟩
theorem allowed_cached : Allowed rig 0x1FFF8 8 1 8 false [⟨0x1FFF8, 0x1FFF8, 8, .cached⟩] [page] :=
  ⟨ok_of (by decide +kernel), by decide, by decide +kernel⟩
theorem allowed_side : Allowed rig 0x20000 1024 3 1024 false [⟨0x20000, 0x20000, 1024, .ms⟩] [sidePage] :=
  ⟨ok_of (by decide +kernel), by decide, by decide +kernel⟩

theorem hyp_ScalarLoads : rig.me.guard 1 0 = true ∧ postMod rig.me 0 3 0 = .ok [] ∧ rig.cur.cancel = [] ∧
    Allowed rig ((((rig.me.ra 3).toNat + 0 * 8) % 2 ^ 64)) 8 1 8 false [⟨own, 2 ^ 40, 8, .own⟩] [] ∧
    Allowed rig ((((rig.me.ra 1).toNat + 63 * 1) % 2 ^ 64)) 1 1 1 false [⟨0x1003F, 0x1003F, 1, .cached⟩] [page] ∧
    rig.me.clearOf [⟨own, 2 ^ 40, 8, .own⟩] ∧ rig.me.clearOf [⟨0x1003F, 0x1003F, 1, .cached⟩] ∧
    rig.loadBad 0 5 0 ([⟨own, 2 ^ 40, 8, .own⟩].flatMap cutPiece) = none ∧
    rig.loadBad 0 5 0 ([⟨0x1003F, 0x1003F, 1, .cached⟩].flatMap cutPiece) = none ∧ destDue rig.me [.s 3] = false ∧
    Ready rig 4 (addrSrcs 3 0 0) (.s 3 :: addrDsts 3 0) 0 :=
  ⟨by decide, rfl, by decide, ⟨ok_of (by decide +kernel), by decide, by decide +kernel⟩,
    ⟨ok_of (by decide +kernel), by decide, by decide +kernel⟩, rig_clear _, rig_clear _, by decide, by decide, by decide,
    rig_ready 4 0 (by decide) _ _⟩

theorem hyp_ScalarStores : rig.me.guard 1 0 = true ∧ postMod rig.me 1 3 0 = .ok [(1, .areg 3 (BitVec.ofNat 64 own))] ∧
    Allowed rig ((((rig.me.ra 3).toNat + 1 * 4) % 2 ^ 64)) 4 2 4 false [⟨own + 4, 2 ^ 40 + 4, 4, .own⟩] [] ∧
    Ready rig 4 (.s 9 :: addrSrcs 3 1 0) (addrDsts 3 1) 0 :=
  ⟨by decide, ok_postMod.2, ⟨ok_of (by decide +kernel), by decide, by decide +kernel⟩, rig_ready 4 0 (by decide) _ _⟩

theorem hyp_BlockMoves : rig.me.guard 1 0 = true ∧ postMod rig.me 0 2 0 = .ok [] ∧ rig.cur.cancel = [] ∧
    vecOperand rig.me 3 = .ok (entry 3) ∧ blkOperand rig.me 27 = .ok ⟨3, 3, 61632, 64, worker.rvd 3⟩ ∧
    Allowed rig (((rig.me.ra 2).toNat + 0 * 1024) % 2 ^ 64) 1024 1 64 false [⟨0x20000, 0x20000, 1024, .ms⟩] [sidePage] ∧
    Allowed rig (((rig.me.ra 2).toNat + 15 * 64) % 2 ^ 64) 64 2 64 false [⟨0x203C0, 0x203C0, 64, .ms⟩] [sidePage] ∧
    rig.me.clearOf [⟨0x20000, 0x20000, 1024, .ms⟩] ∧
    rig.loadBad 0 5 0 ([⟨0x20000, 0x20000, 1024, .ms⟩].flatMap cutPiece) = none ∧ destDue rig.me [.urs 3072 1024] = false ∧
    Ready rig 4 (addrSrcs 2 0 0) (.urs 3072 1024 :: addrDsts 2 0) 0 ∧ Ready rig 4 (.urs 61632 64 :: addrSrcs 2 0 0) (addrDsts 2 0) 0 :=
  ⟨by decide, rfl, by decide, ok_entry3, ok_of (by decide +kernel), ⟨ok_of (by decide +kernel), by decide, by decide +kernel⟩,
    ⟨ok_of (by decide +kernel), by decide, by decide +kernel⟩, rig_clear _, by decide, by decide, rig_ready 4 0 (by decide) _ _,
    rig_ready 4 0 (by decide) _ _⟩

theorem hyp_PrefetchAndAtomic : rig.me.guard 1 0 = true ∧ rig.cur.cancel = [] ∧ postMod rig.me 0 1 0 = .ok [] ∧
    Ready rig 4 (addrSrcs 1 0 0) (addrDsts 1 0) 0 ∧
    Allowed rig (((rig.me.ra 1).toNat + 1 * 64) % 2 ^ 64) 1 1 1 false [⟨0x10040, 0x10040, 1, .cached⟩] [page] ∧
    ((rig.core 0).dc.filter (fun l => dcSet l.va == dcSet 0x10040)).length < 4 ∧ rig.pieceBad 0 5 ⟨0x10040, 0x10040, 1, .cached⟩ = none ∧
    Allowed rig (rig.me.ra 2).toNat 8 3 8 true [⟨0x20000, 0x20000, 8, .ms⟩] [sidePage] ∧ destDue rig.me [.s 3] = false ∧
    Ready rig 4 [.s 1, .s 3, .a 2] [.s 3] 0 ∧ Ready rig 4 [.s 1, .s 0, .a 2] [.s 0] 0 :=
  ⟨by decide, by decide, rfl, rig_ready 4 0 (by decide) _ _, ⟨ok_of (by decide +kernel), by decide, by decide +kernel⟩,
    by decide, by decide, ⟨ok_of (by decide +kernel), by decide, by decide +kernel⟩, by decide, rig_ready 4 0 (by decide) _ _,
    rig_ready 4 0 (by decide) _ _⟩

/-- What a check stops. -/
def failed {ε α : Type} : Except ε α → Option ε
  | .ok _ => none
  | .error e => some e

theorem error_of {ε α : Type} {e : Except ε α} {x : ε} (h : failed e = some x) : e = .error x := by
  cases e with
  | error y => exact congrArg _ (Option.some.inj h)
  | ok _ => nomatch h

/-- The package with the translation tables of partition 5, which stand in HBM, where every check is wrong. -/
def badTables : State := { rig with bad := [(0, 2 ^ 39)] }

/-- No translation, with sound tables and with bad ones; misaligned by one; the first address beyond the regions. -/
theorem hyp_AccessFaults : rig.me.guard 1 0 = true ∧ destDue rig.me [.s 3] = false ∧ Ready rig 4 [.a 1] [.s 3] 0 ∧
    Ready rig 4 [.s 3, .a 1] [] 0 ∧ rig.pieces rig.cur.g 0x30000 8 1 false = .error 0x30000 ∧ rig.xlateBad 0 5 0x30000 = false ∧
    badTables.pieces badTables.cur.g 0x30000 8 1 false = .error 0x30000 ∧ badTables.xlateBad 0 5 0x30000 = true ∧
    (∃ q, rig.pieces rig.cur.g 0x10001 8 1 false = .ok q ∧ 0x10001 % 8 ≠ 0) ∧
    (∃ q, rig.pieces rig.cur.g (own + 0x10000) 8 1 false = .ok q ∧ (own + 0x10000) % 8 = 0 ∧
      undeclared rig.me rig.cur.g (own + 0x10000) 8 1 = some (own + 0x10000)) :=
  ⟨by decide, by decide, rig_ready 4 0 (by decide) _ _, rig_ready 4 0 (by decide) _ _, error_of (by decide +kernel), by decide,
    error_of (by decide +kernel), by decide,
    ⟨([⟨0x10001, 0x10001, 8, .cached⟩], [page]), ok_of (by decide +kernel), by decide⟩,
    ⟨([⟨own + 0x10000, 2 ^ 40 + 0x10000, 8, .own⟩], []), ok_of (by decide +kernel), by decide, by decide +kernel⟩⟩

/-- A region that grants what no table maps. -/
def grantBad : State := { badTables with strands := [(0, { worker with regions := [{ kind := 1, acc := 3, base := 0x30000, len := 8 }] })] }

theorem hyp_AccessFaults2 :
    (badTables.pieces 0 0x30001 8 1 false = .error 0x30001 ∧ badTables.xlateBad 0 5 0x30001 = true ∧ 0x30001 % 8 ≠ 0) ∧
    undeclared badTables.me 0 0x30000 8 1 = some 0x30000 ∧
    (grantBad.pieces 0 0x30000 8 1 false = .error 0x30000 ∧ grantBad.xlateBad 0 5 0x30000 = true ∧
      undeclared grantBad.me 0 0x30000 8 1 = none ∧ calm grantBad.me = true) ∧
    rig.pieces 0 (2 ^ 57) 8 1 false = .error 0 ∧
    rig.loadHeld 0 [⟨0x10001, 0x10001, 8, .cached⟩] = false ∧ rig.loadHeld 0 [⟨own + 0x10000, 2 ^ 40 + 0x10000, 8, .own⟩] = false :=
  ⟨⟨error_of (by decide +kernel), by decide, by decide⟩, by decide +kernel,
    ⟨error_of (by decide +kernel), by decide, by decide +kernel, by decide⟩, error_of (by decide +kernel), by decide, by decide⟩

/-- An access that runs from a page whose tables carry an error into one that grants nothing. -/
theorem hyp_AccessFaults3 :
    let s : State := { badTables with cores := [(0, { core0 with utlb := [⟨5, 0x30000, 0x10000, 0x30000, 0, false, 0, 0⟩] })] }
    calm s.me = true ∧ s.pieces 0 0x2FFFC 8 1 false = .error 0x2FFFC ∧ s.xlateBad 0 5 0x2FFFC = true ∧
    s.plainFail 0 5 1 false (fun _ => true) 2 0x2FFFC 8 = some 0x30000 ∧
    (s.pieces 0 0x2FFF1 1 3 true = .error 0x2FFF1 ∧ s.xlateBad 0 5 0x2FFF1 = true ∧
      s.plainFail 0 5 3 true (fun _ => true) 2 0x2FFF1 512 = some 0x30000 ∧ 0x2FFF1 % 512 ≠ 0) ∧
    badTables.plainFail 0 5 1 false (fun _ => true) 2 0x30000 8 = none :=
  ⟨by decide, error_of (by decide +kernel), by decide, by decide +kernel, ⟨error_of (by decide +kernel), by decide, by decide +kernel, by decide⟩,
    by decide +kernel⟩

/-- The stamped tensor of two rows of one block. -/
def stamped : Lay := layOf none (record 0xA0 1 0x1000000 2 15 6)
/-- The tensor of two plain rows. -/
def plain : Lay := layOf none (record 0x00 1 0x2000000 2 15 6)
/-- The package with a well-formed stamped block, of zero elements at step 0, in the first block entry. -/
def blockRig : State := withUrs (cells 61440 [0xA0#8, 0x7F#8])

/-- The last block, the block to store, and the last row. -/
theorem hyp_FreewheelAccess :
    blockRig.me.guard 1 0 = true ∧ postMod blockRig.me 0 4 0 = .ok [] ∧ blockRig.cur.cancel = [] ∧
    rowEnd blockRig (blockRig.me.ra 4).toNat fcStamped = some stamped ∧
    runOperand blockRig.me 24 64 = .ok ⟨3, 0, 61440, 64, worker.rvd 3⟩ ∧
    blockFlt blockRig.me stamped (blockRig.me.ra 4).toNat 64 0 1 = none ∧ destDue blockRig.me [.urs 61440 64] = false ∧
    blockFlt blockRig.me stamped (blockRig.me.ra 4).toNat 64 1 2 = none ∧ fwMalformed 0xA0 (blockRig.me.ursRead 61440 64) = false ∧
    (∃ bs, fwReadBlock 0xA0 0 0 (blockRig.me.ursRead 61440 64) = .ok bs) ∧
    rowEnd blockRig (blockRig.me.ra 5).toNat (fun c => rowCode c || fcStamped c) = some plain ∧
    runOperand blockRig.me 24 plain.rowBytes = .ok ⟨3, 0, 61440, 64, worker.rvd 3⟩ ∧ (blockRig.me.ra 5).toNat % 2 ^ 32 < plain.flatRows ∧
    rowOut blockRig.me plain 8 1 0 0 plain.cols = false ∧
    (∀ ps, blockRig.me.clearOf ps) ∧
    Ready blockRig 4 (addrSrcs 4 0 0) (.urs 61440 64 :: addrDsts 4 0) 0 ∧ Ready blockRig 4 (.urs 61440 64 :: addrSrcs 4 0 0) (addrDsts 4 0) 0 :=
  have c : calm blockRig.me = true := by decide
  ⟨by decide, rfl, by decide, by decide +kernel, ok_of (by decide +kernel), by decide +kernel, by decide, by decide +kernel,
    by decide +kernel, ⟨_, rfl⟩, by decide +kernel, ok_of (by decide +kernel), by decide +kernel, by decide +kernel,
    fun _ => ⟨fun _ h => (nomatch h), fun _ h => (nomatch h)⟩, ready_of_calm c (by decide) _ _, ready_of_calm c (by decide) _ _⟩

/-- The package with its bundle complete but for the buffer, which holds one effect. -/
def full (e : Eff) : State := rigWith (fun t => { t with ctx := { done := 0xFF, buf := [⟨4, e⟩] } })

theorem completing_full (e : Eff) : Completing (full e) 0 [⟨4, e⟩] :=
  ⟨rig_live, by cases e <;> rfl, nofun, rfl, rfl, rfl, rfl, rfl⟩

/-- Every strand of core 0 but the first is empty. -/
theorem full_alone (e : Eff) (h : Nat) (hc : coreOf h = coreOf 0) : ((full e).strand h).pends = [] ∧ ((full e).strand h).outs = [] := by
  have : h < 4 := by unfold coreOf at hc; omega
  have hs : h = 0 ∨ h = 1 ∨ h = 2 ∨ h = 3 := by omega
  rcases hs with rfl | rfl | rfl | rfl <;> exact ⟨rfl, rfl⟩

/-- A store and an atomic of the own vault, and a store to a memory-side page, to a cached page, and to another vault. -/
theorem hyp_StoresComplete :
    let st := Eff.mem ⟨[⟨own, 2 ^ 40, 2, .own⟩], [1#8, 2#8], none⟩
    let sd := Eff.mem ⟨[⟨0x20000, 0x20000, 2, .ms⟩], [1#8, 2#8], none⟩
    let at4 := Eff.mem ⟨[⟨own, 2 ^ 40, 4, .own⟩], [], some ⟨9, 4, 5, 0, none⟩⟩
    Completing (full st) 0 [⟨4, st⟩] ∧ Completing (full sd) 0 [⟨4, sd⟩] ∧ Completing (full at4) 0 [⟨4, at4⟩] ∧
    (let cd := Eff.mem ⟨[⟨0x1003E, 0x1003E, 2, .cached⟩], [1#8, 2#8], none⟩
     let la := Eff.mem ⟨[⟨own, vaultKey 1 0, 2, .lateral⟩], [1#8, 2#8], none⟩
     Completing (full cd) 0 [⟨4, cd⟩] ∧ Completing (full la) 0 [⟨4, la⟩] ∧ 0x1003E % 64 + 2 ≤ 64 ∧
     (∀ l ∈ ((full cd).core 0).dc, l.bytes.length = 64) ∧ (((full cd).core 0).dc.filter (fun l => dcSet l.va == dcSet 0x1003E)).length < 4) ∧
    (∀ e h, coreOf h = coreOf 0 → ((full e).strand h).pends = [] ∧ ((full e).strand h).outs = []) ∧ [1#8, 2#8].length = 2 ∧
    (full at4).badAt 0 [⟨own, 2 ^ 40, 4, .ms⟩] = none :=
  ⟨completing_full _, completing_full _, completing_full _, ⟨completing_full _, completing_full _, by decide, by decide, by decide⟩,
    full_alone, rfl, rfl⟩

/-- An atomic of the own vault whose old value a scalar waits for. -/
theorem hyp_StoresComplete2 :
    let a : AtomOp := ⟨0, 4, 5, 0, some 7⟩
    let w := Eff.mem ⟨[⟨own, 2 ^ 40, 4, .own⟩], [], some a⟩
    let s := rigWith (fun t => { t with
      ctx := { done := 0xFF, buf := [⟨4, w⟩] }
      pends := [⟨7, .atom 3 4 0, [.s 3], [], none, false, none, 0, []⟩] })
    Completing s 0 [⟨4, w⟩] ∧ a.pend = some 7 ∧ (s.replayOf 0).isNone = true ∧ (∀ q ∈ (s.strand 0).pends, q.pcs = []) ∧
    (∀ h ∈ [1, 2, 3], (s.strand h).pends = []) ∧ (∀ h ∈ [0, 1, 2, 3], (s.strand h).outs = []) ∧
    s.badAt 0 [⟨own, 2 ^ 40, 4, .ms⟩] = none :=
  ⟨⟨rig_live, rfl, nofun, rfl, rfl, rfl, rfl, rfl⟩, rfl, by decide, by decide, by decide, by decide, by decide⟩

/-- 08 R182: the memory takes the sum, and the entry that waits the old value. -/
theorem test_atom_completes :
    (let w := Eff.mem ⟨[⟨own, 2 ^ 40, 4, .own⟩], [], some ⟨0, 4, 5, 0, some 7⟩⟩
     let s : State := { rigWith (fun t => { t with
       ctx := { done := 0xFF, buf := [⟨4, w⟩] }
       pends := [⟨7, .atom 3 4 0, [.s 3], [], none, false, none, 0, []⟩] }) with mem := cells (2 ^ 40) [9#8] }
     match exec (.bundleComplete 0) s with
     | .next t => decide (t.memNat (2 ^ 40) 4 = 14 ∧ (t.strand 0).pends.map Pend.val = [some [9#8, 0#8, 0#8, 0#8]])
     | _ => false) = true := by decide +kernel

/-- Legal and illegal values of each: mode 4 and 5; `rrb` one below and at the entry count, of a plain and an empty range;
an aligned and a misaligned pointer. -/
theorem hyp_Configuration :
    Ready rig 7 [.s 1] [.efr] 0 ∧ Ready rig 7 [.s 1] [.vd 3] 0 ∧ Ready rig 7 [] [.vd 0] 0 ∧ Ready rig 7 [.a 1] [] 0 ∧
    (5#64).toNat % 8 = 5 ∧ (rig.me.rs 7).toNat % 8 < 5 ∧ (7 < vdCount (rig.me.rvd 0) ∧ ¬8 < vdCount (rig.me.rvd 0)) ∧
    ((rig.me.ra 1).toNat % 4 = 0 ∧ (rig.me.ra 1).toNat < 2 ^ 57) ∧ (rig.me.ra 6).toNat % 4 ≠ 0 :=
  ⟨rig_ready 7 0 (by decide) _ _, rig_ready 7 0 (by decide) _ _, rig_ready 7 0 (by decide) _ _, rig_ready 7 0 (by decide) _ _,
    by decide +kernel⟩

/-- A copy that waits. -/
def idleCopy : CopyCmd :=
  { id := 0, strand := 0, op := 0, tok := 0, dst := .none, src := .none, len := 0, fc := 0, rows := 0, cols := 0, i2 := 0, i3 := 0,
    started := false, data := [], word := 0#64 }

/-- Sixteen copies, so that there is no room for one more. -/
def fullCopies : State := { rig with cores := [(0, { core0 with copies := List.replicate 16 idleCopy })] }

/-- Room and none; a tensor copy, one that breaks a limit, one whose source is misaligned; a prefetch. -/
theorem hyp_LaunchCopies :
    (rig.core 0).copies.length + rig.waitingOn 0 Cmd.isCopy = 0 ∧ (fullCopies.core 0).copies.length + fullCopies.waitingOn 0 Cmd.isCopy = 16 ∧
    Ready rig 7 [.a 7, .a 8, .s 8] [.s 3] 1 ∧ Ready fullCopies 7 [.a 7, .a 8, .s 8] [.s 3] 0 ∧ Ready rig 7 [.a 8, .s 8] [.s 3] 1 ∧
    copyLen 0 false 0x1000000000000000 0x2000000900000000 0x100010 = some 1024 ∧
    copyLen 0 false 0x1000000000000000 0x10000 1 = none ∧
    rig.me.oldPends = [] ∧
    endpoint rig 0x2000000900000000 1024 0x100010 1 = .ok (.tens 9 0 0, []) ∧
    endpoint rig 0x1000000000000000 1024 0x100010 2 = .ok (.urs 0, []) ∧
    endpoint rig 0x100000000000003F 64 64 1 = .error ⟨0x07, 3, 0x3F⟩ :=
  ⟨by decide, by decide, rig_ready 7 1 (by decide) _ _, ready_of_calm (by decide) (by decide) _ _, rig_ready 7 1 (by decide) _ _,
    by decide +kernel, by decide +kernel, by decide, ok_of (by decide +kernel), ok_of (by decide +kernel), error_of (by decide +kernel)⟩

/-- A source in the strand store with an error recorded against its first bytes, and with one beyond it. -/
theorem hyp_LaunchCopies2 :
    let at0 := fun (d : Dst) => rigWith (fun t => { t with errs := [(d, 0x21, noAddr)] })
    let met := at0 (.urs 0 4)
    let far := at0 (.urs 64 4)
    (∀ s ∈ [met, far], s.me.ctx.done = 0 ∧ s.me.abort = none ∧ s.me.oldPends = [] ∧ s.me.scr.getLsbD 0 = false ∧ s.me.ctx.lq = []) ∧
    (∃ x ∈ met.me.errs, x.2.1 = 0x21 ∧ dstsMeet [x.1] (epTouch 0x1000000000000000 64) = true) ∧
    (∀ x ∈ far.me.errs, ¬(x.2.1 = 0x21 ∧ dstsMeet [x.1] (epTouch 0x1000000000000000 64) = true)) ∧
    Ready met 7 [.a 7, .a 1, .s 7] [.s 3] 0 ∧
    copyLen 0 false 0x10000 0x1000000000000000 64 = some 64 :=
  ⟨by decide, ⟨_, List.mem_singleton.mpr rfl, by decide⟩, by decide, ⟨rfl, rfl, by decide, by decide, .inl (by decide), by decide⟩, by decide⟩

/-- A source that meets a destination with a horizon error: of a copy that nothing else stops, of one whose destination is misaligned,
and of one whose destination lies outside the strand's store; and a source and a destination that both fail. -/
theorem hyp_LaunchCopies3 :
    let s := rigWith (fun t => { t with errs := [(.urs 0 4, 5, noAddr)] })
    s.me.errs.any (fun x => x.2.1 == 5 && dstsMeet [x.1] ([.a 7, .a 1, .s 7] ++ epTouch 0x1000000000000000 64)) = true ∧
    Ready s 7 [.a 7, .a 1, .s 7] [.s 3] 1 ∧
    endpoint s 0x1000000000000000 64 64 1 = .ok (.urs 0, []) ∧
    (∃ f, endpoint s (own + 1) 64 64 2 = .error f ∧ 5 < f.cause) ∧ (∃ f, endpoint s 0x100000000000FFC0 128 128 2 = .error f ∧ f.cause ≤ 5) ∧
    copyLen 0 false own 0x1000000000000000 64 = some 64 :=
  ⟨by decide, ⟨rfl, rfl, by decide, by decide, .inl (by decide), by decide⟩, ok_of (by decide +kernel),
    ⟨_, error_of (x := ⟨0x07, 3, own + 1⟩) (by decide +kernel), by decide⟩, ⟨_, error_of (x := ⟨0x05, 0, 0⟩) (by decide +kernel), by decide⟩,
    by decide +kernel⟩

/-- A source for `nm.opt` whose momentum is the stamped tensor. -/
def optRig : State := withUrs (cells 8 [7#8])

theorem hyp_LaunchNearMemory :
    ((rig.core 0).nmq.filter (fun x => decide (x.op ≤ 5))).length + rig.waitingOn 0 Cmd.isNm < 8 ∧
    runOperand rig.me 0 0 = .ok (entry 0) ∧ vecOperand rig.me 0 = .ok (entry 0) ∧
    rowEnd rig (rig.me.ra 5).toNat rowCode = some plain ∧ rowEnd rig (rig.me.ra 4).toNat fcStamped = some stamped ∧
    (1 < plain.flatRows ∧ (entry 0).addr + (64 + 4 * plain.cols) ≤ 65536 ∧ 64 + 4 * plain.cols ≤ 4096) ∧
    momOf optRig plain 0 (optRig.me.ursRead 0 124) = some stamped ∧ rowOut rig.me plain 8 3 1 0 15 = false ∧
    rowOut rig.me stamped 7 3 0 0 15 = false ∧ rig.pieces 0 0x20000 1024 3 false = .ok ([⟨0x20000, 0x20000, 1024, .ms⟩], [sidePage]) ∧
    undeclared rig.me 0 0x20000 1024 3 = none ∧ tensorOut rig.me 7 3 0 stamped.rows 0 stamped.cols 0 stamped.n2 0 stamped.n3 = none ∧
    Ready rig 7 [.a 5, .urs 0 60] [.s 3] 1 ∧ Ready optRig 7 [.a 5, .urs 0 124] [.s 3] 1 :=
  ⟨by decide, ok_of (by decide +kernel), ok_entry0, by decide +kernel, by decide +kernel, by decide +kernel, by decide +kernel,
    by decide +kernel, by decide +kernel, ok_of (by decide +kernel), by decide +kernel, by decide +kernel,
    rig_ready 7 1 (by decide) _ _, ready_of_calm (by decide) (by decide) _ _⟩

/-- A permit descriptor at 0x10000: load one tile of 16 by 16 words of the tensor 9 into the vault. -/
def permitRig : State :=
  { withMem 0x10000 (leBytes 2 1 ++ leBytes 2 1 ++ leBytes 4 1 ++ leBytes 8 0x2000000900000000 ++ leBytes 8 0x100010) with
    regs := SMap.set 0#64 rig.regs (0x40000 + 64 * 5 + 32) 1#64 }

/-- The same with an error in its descriptor. -/
def permitBad : State := { permitRig with bad := [(0x10000, 8)] }

/-- The first piece of the descriptor. -/
def descPiece : Piece := ⟨0x10000, 0x10000, 64, .cached⟩

/-- A permit waits at sprocket port 21. -/
def permitCmd : NmCmd := { id := 4, strand := 0, part := 5, op := 8, tok := 0, par := [21], pcs := [], data := [], phase := 1, word := 0#64 }

/-- Joins, none and as many as there may be; a slot and a descriptor that cannot be reached or are not aligned; eight permits
queued; a descriptor with an error, one that breaks a limit, and one whose tiles no region grants. -/
theorem hyp_LaunchTasks :
    (rig.pieces 0 0x30000 1 3 true = .error 0x30000 ∧ rig.pieces 0 0x30000 64 1 false = .error 0x30000 ∧
      rig.pieces 0 0x10001 64 1 false = .ok ([⟨0x10001, 0x10001, 64, .cached⟩], [page]) ∧ Ready permitRig 7 [.a 10] [.s 3] 1 ∧
      permitBar { permitRig with permits := [(21, List.replicate 8 permitCmd)] } 21 ≠ none ∧
      (permitBad.loadBad 0 5 0 ([descPiece].flatMap cutPiece)).map Prod.snd = some 0x10000 ∧ permitRig.loadBad 0 5 0 ([descPiece].flatMap cutPiece) = none ∧
      permitSize rig 0 5 (rig.load 0 5 [descPiece]).2 = none ∧
      (permitOut { permitRig.me with regions := [] } 0 (permitRig.load 0 5 [descPiece]).2 1024).isSome = true ∧
      permitRig.seenOuts 0 = [] ∧ (SMap.get [] permitRig.tiles (cluOf 0) = [])) ∧
    rig.pieces 0 0x10200 1 3 true = .ok ([⟨0x10200, 0x10200, 1, .cached⟩], [page]) ∧ (rig.me.ra 10).toNat % 512 = 0 ∧
    (rig.me.ra 6).toNat % 512 ≠ 0 ∧ rig.me.joins.length = 0 ∧ Ready rig 7 [.a 10] [.s 3] 1 ∧ Ready rig 7 [.a 10] [] 1 ∧
    (rigWith (fun t => { t with joins := List.replicate 32 (0, 0) })).me.joins.length = 32 ∧
    permitRig.pieces 0 0x10000 64 1 false = .ok ([⟨0x10000, 0x10000, 64, .cached⟩], [page]) ∧ permitBar permitRig 21 = none ∧
    permitRig.me.outs = [] ∧
    permitSize permitRig 0 5 (permitRig.load 0 5 [⟨0x10000, 0x10000, 64, .cached⟩]).2 = some 1024 ∧
    permitOut permitRig.me 0 (permitRig.load 0 5 [⟨0x10000, 0x10000, 64, .cached⟩]).2 1024 = none :=
  ⟨⟨error_of (by decide +kernel), error_of (by decide +kernel), ok_of (by decide +kernel), ready_of_calm (by decide) (by decide) _ _,
    by decide, by decide +kernel, by decide +kernel, by decide +kernel, by decide +kernel, by decide, by decide⟩,
    ok_of (by decide +kernel), by decide, by decide, by decide, rig_ready 7 1 (by decide) _ _, rig_ready 7 1 (by decide) _ _, by decide,
    ok_of (by decide +kernel), by decide +kernel, by decide, by decide +kernel, by decide +kernel⟩

/-- A descriptor at a peer, not yet asked for and asked for; one that an atomic of the strand is about to change; tables with errors. -/
theorem hyp_LaunchTasks2 :
    let d : Piece := ⟨0x50000, 4 * 2 ^ 80, 64, .window⟩
    ((farRig 0 []).pieces 0 0x50000 64 1 false = .ok ([d], [farPage]) ∧
      (farRig 0 [(0x50000, 9)]).pieces 0 0x50000 64 1 false = .ok ([d], [farPage])) ∧
    (∀ as ∈ [[], [(0x50000, 9)]], let s := farRig 0 as
      calm s.me = true ∧ s.loadHeld 0 [d] = false ∧
      s.loadBad 0 5 0 ([d].flatMap cutPiece) = none ∧ permitBar s 21 = none ∧ s.seenOuts 0 = []) ∧
    ((farRig 0 []).asked 0 0x50000 [d] = false ∧ (farRig 0 [(0x50000, 9)]).asked 0 0x50000 [d] = true) ∧
    permitRig.asked 0 0x10000 [descPiece] = true ∧ permitRig.loadHeld 0 [descPiece] = false ∧
    (let a : Out := ⟨4, ⟨[⟨0x50000, 4 * 2 ^ 80, 8, .window⟩], [], some ⟨0, 8, 0, 0, none⟩⟩⟩
     let s : State := { farRig 0 [(0x50000, 9)] with
       strands := [(0, { worker with asks := [(0x50000, 9)], outs := [a] })],
       flights := [⟨4, 3, 0⟩], ports := [(0, { wait := [(4, [])] })] }
     s.asked 0 0x50000 [d] = true ∧ s.loadHeld 0 [d] = true ∧ calm s.me = true) ∧
    (let x : NmCmd := { permitCmd with par := [21, 1, 1, 1, 0x2000000900000000, 0x100010, 0, 0, 1, 1, 1024], phase := 0 }
     let line : TLine := { part := 5, handle := 9, tr := 0, tc := 0, i2 := 0, i3 := 0, bytes := List.replicate 1024 1#8, dirty := 1, fwd := none }
     permitLine permitRig x line = true) ∧
    (badTables.pieces 0 0x30000 64 1 false = .error 0x30000 ∧ badTables.pieces 0 0x30001 1 3 true = .error 0x30001 ∧
      badTables.xlateBad 0 5 0x30001 = true) :=
  ⟨⟨ok_of (by decide +kernel), ok_of (by decide +kernel)⟩, by decide +kernel, by decide +kernel, by decide +kernel, by decide +kernel, by decide +kernel,
    by decide +kernel, error_of (by decide +kernel), error_of (by decide +kernel), by decide⟩

/-- The step enabled for partition 5, below a multiple of 2^13 and crossing it; and not enabled. -/
theorem hyp_GlobalStepAdvance :
    let s : State := { rig with regs := SMap.set 0#64 (SMap.set 0#64 rig.regs 0x36008 0x105#64) 0x36000 8191#64 }
    SMap.rising s.regs = true ∧ s.rowBusy 0 = false ∧ Ready s 7 [] [] 0 ∧ (s.reg 0 0x36008).testBit 8 = true ∧
    s.reg 0 0x36008 % 256 = s.me.part ∧ s.replayAny 0 = none ∧ (∀ p ∈ s.me.pends, p.kind.isRow = false) ∧
    8191 / 8192 ≠ (8191 + 1) / 8192 ∧ (0 : Nat) / 8192 = (0 + 4095) / 8192 ∧ 1 ≤ (1#12).toNat ∧
    SMap.rising rig.regs = true ∧ (rig.reg 0 0x36008).testBit 8 = false ∧ s.sweep = none ∧
    (let p := fun w => ({ s with sweep := some w } : State)
     let q := p ⟨0, 8191, [], 0⟩
     let r := p ⟨0, 8191, [(5, 7)], 0⟩
     let o := p ⟨4, 8191, [], 0⟩
     let b : State := { s with cores := [(0, { core0 with nmq := [{ permitCmd with op := 1 }] })] }
     (∀ u ∈ [q, r, o, b], SMap.rising u.regs = true ∧ calm u.me = true ∧ u.replayAny 0 = none) ∧ b.rowBusy 0 = true ∧ r.rowBusy 0 = false) :=
  ⟨by decide, by decide, ready_of_calm (by decide) (by decide) _ _, by decide, by decide, by decide, by decide, by decide, by decide,
    by decide, by decide, by decide, by decide, by decide⟩

/-- A literal word that can be fetched, with the guard p0 negated, and a pointer that cannot. -/
theorem hyp_LiteralStream :
    let n := withMem 0x10000 [0#8, 0#8, 0#8, 0x10#8]
    let u := rigWith (fun t => { t with mlp := 0x30000#64 })
    n.me.ctx.done.testBit 6 = false ∧ n.me.abort = none ∧ n.me.ctx.lq.length ≤ 64 ∧
    n.linPieces 0 5 1 false 2 0x10000 4 = .ok ([⟨0x10000, 0x10000, 4, .cached⟩], [page]) ∧
    leNat (n.loadBelow [⟨0x10000, 0x10000, 4, .cached⟩]) = 0x10000000 ∧ n.me.rp 0 = Nat.testBit 0x10000000 28 ∧
    n.badAt 0 [⟨0x10000, 0x10000, 4, .cached⟩] = none ∧
    (let b : State := { n with bad := [(0x10000, 512)] }
     b.linPieces 0 5 1 false 2 0x10000 4 = .ok ([⟨0x10000, 0x10000, 4, .cached⟩], [page]) ∧
       b.badAt 0 [⟨0x10000, 0x10000, 4, .cached⟩] ≠ none) ∧
    u.xlateBad 0 5 0x30000 = false ∧
    u.me.ctx.done.testBit 6 = false ∧ u.me.abort = none ∧ u.linPieces 0 5 1 false 2 0x30000 4 = .error 0x30000 :=
  ⟨by decide, by decide, by decide, ok_of (by decide +kernel), by decide +kernel, by decide, by decide,
    ⟨ok_of (by decide +kernel), by decide⟩, by decide, by decide, by decide, error_of (by decide +kernel)⟩

/-- A literal word at a peer, not yet asked for and asked for. -/
theorem hyp_LiteralStream2 :
    let p : Piece := ⟨0x50000, 4 * 2 ^ 80, 4, .window⟩
    ((farRig 0x50000 []).linPieces 0 5 1 false 2 0x50000 4 = .ok ([p], [farPage]) ∧
      (farRig 0x50000 [(0x50000, 9)]).linPieces 0 5 1 false 2 0x50000 4 = .ok ([p], [farPage])) ∧
    (∀ as ∈ [[], [(0x50000, 9)]], let s := farRig 0x50000 as
      s.me.ctx.done.testBit 6 = false ∧ s.me.abort = none ∧ s.me.mlp.toNat = 0x50000 ∧
      s.badAt 0 [p] = none ∧ s.me.oldPends = [] ∧ s.me.ctx.lq = []) ∧
    (farRig 0x50000 []).asked 0 0x50000 [p] = false ∧ (farRig 0x50000 [(0x50000, 9)]).asked 0 0x50000 [p] = true ∧
    rig.asked 0 0x10000 [⟨0x10000, 0x10000, 4, .cached⟩] = true ∧ litAsk rig = none :=
  ⟨⟨ok_of (by decide +kernel), ok_of (by decide +kernel)⟩, by decide +kernel, by decide +kernel, by decide +kernel, by decide +kernel, by decide⟩

/-- Accumulators 0 and 1, and tiles of FP16 and of INT8. -/
def acc (n : Nat) : Res := ⟨2, n, 24576 + 18432 * n, 18432, worker.rvd 2⟩
theorem ok_acc0 : accOperand rig.me 20 = .ok (acc 0) := ok_of (by decide +kernel)
theorem ok_acc1 : accOperand rig.me 21 = .ok (acc 1) := ok_of (by decide +kernel)
theorem ok_tile : tileOperand rig.me 17 = .ok ⟨1, 1, 16384, 8192, worker.rvd 1⟩ := ok_of (by decide +kernel)
theorem ok_tile8 : tileOperand rig.me 36 = .ok ⟨6, 0, 8192, 4096, worker.rvd 6⟩ := ok_of (by decide +kernel)
theorem ok_lit : litAt rig = .ok (0, [page]) := ok_of (by decide +kernel)

/-- No guard, no options; floating and integer operands; the weight reference held. -/
theorem hyp_MatrixMultiply :
    litAt rig = .ok (0, [page]) ∧ rig.me.rp (0 / 2 ^ 29 % 8) ≠ Nat.testBit 0 28 ∧ matrixBar rig true = none ∧
    accOperand rig.me 20 = .ok (acc 0) ∧ tileOperand rig.me 17 = .ok ⟨1, 1, 16384, 8192, worker.rvd 1⟩ ∧
    tileOperand rig.me 36 = .ok ⟨6, 0, 8192, 4096, worker.rvd 6⟩ ∧
    intType (vdFmt (worker.rvd 1)) = false ∧ intType (vdFmt (worker.rvd 6)) = true ∧
    Ready rig 6 [.urs 16384 8192, .urs 16384 8192] [.urs 24576 18432] 1 ∧
    (rigWith (fun t => { t with wref := some (8192, 0x10) })).me.wref = some (8192, 0x10) ∧
    ((2 ^ 10 + 1016) < 2 ^ 11 ∧ (2 ^ 10 + 1016) % 2 ^ 10 ≤ 1016) ∧
    (let queued := fun (s : State) => ((s.core 0).mq.filter (fun x => !x.started)).length + s.waitingOn 0 Cmd.isMatrix
     let four := rigWith (fun t => { t with ctx := { lq := [⟨3, 0, 6, .result 4 []⟩] } })
     queued rig = 0 ∧ queued (arrayOf (List.replicate 4 (xcmd 1 (some 80) false))) = 4 ∧ rig.me.pendingResults = 0 ∧
       queued four = 0 ∧ four.me.pendingResults = 1 ∧ (rigWith (fun t => { t with ctx := { lq := List.replicate 4 ⟨3, 0, 6, .result 4 []⟩ } })).me.pendingResults = 4) :=
  ⟨ok_lit, by decide, by decide, ok_acc0, ok_tile, ok_tile8, by decide, by decide, rig_ready 6 1 (by decide) _ _, rfl, by decide, by decide⟩

/-- A descriptor, at byte 1024, of a convolution of FP16 over one element of the own vault. -/
def convRig : State :=
  withUrs (cells 1024 (leBytes 8 own ++ leBytes 2 0x10 ++ ([1, 1, 1, 1, 1, 1].flatMap (leBytes 2)) ++ ([1, 1, 1, 1, 1, 1].flatMap (leBytes 1))))

theorem hyp_MatrixConvolve :
    litAt convRig = .ok (0, [page]) ∧ litAsk convRig = none ∧ convRig.me.rp 0 ≠ Nat.testBit 0 28 ∧ matrixBar convRig true = none ∧
    accOperand convRig.me 20 = .ok (acc 0) ∧ resolve convRig.me 1 = some (entry 1) ∧
    tileOperand convRig.me 17 = .ok ⟨1, 1, 16384, 8192, worker.rvd 1⟩ ∧
    convFlt convRig (convRig.me.ursRead 1024 64) = .ok (2 ^ 40) ∧
    intType (convOf (convRig.me.ursRead 1024 64)).fc = intType (vdFmt (worker.rvd 1)) ∧
    Ready convRig 6 [.urs 1024 64, .urs 16384 8192] [.urs 24576 18432] 1 :=
  ⟨ok_of (by decide +kernel), by decide, by decide, by decide, ok_of (by decide +kernel), by decide +kernel, ok_of (by decide +kernel),
    ok_of (by decide +kernel), by decide +kernel, ready_of_calm (by decide) (by decide) _ _⟩

theorem hyp_MatrixMoves :
    litAt rig = .ok (0, [page]) ∧ rig.me.rp 0 ≠ Nat.testBit 0 28 ∧ tileOperand rig.me 17 = .ok ⟨1, 1, 16384, 8192, worker.rvd 1⟩ ∧
    accOperand rig.me 20 = .ok (acc 0) ∧ matrixBar rig false = none ∧ matrixBar rig true = none ∧ (drainRm rig.me 0).isSome ∧
    fcDense (vdFmt (worker.rvd 1)) = true ∧ 0 < 2 ^ 12 ∧
    Ready rig 6 [.urs 16384 8192] [] 1 ∧ Ready rig 6 [] [.urs 24576 18432] 1 ∧ Ready rig 6 [.urs 24576 18432] [.urs 16384 8192] 1 :=
  ⟨ok_lit, by decide, ok_tile, ok_acc0, by decide, by decide, by decide, by decide, by decide, rig_ready 6 1 (by decide) _ _,
    rig_ready 6 1 (by decide) _ _, rig_ready 6 1 (by decide) _ _⟩

/-- Both actions on a breakdown; two accumulators apart; and FSR naming each kind of factorisation at its last step. -/
theorem hyp_FactorFamily :
    litAt rig = .ok (0, [page]) ∧ rig.me.rp 0 ≠ Nat.testBit 0 28 ∧ accOperand rig.me 20 = .ok (acc 0) ∧
    accOperand rig.me 21 = .ok (acc 1) ∧ rig.inArray 0 = false ∧ rig.me.resultDue = false ∧ rig.me.waiting Cmd.lands = false ∧
    matrixBar rig true = none ∧ matrixBar rig false = none ∧ (acc 0).addr + 18432 ≤ (acc 1).addr ∧
    (let b := arrayRig (xcmd 8 (some 4) false)
     let h := rigWith (fun t => { t with ctx := { lq := [⟨3, 0, 6, .result 4 []⟩] } })
     calm b.me = true ∧ calm h.me = true ∧ b.inArray 0 = true ∧ h.inArray 0 = false ∧ h.me.resultDue = true) ∧
    (0 % 4 < 2 ∧ 0 / 4 &&& 4 = 0 / 4) ∧ (17 % 4 < 2 ∧ 17 / 4 &&& 4 = 17 / 4) ∧
    Ready rig 6 [.urs 24576 18432] [.urs 24576 18432] 1 ∧
    (∀ k ∈ [1, 2, 3, 4, 5], let f := k * 2 ^ 25 + 63 * 2 ^ 18 + 21
      1 ≤ f / 2 ^ 25 % 8 ∧ f / 2 ^ 25 % 8 ≤ 5 ∧ f / 2 ^ 18 % 128 < 64 ∧ accOperand rig.me (f % 64) = .ok (acc 1)) :=
  ⟨ok_lit, by decide, ok_acc0, ok_acc1, by decide, by decide, by decide, by decide, by decide, by decide, by decide, by decide, by decide,
    rig_ready 6 1 (by decide) _ _, by
      intro k hk
      rcases List.mem_cons.mp hk with rfl | hk
      · exact ⟨by decide, by decide, by decide, ok_acc1⟩
      rcases List.mem_cons.mp hk with rfl | hk
      · exact ⟨by decide, by decide, by decide, ok_acc1⟩
      rcases List.mem_cons.mp hk with rfl | hk
      · exact ⟨by decide, by decide, by decide, ok_acc1⟩
      rcases List.mem_cons.mp hk with rfl | hk
      · exact ⟨by decide, by decide, by decide, ok_acc1⟩
      rcases List.mem_cons.mp hk with rfl | hk
      · exact ⟨by decide, by decide, by decide, ok_acc1⟩
      exact nomatch hk⟩

theorem hyp_GuardFalse : rig.me.guard 2 0 = false ∧ rig.me.guard 0 1 = false ∧ rig.me.abort = none ∧ rig.me.ctx.lq.length ≤ 64 ∧
    ∀ k < 8, rig.me.ctx.done.testBit k = false := by decide

-- Completion, traps and holds.

/-- The package with the control context of its strand. -/
def ctxRig (c : Ctx) : State := rigWith (fun t => { t with ctx := c })

/-- A bundle whose slots have all committed, one that is annulled, and a stall cycle. -/
theorem hyp_BundleControl :
    let a := ctxRig { done := 0xFF, bpf := [⟨96, 1, false⟩] }
    let b := ctxRig { anc := 2 }
    let d := ctxRig { sc := 1 }
    (∀ s ∈ [a, b, d], s.live = true ∧ s.inPos 0 = true ∧ (s.strand 0).ctx.lq = [] ∧ (s.strand 0).ctx.buf = [] ∧
      (s.strand 0).ctx.cout.after = .none) ∧
    (a.strand 0).ctx.done = 0xFF ∧ (b.mayGo 0 = true ∧ (b.strand 0).hold = .none ∧ (d.strand 0).hold ≠ .yield ∧ (d.strand 0).hold.isTrap = false) ∧ ((b.strand 0).ctx.done = 0 ∧ (b.strand 0).ctx.sc = 0 ∧ (b.strand 0).ctx.anc ≠ 0) ∧
    (d.strand 0).ctx.sc ≠ 0 := by decide

/-- A landing queue of which nothing falls due in the cycle; a strand that a debug step names, in each of its three cycles. -/
theorem hyp_BundleControl2 :
    let q : List Landing := [⟨2, 0, 1, .eff (.sreg 3 9#64)⟩]
    let one := fun (s : State) => { s with stepArm := some 0 }
    let a := ctxRig { done := 0xFF, lq := q }
    let b := ctxRig { anc := 2, lq := q }
    let d := ctxRig { sc := 2, lq := q }
    let a1 := one (ctxRig { done := 0xFF })
    let b1 := one (ctxRig { anc := 1 })
    let d1 := one (ctxRig { sc := 1 })
    (∀ s ∈ [a, b, d, a1, b1, d1], s.live = true ∧ s.inPos 0 = true ∧ (∀ z ∈ (s.strand 0).ctx.lq, 2 ≤ z.rem) ∧ (s.strand 0).ctx.buf = [] ∧
      (s.strand 0).ctx.cout = {} ∧ (s.strand 0).hold = .none) ∧
    (∀ s ∈ [a, b, d], s.stepArm ≠ some 0) ∧ (∀ s ∈ [a1, b1, d1], s.stepArm = some 0) ∧
    (∀ s ∈ [a, a1], (s.strand 0).ctx.done = 0xFF) ∧
    (∀ s ∈ [b, b1], s.mayGo 0 = true ∧ (s.strand 0).ctx.done = 0 ∧ (s.strand 0).ctx.sc = 0 ∧ (s.strand 0).ctx.anc ≠ 0) ∧
    ((d.strand 0).ctx.sc ≠ 0 ∧ (d1.strand 0).ctx.sc = 1) := by decide

/-- The strand after a step. -/
def after (o : Host.Outcome State Fault Refusal) : Strand := match o with | .next t => t.strand 0 | _ => {}

/-- 05 R118: the FIFO's head takes the PC; an annulled bundle moves it by 32; a stall cycle lets the clock run. -/
theorem test_bundle_control :
    (after (exec (.bundleComplete 0) (ctxRig { done := 0xFF, bpf := [⟨96, 1, false⟩] }))).ctx.pc = 96 ∧
    (after (exec (.bundleComplete 0) (ctxRig { done := 0xFF, bpf := [⟨96, 2, false⟩] }))).ctx.bpf = [⟨96, 1, false⟩] ∧
    (after (exec (.annulledBundle 0) (ctxRig { anc := 2, pc := 64 }))).ctx = { anc := 1, pc := 96 } ∧
    (after (exec (.stallCountExpiry 0) (ctxRig { sc := 3 }))).cyc = 1#64 := by decide +kernel

/-- An effect at completion, one that lands, a result, a delayed launch. -/
theorem hyp_EffectsLand :
    let e := Eff.sreg 3 9#64
    let l := ctxRig { lq := [⟨1, 0, 1, .eff e⟩, ⟨0, 0, 1, .eff e⟩] }
    let r : State := { ctxRig { lq := [⟨0, 0, 6, .result 4 []⟩] } with cores := [(0, { core0 with results := [⟨4, 0, [e], none, none⟩] })] }
    let d := ctxRig { lq := [⟨0, 0, 7, .launch (.copy idleCopy)⟩] }
    (full e).strand 0 = ({ worker with ctx := { done := 0xFF, buf := [⟨4, e⟩] } } : Strand) ∧ Completing (full e) 0 [⟨4, e⟩] ∧
    ((full e).strand 0).filed = true ∧ (∀ s ∈ [l, r, d], s.live = true ∧ (s.strand 0).filed = true) ∧
    (l.strand 0).ctx.lq = [⟨1, 0, 1, .eff e⟩] ++ ⟨0, 0, 1, .eff e⟩ :: [] ∧
    (r.core 0).results.find? (fun x => x.id == 4 && x.strand == 0) = some ⟨4, 0, [e], none, none⟩ ∧ SMap.get [] d.tiles 0 = [] :=
  ⟨rfl, completing_full _, by decide, by decide, rfl, by decide, rfl⟩

/-- Entries of the landing queue whose counts stand at 1 and at 2 in a stall cycle. -/
theorem hyp_EffectsLand2 :
    let e := Eff.sreg 3 9#64
    let s := ctxRig { sc := 1, lq := [⟨2, 0, 1, .eff e⟩, ⟨1, 0, 1, .eff e⟩] }
    s.live = true ∧ s.inPos 0 = true ∧ s.stepArm ≠ some 0 ∧ (s.strand 0).hold = .none ∧ (s.strand 0).ctx.sc ≠ 0 ∧ (s.strand 0).filed = true ∧
    (s.strand 0).ctx.lq = [⟨2, 0, 1, .eff e⟩] ++ ⟨1, 0, 1, .eff e⟩ :: [] ∧
    (∀ z ∈ [(⟨2, 0, 1, .eff e⟩ : Landing)] ++ [], 2 ≤ z.rem) ∧ ∀ o, e ≠ .mem o :=
  ⟨by decide, by decide, by decide, by decide, by decide, by decide, by decide, by decide, nofun⟩

/-- A permit that launches, with a dirty line of its tiles in the tile cache. -/
theorem hyp_EffectsLand3 :
    let x : NmCmd := { permitCmd with par := [21, 1, 1, 1, 0x2000000900000000, 0x100010, 0, 0, 1, 1, 1024], phase := 0 }
    let line : TLine := { part := 5, handle := 9, tr := 0, tc := 0, i2 := 0, i3 := 0, bytes := List.replicate 1024 1#8, dirty := 1, fwd := none }
    let s : State := { ctxRig { lq := [⟨0, 0, 7, .launch (.nm x)⟩] } with tiles := [(0, [line])] }
    s.live = true ∧ (s.strand 0).filed = true ∧ (s.strand 0).ctx.lq = [] ++ ⟨0, 0, 7, .launch (.nm x)⟩ :: [] ∧ x.op = 8 ∧
    permitLine s x line = true := by decide +kernel

/-- 15 R315: the line is written back as the permit launches, and stays for a load permit. -/
theorem test_permit_launch :
    (let x : NmCmd := { permitCmd with par := [21, 1, 1, 1, 0x2000000900000000, 0x100010, 0, 0, 1, 1, 1024], phase := 0 }
     let line : TLine := { part := 5, handle := 9, tr := 0, tc := 0, i2 := 0, i3 := 0, bytes := List.replicate 1024 7#8, dirty := 1, fwd := none }
     match exec (.engineLaunch 0) { ctxRig { lq := [⟨0, 0, 7, .launch (.nm x)⟩] } with tiles := [(0, [line])] } with
     | .next t => decide (t.memRead 0x3000000 2 = [7#8, 0#8] ∧ (SMap.get [] t.tiles 0).map TLine.dirty = [0])
     | _ => false) = true := by decide +kernel

/-- 01 R25-R27: s3 is written at completion, and when a landing-queue entry's count has run out. -/
theorem test_effects :
    (after (exec (.bundleComplete 0) (full (.sreg 3 9#64)))).rs 3 = 9#64 ∧
    (after (exec (.landing 0) (ctxRig { lq := [⟨0, 0, 1, .eff (.sreg 3 9#64)⟩] }))).rs 3 = 9#64 ∧
    (coreOne (exec (.engineLaunch 0) (ctxRig { lq := [⟨0, 0, 7, .launch (.copy idleCopy)⟩] }))).copies.length = 1 := by
  decide +kernel

/-- A vector record for partition 5 at 0x10000: entry 0x2000, stack 0x3000. -/
def vectorRig : State :=
  { withMem 0x10000 (leBytes 8 0x2000 ++ leBytes 8 0x3000) with regs := SMap.set 0#64 rig.regs (0x40000 + 64 * 5 + 16) 0x10000#64 }

/-- Outside a handler with a vector and without; in a handler with TCR and TAR read, and not; aborts. -/
theorem hyp_TrapEntry :
    let h := rigWith (fun t => { t with hmode := true, seen := 3 })
    (∀ s ∈ [rig, vectorRig, h], SMap.rising (s.strand 0).areg = true ∧ (s.strand 0).ownPends = [] ∧
      (s.reg (cluOf 0 / 18) (trBlock (cluOf 0) + 32)).testBit 0 = false) ∧
    (h.strand 0).hmode = true ∧ (h.strand 0).seen = 3 ∧ (rig.strand 0).hmode = false ∧
    vectorRig.trapVector 0 (vectorRig.strand 0).part = some (0x2000, 0x3000) ∧ vectorRig.vectorBad 0 5 = none ∧
    rig.trapVector 0 5 = none ∧ rig.vectorBad 0 5 = none ∧
    ({ vectorRig with bad := [(0x10000, 512)] } : State).vectorBad 0 5 = some 0x10000 := by decide +kernel

/-- A vector record that stands in the package, one at a peer that has not been asked for it, and one that the peer has sent. -/
theorem hyp_TrapEntry2 :
    let far := fun (as : List (Nat × Nat)) =>
      ({ farRig 0 as with regs := SMap.set 0#64 (farRig 0 []).regs (0x40000 + 64 * 5 + 16) 0x50000#64 } : State)
    vectorRig.vectorAsk 0 = none ∧ rig.vectorAsk 0 = none ∧ (far []).vectorAsk 0 = some [⟨0x50000, 4 * 2 ^ 80, 64, .window⟩] ∧
    (far [(0x50000, 9)]).vectorAsk 0 = none ∧ (far []).vectorBad 0 5 = none ∧ ((far []).strand 0).ownPends = [] ∧
    ((far []).strand 0).hmode = false ∧ ((far []).reg (cluOf 0 / 18) (trBlock (cluOf 0) + 32)).testBit 0 = false := by decide +kernel

/-- 06 R137: the handler of strand 0 has its stack window at 0x3000 and a30 at its end. -/
theorem test_trap_entry :
    let y := (vectorRig.raise 0 1 ⟨0x05, 0, 64⟩).strand 0
    y.ctx.pc = 0x2000 ∧ y.hmode = true ∧ y.ra 30 = 0x4000#64 ∧ y.tcr = 5#64 ∧ y.tar = 64#64 := by decide +kernel

/-- A bundle whose C word has an opcode that no table lists. -/
def i0 : List Byte := [0#8, 0#8, 0#8, 0xFC#8] ++ List.replicate 28 0#8

/-- Each hold, each outcome of a bundle, a clear block, the next strand, a fetch that fails and a word that means nothing. -/
theorem hyp_HoldsAndReturns :
    let d := rigWith (fun t => { t with hold := .done })
    let r := rigWith (fun t => { t with hold := .rfe 0, hmode := true, frozen := some ({ pc := 64 }, 1#64, 2#64) })
    let o := ctxRig { done := 0xFF, cout := { after := .yield } }
    let b := rigWith (fun t => { t with run := .blocked, wait := .copyQueue })
    let w : State := { rig with cores := [(0, { core0 with pos := none })], strands := [(0, { worker with run := .ready }), (2, { worker with run := .ready })] }
    let i := { withMem 0x10000 [0#8, 0#8, 0#8, 0xFC#8] with strands := [(0, { worker with ctx := { pc := 0x10000 } })] }
    let v : State := { rig with cores := [(0, core0)], strands := [(0, { worker with ctx := { done := 0xFF, cout := { after := .yield, sc := 2 } } }), (2, { worker with run := .ready })] }
    (∀ s ∈ [d, r, o, b, w, i, v], s.live = true) ∧
    ((v.strand 0).ctx.cout.sc ≠ 0 ∧ v.otherReady 0 = true ∧ o.otherReady 0 = false ∧ (o.strand 0).ctx.cout.sc = 0 ∧ (r.strand 0).ctx.sc = 0) ∧
    (rig.atIssue 0 = true ∧ (rig.strand 0).due = none ∧ i.atIssue 0 = true ∧ (i.strand 0).due = none ∧ (i.strand 0).ctx.done = 0 ∧
      (i.strand 0).ctx.lq.length ≤ 64 ∧ rig.bad = []) ∧ d.inPos 0 = true ∧ d.doneReady 0 = true ∧ d.replayAny 0 = none ∧
    (d.strand 0).cursor = 0#128 ∧ r.inPos 0 = true ∧ (r.strand 0).ctx.lq = [] ∧ SMap.rising (r.strand 0).areg = true ∧
    ((o.strand 0).ctx.done = 0xFF ∧ (o.strand 0).ctx.held = [] ∧ (o.strand 0).ctx.cout.redirect = none) ∧
    ((b.strand 0).run = .blocked ∧ b.blockOver 0 = true) ∧
    ((w.core 0).pos = none ∧ (w.core 0).stop = .none ∧ (w.strand (4 * 0 + (3 + 1) % 4)).run = .ready) ∧
    (rig.inPos 0 = true ∧ rig.bundleAt 0 (rig.strand 0).ctx.pc = none) ∧
    (∃ bs ts, i.bundleAt 0 0x10000 = some (bs, ts) ∧ (words bs).getD 0 0#32 ≠ 0#32 ∧ decodeSlot 0 ((words bs).getD 0 0#32) = none) :=
  ⟨by decide, by decide, by decide, by decide, by decide, by decide, by decide, by decide, by decide, by decide, by decide, by decide,
    by decide, by decide +kernel, ⟨i0, [page], by decide +kernel, by decide +kernel, by decide +kernel⟩⟩

/-- A return in its last stall cycle, one that begins with stall cycles and one without; a fetch that peers need not answer. -/
theorem hyp_HoldsAndReturns2 :
    let fz : Option (Ctx × W64 × W64) := some ({ pc := 64 }, 1#64, 2#64)
    let r := rigWith (fun t => { t with hold := .rfe 0, hmode := true, frozen := fz, ctx := { sc := 1 } })
    let m := fun n => rigWith (fun t => { t with hmode := true, frozen := fz, ctx := { done := 0xFF, cout := { after := .rfe, sc := n } } })
    (∀ s ∈ [r, m 0, m 2], s.live = true ∧ s.inPos 0 = true ∧ s.stepArm ≠ some 0 ∧ (s.strand 0).ctx.lq = [] ∧ (s.strand 0).frozen = fz ∧
      SMap.rising (s.strand 0).areg = true) ∧
    ((r.strand 0).hold = .rfe 0 ∧ (r.strand 0).ctx.sc ≤ 1 ∧ (r.strand 0).ctx.sc ≠ 0) ∧
    (∀ n ∈ [0, 2], ((m n).strand 0).ctx.done = 0xFF ∧ ((m n).strand 0).ctx.cout.after = .rfe ∧ ((m n).strand 0).ctx.cout.sc = n ∧
      ((m n).strand 0).ctx.cout.redirect = none) ∧
    rig.fetchAsk 0 (rig.strand 0).ctx.pc = none := by decide +kernel

/-- A bundle that ends in a trap. -/
theorem hyp_HoldsAndReturns3 :
    let s : State := { vectorRig with strands := [(0, { worker with ctx := { done := 0xFF, cout := { after := .trap 0x09 3 } } })] }
    s.live = true ∧ s.inPos 0 = true ∧ s.stepArm ≠ some 0 ∧ (s.strand 0).ctx.done = 0xFF ∧ (s.strand 0).ctx.cout.after = .trap 0x09 3 ∧
    (s.strand 0).hmode = false ∧ s.vectorBad 0 5 = none ∧ s.vectorAsk 0 = none ∧ (s.strand 0).ctx.lq = [] ∧ (s.strand 0).ctx.held = [] := by
  decide +kernel

/-- 12 R261: after strand 3 the next ready strand is strand 0; then strand 2. -/
theorem test_switch :
    let w : State := { rig with cores := [(0, { core0 with pos := none, last := 0 })], strands := [(0, { worker with run := .ready }), (2, { worker with run := .ready })] }
    (coreOne (exec (.strandSwitch 0) w)).pos = some 2 := by decide +kernel

-- Engines.

/-- A pending destination of s3 whose bytes are fixed, one over a lateral piece, one with an error. -/
theorem hyp_Arrivals :
    let p : Pend := ⟨7, .scalar 3 2 true, [.s 3], [], some [0x34#8, 0x92#8], false, none, 0, []⟩
    let q : Pend := ⟨7, .scalar 3 2 true, [.s 3], [⟨own, 2 ^ 40, 2, .own⟩], none, false, none, 0, []⟩
    let e : Pend := { p with err := some own }
    ∀ x ∈ [p, q, e], let s := rigWith (fun t => { t with pends := [x] })
      s.live = true ∧ (s.strand 0).filed = true ∧ (s.strand 0).ctx.done = 0 ∧ (s.strand 0).pends = [] ++ x :: [] ∧ x.id = 7 ∧
      s.ready 7 = true ∧ s.badAt 0 x.pcs = none ∧ x.kind.isToken = false ∧ x.kind.isAtom = false ∧ x.known = [] ∧
      (s.strand 0).wait ≠ .actions := by decide

/-- Good data, and the old value of an atomic, that arrive while the strand runs and once its task is over. -/
theorem hyp_Arrivals3 :
    let p : Pend := ⟨7, .scalar 3 2 true, [.s 3], [], some [0x34#8, 0x92#8], false, none, 0, []⟩
    let q : Pend := ⟨7, .atom 3 2 0, [.s 3], [], some [0x34#8, 0x92#8], false, none, 0, []⟩
    ∀ w ∈ [Wait.actions, .none], ∀ x ∈ [p, q, { p with kind := .urs 0 [some 0xFF#8, none], vld := true }],
      let s := rigWith (fun t => { t with pends := [x], wait := w })
      s.live = true ∧ (s.strand 0).filed = true ∧ (s.strand 0).ctx.done = 0 ∧ (s.strand 0).pends = [] ++ x :: [] ∧ x.id = 7 ∧ x.err = none ∧
      s.ready 7 = true ∧ x.kind.isToken = false ∧ x.val = some [0x34#8, 0x92#8] ∧ (s.strand 0).wait = w := by decide

/-- An error that returns to a strand whose task is over, and to one whose task goes on. -/
theorem hyp_Arrivals2 :
    let e : Pend := ⟨7, .scalar 3 2 true, [.s 3], [], some [0x34#8, 0x92#8], false, some own, 0, []⟩
    ∀ w ∈ [Wait.actions, .none], let s := rigWith (fun t => { t with pends := [e], wait := w })
      s.live = true ∧ (s.strand 0).filed = true ∧ (s.strand 0).ctx.done = 0 ∧ (s.strand 0).pends = [] ++ e :: [] ∧ e.id = 7 ∧
      e.kind.isToken = false ∧ e.kind.isAtom = false ∧ SMap.rising s.regs = true ∧ (s.strand 0).wait = w := by decide

/-- 08 R177: a signed halfword. -/
theorem test_arrival :
    (after (exec (.loadDataArrival 0 7) (rigWith (fun t => { t with
      pends := [⟨7, .scalar 3 2 true, [.s 3], [], some [0x34#8, 0x92#8], false, none, 0, []⟩] })))).rs 3 = 0xFFFFFFFFFFFF9234#64 := by
  decide +kernel

/-- A command that may start, a loaded weight, a cleared accumulator, a family command under the trap action. -/
theorem hyp_MatrixEvents :
    (∀ x ∈ [xcmd 8 (some 4) false, xcmd 6 none true, xcmd 8 (some 4) true, xcmd 15 none true],
      (arrayRig x).live = true ∧ ((arrayRig x).core 0).mq = x :: [] ∧ x.par.getD 6 0 = 0 ∧ (arrayRig x).bad = [] ∧
      (x.op = 4 ∨ x.op = 5 → x.par.length ≤ 8) ∧
      (((arrayRig x).core 0).results.filter (fun r => r.moved.isNone)).length < 4 ∧ x.taint = []) ∧
    (let full := fun (pos : Option Nat) (run : RunState) => ({ rig with
        strands := [(0, { worker with run := run })],
        cores := [(0, { core0 with pos := pos, mq := [xcmd 8 (some 4) true], results := [1, 2, 3, 5].map (fun n => ⟨n, 0, [], none, none⟩) })] } : State)
     let out := full none .ready
     let here := full (some 0) .inPos
     Memory.wf out.mem = true ∧ ((out.core 0).results.filter (fun r => r.moved.isNone)).length = 4 ∧
       (out.core 0).results = [] ++ ⟨1, 0, [], none, none⟩ :: [2, 3, 5].map (fun n => ⟨n, 0, [], none, none⟩) ∧ out.inPos 0 = false ∧
       ∀ r ∈ (here.core 0).results, here.inPos r.strand = true) ∧
    (xcmd 15 none true).breaks = none ∧ coreOf (xcmd 15 none true).strand = 0 := by decide +kernel

/-- A result and a family command whose accumulator path had an error. -/
theorem hyp_MatrixEvents2 :
    (let x : XCmd := { xcmd 8 (some 4) true with lost := true }
     (arrayRig x).live = true ∧ ((arrayRig x).core 0).mq = x :: [] ∧ x.started = true ∧ x.lost = true ∧ x.taint = []) ∧
    (let x : XCmd := { xcmd 15 none true with lost := true }
     (arrayRig x).live = true ∧ ((arrayRig x).core 0).mq = x :: [] ∧ x.lat = none ∧ x.lost = true ∧ x.breaks = none) := by decide +kernel

/-- A braked strand without a buffered result, and a ready strand that owns the four of them; a command of a strand whose task is
aborted. -/
theorem hyp_MatrixEvents3 :
    (let s : State := { rig with
       strands := [(0, { worker with ctx := { lq := [⟨0, 0, 6, .result 9 []⟩] } }), (1, { worker with run := .ready })],
       cores := [(0, { core0 with mq := [xcmd 8 (some 4) true], results := [1, 2, 3, 5].map (fun n => ⟨n, 1, [], none, none⟩) })] }
     s.live = true ∧ (s.core 0).mq = xcmd 8 (some 4) true :: [] ∧ ((s.core 0).results.filter (fun r => r.moved.isNone)).length = 4 ∧
       s.ownerTurn 0 = some 1) ∧
    (let x := xcmd 15 none true
     let s : State := { arrayRig x with strands := [(0, { worker with abort := some ⟨0x21, 0, 64, 0#64, false⟩ })] }
     s.live = true ∧ (s.core 0).mq = x :: [] ∧ x.lat = none ∧ x.taint = [] ∧ (s.strand 0).abort.isSome = true) := by decide +kernel

/-- 10 R227: `mzero` leaves 18432 bytes of zero. -/
theorem test_mzero :
    (match (coreOne (exec (.matrixResultProduced 0) (arrayRig (xcmd 8 (some 4) true)))).results.map MRes.effs with
      | [[.urs 24576 ws]] => decide (ws.take 1 = [some (0xFF#8, 0#8)] ∧ ws.drop 18431 = [some (0xFF#8, 0#8)])
      | _ => false) = true := by decide +kernel

/-- Copies that may start, from the URS and from memory; copies that complete, to the URS, to memory, and with a token. -/
theorem hyp_CopyEvents :
    let u : CopyCmd := { idleCopy with id := 4, src := .urs 0, dst := .urs 1024, len := 64 }
    let m : CopyCmd := { idleCopy with id := 4, src := .mem own [⟨own, 2 ^ 40, 64, .own⟩], dst := .urs 1024, len := 64 }
    let fu : CopyCmd := { u with started := true, data := List.replicate 64 1#8, word := 64#64 }
    let fm : CopyCmd := { fu with dst := .mem own [⟨own, 2 ^ 40, 64, .own⟩] }
    let ft : CopyCmd := { fu with dst := .none, tok := 3 }
    (∀ x ∈ [u, m, fu, fm, ft], let s : State := { rig with cores := [(0, { core0 with copies := [x] })] }
      s.live = true ∧ 0 = coreOf x.strand ∧ (s.core 0).copies = [] ++ x :: [] ∧ x.op ≤ 1 ∧ (s.strand 0).filed = true ∧
      s.isPend 0 x.id (fun p => p.kind.isToken) = false ∧ x.word.toNat.testBit 63 = false ∧ s.badAt 0 [⟨own, 2 ^ 40, 64, .own⟩] = none ∧
      (s.strand 0).ursBad 0 64 = none ∧ s.inFlight 0 = [] ∧ s.ready 4 = true ∧ s.copyPeers x = [] ∧ (s.strand 0).pends = []) ∧
    (let p : CopyCmd := { m with src := .mem 0x10000 [⟨0x10000, 3 * 2 ^ 80, 64, .window⟩] }
     let s : State := { rig with cores := [(0, { core0 with copies := [p] })] }
     s.copyPeers p ≠ [] ∧ s.flights.any (fun f => f.id == 4) = false) ∧
    fm.data.length = 64 ∧ Memory.wf rig.mem = true := by decide +kernel

/-- The package with copies queued, and its strand changed. -/
def copyRig (l : List CopyCmd) (f : Strand → Strand := id) : State :=
  { rigWith f with cores := [(0, { core0 with copies := l })] }

/-- A copy of 64 bytes. -/
def cpy (op : Nat) (src dst : Endp) : CopyCmd :=
  { idleCopy with id := 4, op := op, src := src, dst := dst, len := 64, rows := 16, cols := 1 }

/-- A copy behind one whose request waits for allowance; each kind of source, sound, unbound, of another format and with an error;
prefetches. -/
theorem hyp_CopyEvents2 :
    let u := Endp.urs 0
    let v := Endp.mem own [⟨own, 2 ^ 40, 64, .own⟩]
    let w := Endp.mem 0x10000 [⟨0x10000, 0x10000, 64, .cached⟩]
    let t := fun h => Endp.tens h 0 0
    (let y := { cpy 0 v u with id := 3 }
     let x := cpy 0 v u
     let s : State := { copyRig [y, x] with flights := [⟨3, 3, 0⟩], ports := [(0, { wait := [(3, [])] })] }
     s.live = true ∧ (s.core 0).copies = [y] ++ x :: [] ∧ y.id ≠ x.id ∧ s.ready 4 = true ∧ s.ready 3 = false ∧ y.started = false) ∧
    (∀ x ∈ [cpy 0 u v, cpy 0 v u, cpy 0 (t 8) u, cpy 0 (t 9) u, cpy 0 (t 6) u, cpy 0 (t 7) u, cpy 0 u (t 6), cpy 0 v (t 7),
        cpy 2 .none .none, cpy 2 u .none, cpy 2 v .none, cpy 2 w .none, cpy 2 (t 6) .none],
      let s := copyRig [x]
      s.live = true ∧ (s.core 0).copies = [] ++ x :: [] ∧ s.ready 4 = true ∧ s.copyPeers x = [] ∧ s.bad = [] ∧ s.tiles = []) ∧
    ((rig.lay 5 8).map (fun l => (l.fc, l.cached)) = some (0, false) ∧ (rig.lay 5 9).map (fun l => (l.fc, l.cached)) = some (0, true) ∧
      rig.lay 5 6 = none ∧ (rig.lay 5 7).map Lay.fc = some 0xA0) ∧
    (inAperture own = true ∧ inAperture 0x10000 = false) ∧
    ((copyRig [cpy 0 u v] (fun t => { t with errs := [(.urs 8 8, 0x121, noAddr)] })).me.ursBad 0 64 = some 8) ∧
    ({ rig with bad := [(2 ^ 40 + 8, 1)] } : State).badAt 0 [⟨own, 2 ^ 40, 64, .own⟩] = some (8, own + 8) := by decide +kernel

/-- A copy of 8 bytes that completes. -/
def fin (d : Endp) (w : W64) : CopyCmd :=
  { cpy 0 (.urs 0) d with started := true, data := List.replicate 8 1#8, word := w, rows := 1, cols := 2 }

/-- A completion word that reports an error after 4 bytes. -/
def cutWord : W64 := BitVec.ofNat 64 (2 ^ 63 + 0x21 * 2 ^ 48 + 4)

/-- Copies that complete: whole and cut short, to each kind of destination, posted and with a token. -/
theorem hyp_CopyEvents3 :
    let tk : Pend := ⟨4, .token 3, [.s 3], [], none, false, none, 0, []⟩
    (∀ x ∈ [fin (.urs 1024) 8#64, fin (.mem own [⟨own, 2 ^ 40, 8, .own⟩]) 8#64, fin (.tens 8 0 0) 8#64, fin (.tens 9 0 0) 8#64,
        fin (.urs 1024) cutWord, fin (.mem own [⟨own, 2 ^ 40, 8, .own⟩]) cutWord],
      let s := copyRig [x]
      let z := copyRig [x] (fun t => { t with pends := [tk] })
      (s.core 0).copies = [] ++ x :: [] ∧ s.ready 4 = true ∧ s.inFlight 0 = [] ∧ s.isPend 0 4 (fun p => p.kind.isToken) = false ∧
      (z.core 0).copies = [] ++ x :: [] ∧ z.ready 4 = true ∧ z.inFlight 0 = [] ∧ z.me.pends = [] ++ tk :: [] ∧
      s.copyAsks x = [] ∧ z.copyAsks x = []) := by decide

/-- The package with handle 40 bound to a tensor of a peer. -/
def peered (s : State) : State :=
  { s with fabric := [⟨5, 40, 9, 1, 3⟩], peerLay := [(3, 1, 9, record 0x00 0 0x3000000 16 16 0)] }

/-- A copy into part of a tile of a peer that its cluster's tile cache does not hold. -/
theorem hyp_CopyEvents5 :
    let x := fin (.tens 40 0 0) 8#64
    let s := peered (copyRig [x])
    s.live = true ∧ (s.core 0).copies = [] ++ x :: [] ∧ s.ready 4 = true ∧ x.started = true ∧ s.copyAsks x ≠ [] := by decide +kernel

theorem hyp_CopyEvents4 :
    let s := copyRig [fin (.tens 8 0 0) 8#64]
    s.live = true ∧ s.me.filed = true ∧ SMap.rising s.regs = true ∧ Memory.wf s.mem = true ∧ (fin (.tens 8 0 0) 8#64).data.length = 8 ∧
    (cutWord.toNat.testBit 63 = true ∧ cutWord.toNat % 2 ^ 23 = 4 ∧ (8#64).toNat.testBit 63 = false) ∧
    (let l := layOf none (record 0x00 1 0x2000000 2 15 6)
     let x := fin (.tens 8 0 0) 8#64
     let ps := (x.poss 0 0).take (8 * 8 / itemBits l.fc)
     let at0 := fun (p : Pos) => 8 * (l.place p).1 + (l.place p).2
     rig.lay 5 8 = some l ∧ (unpackItems l.fc 2 x.data).length = ps.length ∧ ps.length = 2 ∧ (ps.filter l.inside).length = 2 ∧
       (ps.filter l.inside).Pairwise (fun p q => at0 p + itemBits l.fc ≤ at0 q ∨ at0 q + itemBits l.fc ≤ at0 p)) := by decide +kernel

/-- 09 R210, R212: the token takes the completion word, the bytes moved. -/
theorem test_copy_token :
    (after (exec (.copyCompletion 0 4) { rigWith (fun t => { t with pends := [⟨4, .token 3, [.s 3], [], none, false, none, 0, []⟩] }) with
      cores := [(0, { core0 with copies := [{ idleCopy with id := 4, tok := 3, started := true, len := 64, word := 64#64 }] })] })).rs 3 =
        64#64 := by decide +kernel

/-- A near-memory command. -/
def nmc (op phase : Nat) (ps : List Piece) (bs : List Byte) : NmCmd :=
  { id := 4, strand := 0, part := 5, op := op, tok := 0, par := [7, 1], pcs := ps, data := bs, phase := phase, word := 0#64 }

/-- The package with a near-memory command. -/
def nmRig (x : NmCmd) : State := { rig with cores := [(0, { core0 with nmq := [x] })] }

/-- Each kind of command before it is performed, one that completes, and a permit in each of its phases. -/
theorem hyp_NearMemoryEvents :
    let red := nmc 2 1 [⟨0x20000, 0x20000, 1024, .ms⟩] (List.replicate 1024 1#8)
    (∀ x ∈ [nmc 0 1 [⟨0x2000000800000000 % 2 ^ 57, 0x2000000, 60, .ms⟩] (List.replicate 60 0#8), red, nmc 4 1 [] [], nmc 5 1 [] [], nmc 4 2 [] []],
      (nmRig x).live = true ∧ 0 = coreOf x.strand ∧ ((nmRig x).core 0).nmq = x :: [] ∧ (nmRig x).replays = [] ∧
      (nmRig x).badAt 0 x.pcs = none ∧ ((nmRig x).strand 0).filed = true ∧ (∀ p ∈ ((nmRig x).strand 0).pends, piecesMeet p.pcs x.pcs = false)) ∧
    (rig.ready 4 = true ∧ (rig.lay 5 (epHandle 0)).bind Lay.peer = none) ∧
    red.data.length = 1024 ∧ Memory.wf rig.mem = true ∧ ((5, 7) ∉ rig.sweeps ∧ rig.sweeps.length < 256) ∧
    ((5, 7) ∈ ({ rig with sweeps := [(5, 7)] } : State).sweeps) ∧
    (∀ f ∈ [1, 2], SMap.get [] ({ rig with permits := [(0, [nmc 8 f [] []])] } : State).permits (0 * 32 + 0) = nmc 8 f [] [] :: []) ∧
    SMap.get [] rig.tiles (cluOf 0) = [] := by decide +kernel

/-- A row command on `ps`, and the package with it and some memory. -/
def rowCmd (op : Nat) (par : List Nat) (ps : List Piece) (n : Nat) : NmCmd :=
  { nmc op 1 ps (List.replicate n 0#8) with par := par }
def rowRig (x : NmCmd) (m : List (Nat × Byte)) : State := { nmRig x with mem := m }

/-- A place in a row, and one beside it. -/
def rowAt (n : Nat) : Piece := ⟨0x40000, 0x40000, n, .ms⟩
def momAt (n : Nat) : Piece := ⟨0x48000, 0x48000, n, .ms⟩

/-- Each row command: an exchange of an image, a sum of dense and of block elements, an addition of values to stamped blocks that are
well formed, malformed and beyond the horizon, a merge, and an optimizer step. -/
theorem hyp_NearMemoryEvents2 :
    let blk := leBytes 64 0x7FA0
    (∀ e ∈ [(rowCmd 0 [7, 0, 3, 0, 0, 0, 0x10, 16] [rowAt 32] 32, []), (rowCmd 0 [7, 0, 0, 1, 0, 0, 0x10, 16] [rowAt 32] 64, []),
        (rowCmd 0 [7, 0, 0, 1, 0, 0, 0x11, 30] [rowAt 64] 120, []), (rowCmd 1 [7, 0, 0, 1, 5, 0, 0xA0, 15, 0] [rowAt 64] 60, cells 0x40000 blk),
        (rowCmd 1 [7, 0, 0, 1, 5, 0, 0xA0, 15, 0] [rowAt 64] 60, []),
        (rowCmd 1 [7, 0, 0, 1, 40000, 0, 0xA0, 15, 0] [rowAt 64] 60, cells 0x40000 blk),
        (rowCmd 1 [7, 0, 0, 0, 5, 0, 0xA0, 15, 0] [rowAt 64] 64, cells 0x40000 blk),
        (rowCmd 3 [7, 0, 0, 0, 0, 0, 0x10, 16, 0, 0x00] [rowAt 32, momAt 64] 128, [])],
      let x := e.1
      let s := rowRig x (e.2.filter (fun c => c.2 != 0#8))
      s.live = true ∧ 0 = coreOf x.strand ∧ (s.core 0).nmq = x :: [] ∧ x.phase = 1 ∧ x.op ≤ 5 ∧ s.replays = [] ∧ s.badAt 0 x.pcs = none ∧
      s.me.outs = [] ∧ s.me.pends = [] ∧ Memory.wf s.mem = true) := by decide +kernel

/-- The formats of those rows, and what their blocks and stamps are. -/
theorem hyp_NearMemoryEvents3 :
    let blk := leBytes 64 0x7FA0
    (fcDense 0x10 = true ∧ (typeFmt (fcType 0x10)).isSome ∧ fcWidth 0x10 = 8 * 2 ∧ fcDense 0x00 = true ∧ (typeFmt (fcType 0x00)).isSome ∧
      fcWidth 0x00 = 8 * 4 ∧ fcBlock 0x11 = true ∧ (typeFmt (fcType 0x11)).isSome ∧ 30 = fcPer 0x11 * 1 ∧ fcStamped 0xA0 = true ∧
      15 = fcPer 0xA0 * 1) ∧
    (fwMalformed 0xA0 blk = false ∧ blkStamp blk = 0 ∧ classify 5 0 ≠ .horizon ∧ classify 40000 0 = .horizon ∧ pairFar 5 0 0 = false ∧
      pairFar 0 4096 (65536 - 32767) = true ∧ fwMalformed 0xA0 (List.replicate 64 0#8) = true ∧ (5 + 65536 - 0 % 65536) % 65536 < 32768) ∧
    (0x40000 + 32 ≤ 0x48000) := by decide +kernel

/-- Permits in their last phase: a load of one tile of tensor 9 into vault 0 and a store of one place of tensor 8 from it, posted and
with a token, and one of a handle that is not bound. -/
theorem hyp_NearMemoryEvents4 :
    let tk : Pend := ⟨4, .token 3, [.s 3], [], none, false, none, 0, []⟩
    let per := fun (dir ep sh z : Nat) => ({ nmc 8 2 [] [] with par := [0, dir, 1, 1, ep, sh, 0, 0, 1, 1, z] } : NmCmd)
    let at0 := fun (x : NmCmd) (p : List Pend) => ({ rigWith (fun t => { t with pends := p }) with permits := [(0, [x])] } : State)
    let ld := per 1 0x2000000900000000 0x100010 1024
    let st := per 2 0x2000000800000000 0x10001 4
    let er := per 1 0x2000000600000000 0x100010 1024
    (∀ x ∈ [ld, st, er], ∀ p ∈ [[], [tk]], let s := at0 x p
      s.live = true ∧ SMap.get [] s.permits (0 * 32 + 0) = x :: [] ∧ s.ready 4 = true ∧ s.bad = [] ∧ SMap.get [] s.tiles 0 = [] ∧
      s.me.filed = true ∧ s.isPend 0 4 (fun p => p.kind.isToken) = !p.isEmpty) ∧
    (∃ l, copyLay rig 5 (epHandle 0x2000000900000000) (shFc 0x100010) = .ok l) ∧
    (∃ l, copyLay rig 5 (epHandle 0x2000000800000000) (shFc 0x10001) = .ok l ∧ 8 ≤ itemBits l.fc ∧
      permitPoss st 0 = [⟨0, 0, 0, 0⟩] ∧ l.inside ⟨0, 0, 0, 0⟩ = true) ∧
    copyLay rig 5 (epHandle 0x2000000600000000) (shFc 0x100010) = .error 0x30 ∧ maskClusters 0 1 = [0] :=
  ⟨by decide, ⟨_, rfl⟩, ⟨_, rfl, by decide, by decide, by decide⟩, by rfl, by decide⟩

/-- 16 R340: integer addition of words, 1 + 0x01010101. -/
theorem test_nm_red :
    (match exec (.nmCommandExecute 0 4) { nmRig { nmc 2 1 [⟨0x20000, 0x20000, 1024, .ms⟩] (List.replicate 1024 1#8) with par := [1] } with
        mem := cells 0x20000 [1#8] } with
      | .next t => t.memNat 0x20000 4 | _ => 0) = 0x01010102 := by decide +kernel

-- Tasks.

/-- A dependence-table entry of partition 5. -/
def dent (st : Nat) : DEnt :=
  { loc := 0x10000, va := 0x10000, part := 5, seq := 1, graph := 3, prio := 2, clu := 0, pinned := false, regions := [], st := st,
    held := true, staged := true }

/-- A spawn of the record at 0x10000, some bytes of which are not zero. -/
def spawnRig (m : List (Nat × Byte)) : State :=
  { rigWith (fun t => { t with pends := [⟨4, .token 3, [.s 3], [], none, false, none, 0, []⟩] }) with
    cores := [(0, { core0 with nmq := [{ nmc 6 1 [⟨0x10000, 0x10000, 512, .ms⟩] [] with tok := 3 }] })]
    mem := m }

/-- Partition 5 enabled on core 0, with a task that waits in cluster 0; strand 1 is idle. -/
def dispRig : State :=
  { rig with
    regs := SMap.set 0#64 rig.regs (0x40000 + 64 * 5) 1#64
    cores := [(0, { core0 with entered := true })]
    deps := [(0, [dent 2])]
    queues := [(0, [⟨0x10000, 5, 2, 0⟩])]
    mem := cells 0x10008 [0x21#8] ++ cells 0x10030 [3#8] }

/-- A record that is registered already, a malformed one and a fresh one; a waiting entry; a task to dispatch. -/
theorem hyp_TaskEvents :
    (∀ s ∈ [spawnRig [(0x10014, 2#8)], spawnRig [(0x10015, 16#8)], spawnRig []],
      s.live = true ∧ Memory.wf s.mem = true ∧ s.replays = [] ∧ s.bad = [] ∧ (s.strand 0).filed = true ∧
      (s.findNm 4).map NmCmd.tok = some 3 ∧ (s.core 0).nmq.length = 1 ∧ (s.strand 0).pends = [] ++ ⟨4, .token 3, [.s 3], [], none, false, none, 0, []⟩ :: []) ∧
    (spawnRig [(0x10014, 2#8)]).memNat (0x10000 + 20) 1 ≠ 0 ∧
    ((spawnRig [(0x10015, 16#8)]).memNat (0x10000 + 20) 1 = 0 ∧ recOf ((spawnRig [(0x10015, 16#8)]).memRead 0x10000 512) = none) ∧
    ((spawnRig []).memNat (0x10000 + 20) 1 = 0 ∧ (recOf ((spawnRig []).memRead 0x10000 512)).map Rec.join = some 0) ∧
    ({ rig with deps := [(0, [{ dent 2 with held := false }])] } : State).nextEntry 0 = some { dent 2 with held := false } ∧
    dispRig.nextDispatch 0 = some (5, (0, ⟨0x10000, 5, 2, 0⟩, dent 2), 1) ∧
    (∀ i < 8, (dispRig.rp (8 * dieOf 1 + i) 8).testBit 0 = false) ∧ rig.dieAwake 0 = true ∧
    (dispRig.queues = [(0, [⟨0x10000, 5, 2, 0⟩])] ∧ (spawnRig []).queues = []) := by decide +kernel

/-- A record to dispatch whose check is wrong. -/
theorem hyp_TaskEvents2 :
    let s : State := { dispRig with bad := [(0x10000, 64)] }
    s.live = true ∧ Memory.wf s.mem = true ∧ s.nextDispatch 0 = some (5, (0, ⟨0x10000, 5, 2, 0⟩, dent 2), 1) ∧
    (s.badAt 0 [⟨0x10000, 0x10000, 64, .ms⟩]).isSome = true ∧ (∀ i < 8, (s.rp (8 * dieOf 1 + i) 8).testBit 0 = false) := by
  decide +kernel

/-- 13 R279: the first sequence number of the partition is 0; 13 R282: the task starts at CODE with FRAME in s1. -/
theorem test_task_starts :
    (after (exec (.taskRegistration 4) (spawnRig []))).rs 3 = 0#64 ∧
    (after (exec (.taskRegistration 4) (spawnRig [(0x10014, 2#8)]))).rs 3 = 0x8040000000000000#64 ∧
    (match exec (.dispatch 0) dispRig with
      | .next t => decide ((t.strand 1).rs 1 = 0x21#64 ∧ (t.strand 1).rs 2 = 0x10000#64 ∧ (t.strand 1).rs 3 = 3#64 ∧ t.memRead 0x10014 1 = [3#8])
      | _ => false) = true := by decide +kernel

/-- The package with its strand at an edge of its task. -/
def edgeRig (cursor : W128) (rs : List Region) (js : List (Nat × Nat)) : State :=
  { rigWith (fun t => { t with run := .blocked, wait := .actions, cursor := cursor, regions := rs, joins := js }) with edgeQ := [0] }

/-- A readable and writable linear region. -/
def lin : Region := { kind := 1, acc := 3, base := 0x10000, len := 64 }

/-- A replay of strand 0 in slot 0: two passes, of which the first ends, the second, and a run without replay. -/
def replayRig (r : Replay) : State :=
  { edgeRig 2#128 [] [] with
    regs := SMap.set 0#64 rig.regs 0x63008 0x0000000500000021#64
    replays := [(0, r)]
    edgeQ := [] }

/-- The package in the second phase of an end, with a dirty line of the cache. -/
def dirtyRig (l : DLine) : State := { edgeRig (mkCursor 3 0 0 0) [lin] [] with cores := [(0, { core0 with dc := [l] })] }

/-- The start; the four phases of the end, with a join that does not and one that does make its record ready; an abort. -/
theorem hyp_TaskEdges :
    let st := edgeRig 1#128 [lin] []
    let e2 := edgeRig 2#128 [lin] []
    let e3 := edgeRig (mkCursor 3 12 0 0) [lin] []
    let j2 := { edgeRig (mkCursor 4 0 0 0) [] [(0x50000, 0x50000)] with mem := cells 0x50010 [2#8] }
    let j1 := { edgeRig (mkCursor 4 0 0 0) [] [(0x50000, 0x50000)] with mem := [(0x50010, 1#8), (0x50014, 1#8)] }
    let e4 := edgeRig (mkCursor 4 0 0 0) [] []
    let ab := rigWith (fun t => { t with abort := some ⟨0x11, 0, 64, 0#64, false⟩ })
    let rp := fun p o => replayRig { strand := 0, pass := p, hash := 0#64, nret := 0, differ := none, once := o }
    (∀ s ∈ [st, e2, e3, j2, j1, e4, ab, rp 1 false, rp 2 false, rp 1 true], s.live = true ∧ (s.strand 0).pends = [] ∧ Memory.wf s.mem = true ∧ (s.strand 0).task.isSome = true ∧
      (s.reg (cluOf 0 / 18) (trBlock (cluOf 0) + 32)).testBit 0 = false ∧ SMap.rising s.regs = true) ∧
    (∀ s ∈ [st, e2, e3, j2, j1, e4, rp 1 false], (s.strand 0).abort = none) ∧
    [st, e2, e3, j2, e4, rp 1 false].map (fun s => (s.strand 0).ph) = [1, 2, 3, 4, 4, 2] ∧
    ((e3.strand 0).rix = 12 ∧ (e3.strand 0).regions.getLast? = some lin ∧ e3.edgeNext 0 5 lin (e3.strand 0).tcur = none) ∧
    (∀ s ∈ [j2, j1], (s.strand 0).joins[(s.strand 0).jix]? = some (0x50000, 0x50000) ∧ (s.strand 0).jix < 255) ∧
    (j2.memNat (0x50000 + 16) 4 = 2 ∧ j1.memNat (0x50000 + 16) 4 = 1 ∧ j1.memNat (0x50000 + 20) 1 = 1) ∧
    ((e4.strand 0).joins[(e4.strand 0).jix]? = none ∧ e4.replayAny 0 = none) ∧ (ab.busyCmds 0 = false ∧ ab.outsReady 0 = true ∧ ab.replayAny 0 = none) ∧
    ((rp 1 false).replayAny 0).isSome = true ∧ ((rp 1 false).rp 0 8) / 2 ^ 4 % 8 = 2 := by decide +kernel

/-- The first tile of tensor 9, and a region that holds it. -/
def tile (fwd : Option Nat) (bad : Nat) : TLine := ⟨5, 9, 0, 0, 0, 0, List.replicate 512 1#8, 3, fwd, bad⟩
def tiled (fwd : Bool) : Region := { kind := 0, acc := 3, fwd := fwd, handle := 9, rows := 16, cols := 16, n2 := 1, n3 := 1 }
def emptyFrame : Region := { kind := 1, acc := 3 }

/-- The package at an edge of the task, with that tile in its cluster's cache and a consumer of it in the table. -/
def tileRig (cursor : W128) (z : TLine) (r : Region) (js : List (Nat × Nat)) (es : List DEnt) : State :=
  { edgeRig cursor [r, emptyFrame] js with tiles := [(0, [z])], deps := [(0, es)] }

/-- The consumer. -/
def consumer (st : Nat) : DEnt := { dent st with loc := 0x50000, seq := 2, regions := [tiled true] }

/-- A tile at the start, forwarded to the task and not; at the end, whole and with an error, forwarded to no one, to a task of
the join list, and to one that is past its start; an error due in the regions; a region, a task without regions. -/
theorem hyp_TaskEdges2 :
    let l := layOf none (record 0x00 0 0x3000000 16 16 0)
    let k := fun (z : TLine) (r : Region) (j : List (Nat × Nat)) (e : List DEnt) => tileRig (mkCursor 3 0 0 0) z r j e
    (∀ s ∈ [tileRig 1#128 (tile none 0) (tiled false) [] [], tileRig 1#128 (tile (some 1) 0) (tiled false) [] [],
        k (tile none 0) (tiled false) [] [], k (tile none 1) (tiled false) [] [], k (tile none 0) (tiled true) [(0x50000, 0x50000)] [consumer 2],
        k (tile none 0) (tiled true) [(0x50000, 0x50000)] [consumer 3]],
      s.live = true ∧ Memory.wf s.mem = true ∧ s.edgeQ.find? (fun h => cluOf h == cluOf 0) = some 0 ∧ s.tilesSent 0 = true ∧
      (s.strand 0).abort = none ∧ (s.strand 0).due = none ∧ (s.strand 0).task.map Task.seq = some 1 ∧ s.lay 5 9 = some l ∧ s.tileOut = []) ∧
    ([(1#128), mkCursor 3 0 0 0].map (fun c => ((tileRig c (tile none 0) (tiled false) [] []).strand 0).ph) = [1, 3] ∧
      ((tileRig 1#128 (tile none 0) (tiled false) [] []).strand 0).regions = [tiled false, emptyFrame]) ∧
    rig.tileMeets 5 (tiled false) (tile none 0) = true ∧
    (∀ b ∈ [0, 1], (k (tile none b) (tiled false) [] []).edgeNext 0 5 (tiled false) 0 = some (0, .inr (tile none b))) ∧
    (3 &&& 1 ≠ 0 ∧ l.peer = none ∧ l.ms = false ∧ (tile none 0).bytes.length = 512 ∧ (tile none 0).dirty &&& (tile none 0).bad = 0) ∧
    ((k (tile none 0) (tiled true) [(0x50000, 0x50000)] [consumer 2]).dep 0 0x50000 = some (consumer 2) ∧ (consumer 2).clu < 18 ∧
      (consumer 2).st ≤ 2 ∧ ¬(consumer 3).st ≤ 2 ∧ (consumer 2).part = 5) := by decide +kernel

theorem hyp_TaskEdges3 :
    let l := layOf none (record 0x00 0 0x3000000 16 16 0)
    (∀ b < 512, l.byteMask ⟨0, 0, 0, 0⟩ b = 255) ∧
    (let s := edgeRig (mkCursor 3 0 0 0) [lin, emptyFrame] []
     let f := edgeRig 2#128 [emptyFrame] []
     let d : State := { s with strands := [(0, { s.strand 0 with due := some (0x21, 64) })] }
     (s.strand 0).rix = 0 ∧ (s.strand 0).rix + 2 = (s.strand 0).regions.length ∧ s.edgeNext 0 5 lin 0 = none ∧ (f.strand 0).regions.length = 1 ∧
       (f.strand 0).ph = 2 ∧ (d.strand 0).due = some (0x21, 64) ∧ (d.strand 0).ph = 3 ∧ (d.strand 0).outs = [] ∧ d.tilesSent 0 = true) ∧
    (edgeRig (mkCursor 4 0 0 0) [] [(0x50000, 0x50000)]).keyBad 0x50000 64 = false := by decide +kernel

/-- A start whose cost table a peer has sent, one that waits for it, and one that begins a replay without and with a capture to wait for;
a replay whose working set lies at a peer that has not been asked for it, and has sent it. -/
theorem hyp_TaskEdges4 :
    let start := fun (as : List (Nat × Nat)) => ({ edgeRig 1#128 [lin] [] with
      strands := [(0, { (edgeRig 1#128 [lin] []).strand 0 with asks := as })] } : State)
    let late : State := { start [(0x50000, 9)] with flights := [⟨9, 3, 0⟩], ports := [(0, { wait := [(9, [])] })] }
    let far : Region := { kind := 0, acc := 3, handle := 40, rows := 16, cols := 16, n2 := 1, n3 := 1 }
    let rp := fun (as : List (Nat × Nat)) =>
      let s := withRegs [(0x98000 + 8 * 3, 0x100), (0x91008, 3)]
        (peered (replayRig { strand := 0, pass := 1, hash := 0#64, nret := 0, differ := none, once := false }))
      ({ s with strands := [(0, { s.strand 0 with regions := [far], asks := as })] } : State)
    let cap := fun w => ({ edgeRig 1#128 [lin] [] with
      regs := SMap.set 0#64 rig.regs 0x63008 0x0000000500000021#64
      replays := [(0, { strand := 0, pass := 1, hash := 0#64, nret := 0, differ := none, once := false, waits := w })] } : State)
    (∀ s ∈ [start [], start [(0x50000, 9)], cap false], s.startReady 0 = true ∧ s.live = true ∧ (s.strand 0).ph = 1 ∧ (s.strand 0).abort = none ∧
      s.edgeQ.find? (fun h => cluOf h == cluOf 0) = some 0) ∧
    (start []).replayOf 0 = none ∧ ((cap false).replayOf 0).map (fun e => e.2.waits) = some false ∧ late.startReady 0 = false ∧
    ((rp []).farAsked 0 5 [far] = false ∧ (rp [(noAddr, 9)]).farAsked 0 5 [far] = true) ∧
    (∀ s ∈ [rp [], rp [(noAddr, 9)]], s.live = true ∧ (s.strand 0).ph = 2 ∧ (s.strand 0).abort = none ∧ 0 ∉ s.edgeQ ∧ s.outsReady 0 = true ∧
      s.bad = [] ∧ (s.strand 0).due = none ∧ (s.replayAny 0).map (fun e => e.2.pass) = some 1 ∧ s.rp 0 8 / 2 ^ 4 % 8 = 2) ∧
    (edgeRig (mkCursor 4 0 0 0) [] [(0x50000, 0x50000)]).queues = [] := by decide +kernel

/-- A strand whose edge is the next of its cluster, and one whose edge is not; an error met before; a dirty line of its region,
sound and not; a replay in its first and its last pass, one that runs once without, and one whose passes are over. -/
theorem hyp_TaskEdgesFlush :
    let rp := fun p o => replayRig { strand := 0, pass := p, hash := 0#64, nret := 0, differ := none, once := o }
    let rl := replayRig { strand := 0, pass := 2, hash := 0#64, nret := 0, differ := none, once := false, ended := true }
    let ln : DLine := { part := 5, va := 0x10000, key := 0x10000, bytes := List.replicate 64 1#8, dirty := 3, writer := 0 }
    let du := { edgeRig 2#128 [] [] with strands := [(0, { (edgeRig 2#128 [] []).strand 0 with due := some (0x21, 64) })] }
    let ot := { edgeRig 1#128 [lin] [] with edgeQ := [1, 0] }
    let dl := dirtyRig ln
    let db := dirtyRig { ln with bad := 1 }
    (∀ s ∈ [du, ot, dl, db, rl], s.live = true ∧ Memory.wf s.mem = true ∧ (s.strand 0).task.isSome = true ∧
      (s.strand 0).abort = none ∧ SMap.rising s.regs = true) ∧
    (∀ s ∈ [edgeRig 1#128 [lin] [], edgeRig (mkCursor 4 0 0 0) [] [(0x50000, 0x50000)], du, dl, db], s.edgeQ.find? (fun h => cluOf h == cluOf 0) = some 0 ∧ s.outsReady 0 = true ∧ s.tilesSent 0 = true) ∧
    (ot.edgeQ.find? (fun h => cluOf h == cluOf 0) = some 1 ∧ ([] : List Out).Pairwise (fun a b => a.id < b.id)) ∧
    (∀ s ∈ [dl, db], (s.strand 0).regions[(s.strand 0).rix]? = some lin ∧ (s.strand 0).tcur = 0 ∧ (s.strand 0).due = none) ∧
    (dl.edgeNext 0 5 lin 0 = some (0, .inl ln) ∧ ln.dirty &&& ln.bad = 0 ∧ ln.bytes.length = 64 ∧
      db.edgeNext 0 5 lin 0 = some (0, .inl { ln with bad := 1 }) ∧ 3 &&& 1 ≠ 0) ∧
    (∀ s ∈ [rp 1 false, rp 2 false, rp 1 true, rl], 0 ∉ s.edgeQ ∧ s.outsReady 0 = true ∧ (s.strand 0).outs = [] ∧ (s.strand 0).due = none) := by decide +kernel

/-- 14 R297, 13 R280: the last join makes its record ready and queues it; the others count down; 14 R303: STATE 5. -/
theorem test_task_edges :
    (match exec (.endOfTaskActions 0) { edgeRig (mkCursor 4 0 0 0) [] [(0x50000, 0x50000)] with mem := [(0x50010, 1#8), (0x50014, 1#8)] } with
      | .next t => decide ((SMap.get [] t.queues 0).map QEnt.loc = [0x50000] ∧ (t.strand 0).jix = 1) | _ => false) = true ∧
    (match exec (.endOfTaskActions 0) { edgeRig (mkCursor 4 0 0 0) [] [(0x50000, 0x50000)] with mem := cells 0x50010 [2#8] } with
      | .next t => t.memNat 0x50010 4 | _ => 0) = 1 ∧
    (match exec (.taskAbort 0) (rigWith (fun t => { t with abort := some ⟨0x11, 0, 64, 0#64, false⟩ })) with
      | .next t => decide (t.memRead 0x40014 1 = [5#8] ∧ (SMap.get [] t.faults 0).map FaultRec.tcr = [0x11#64])
      | _ => false) = true := by decide +kernel

-- Streams.

/-- The address of vault 0 in the aperture. -/
def vault0 : Nat := 0x1FFFFFF00000000

/-- Stream 0 of die 0: a ring of 4096 bytes in vault 0 with `n` words written, enabled for partition 5. -/
def streamRig (ws : List Nat) (n : Nat) (mem : List (Nat × Byte)) : State :=
  let rs := [(0x10000, vault0), (0x10008, 4096), (0x10018, 8 * n), (0x10020, 0x105), (0x40000 + 64 * 5, 1)]
  { rig with
    regs := rs.foldl (fun m e => SMap.set 0#64 m e.1 (BitVec.ofNat 64 e.2)) rig.regs
    mem := cells (2 ^ 40) (ws.flatMap (fun w => leBytes 8 w)) ++ mem }

/-- Address of a record and of a word of vault 0, and what it has one of. -/
def vrec : Nat := vault0 + 0x2000
def vword : Nat := vault0 + 0x1000
/-- The word, 2. -/
def two : List (Nat × Byte) := [(2 ^ 40 + 0x1000, 2#8)]

/-- The commands as words. -/
def cmds : List (List Nat) :=
  [[0x100], [0x201, vrec], [0x302 + 4 * 65536, vrec, vword], [0x302 + 1 * 65536, vrec, vword], [0x203 + 2 * 65536, 3], [0x203 + 2 * 65536, 0],
   [0x203 + (2 + 65536) * 65536, vword], [0x304 + (0 + 65536) * 65536, vword, 2], [0x304 + (1 + 65536) * 65536, vword, 2],
   [0x305 + 5 * 65536, vword, 2], [0x305 + 4 * 65536, vword, 2], [0x106 + 3 * 65536], [0x307, vword, 0x1234], [0x208, vrec],
   [0x109 + 3 * 65536], [0x109 + (3 + 2 ^ 32) * 65536]]

/-- What each decodes to. -/
def decoded : List Instr :=
  let r := BitVec.ofNat 64 vrec
  let w := BitVec.ofNat 64 vword
  [.streamNop 0 0, .launch 0 0 r, .launchn 0 0 4 r w, .launchn 0 0 1 r w, .streamLoop 0 0 2 0 3, .streamLoop 0 0 2 0 0, .streamLoop 0 0 2 1 w,
   .streamSkip 0 0 0 1 w 2, .streamSkip 0 0 1 1 w 2, .waitv 0 0 5 w 2, .waitv 0 0 4 w 2, .waitg 0 0 3, .streamWrite 0 0 w 0x1234,
   .streamJoin 0 0 r, .disposeTakedown 0 0 3, .disposeRelease 0 0 3]

/-- 15 R320: each command stands whole at CSRD and is decoded from its words; the word and the record are reached, and an
address of a vault that no package has is not. -/
theorem hyp_StreamEvents :
    (∀ x ∈ cmds.zip decoded, let s := streamRig x.1 4 two
      SMap.rising s.regs = true ∧ s.csLoops 0 0 = [] ∧ s.csNext 0 0 = .cmd x.2) ∧
    (let s := streamRig [0x100] 4 two;
      s.csWord 5 vword = some 2 ∧ s.csRecord 5 vrec = some (2 ^ 40 + 0x2000) ∧ s.csRecords 5 2 vrec = some [(2 ^ 40 + 0x2000, vrec), (2 ^ 40 + 0x2200, vrec + 512)] ∧
      s.csWord 5 (vault0 + 100 * 2 ^ 24) = none ∧ s.ringAvail 0 0 = 4 ∧
      s.csPieces 5 vword 8 2 = some [⟨vword, 2 ^ 40 + 0x1000, 8, .lateral⟩]) ∧
    (∀ n ∈ [2, 4, 5], (streamRig [0x100] n []).ringAvail 0 0 = n) ∧
    (∀ st ∈ [1, 2, 3, 5], ({ rig with deps := [(0, [dent st])] } : State).graphOf 0 5 3 = [dent st]) ∧
    ({ rigWith (fun t => { t with task := some { loc := 0x10000, va := 0x10000, part := 5, graph := 3, seq := 1, prio := 0, tail := 0 } })
        with deps := [(0, [dent 3])] } : State).liveStrand (dent 3) = some 0 := by decide +kernel

/-- The read pointer and the status of the stream after an instruction. -/
def stream (i : Instr) (s : State) : Nat × Nat := match exec i s with | .next t => (t.cs 0 0 16, t.cs 0 0 40) | _ => (0, 0)

/-- 15 R320: a WRITE stores its word and CSRD passes three words; too many records give 0x52; a SKIP whose condition holds
passes its target; a WAITV that does not hold waits. -/
theorem test_stream :
    (match exec (.streamWrite 0 0 (BitVec.ofNat 64 vword) 0x1234) (streamRig [0x307, vword, 0x1234] 3 []) with
      | .next t => decide (t.memNat (2 ^ 40 + 0x1000) 8 = 0x1234 ∧ t.cs 0 0 16 = 24) | _ => false) = true ∧
    stream (.launchn 0 0 1 (BitVec.ofNat 64 vrec) (BitVec.ofNat 64 vword)) (streamRig [0x302 + 65536, vrec, vword] 4 two) = (0, 0x5201) ∧
    stream (.streamSkip 0 0 0 1 (BitVec.ofNat 64 vword) 2) (streamRig [0x304 + 65536 * 65536, vword, 2] 4 two) = (32, 0) ∧
    stream (.waitv 0 0 4 (BitVec.ofNat 64 vword) 2) (streamRig [0x305 + 4 * 65536, vword, 2] 4 two) = (0, 0) ∧
    stream (.cswrDoorbell 0 0 9) (streamRig [] 0 []) = (0, 0x5501) := by decide +kernel

-- Supervision, partitions, debug.

/-- Stream 0 with a launch of a record at 0x1000, which the tables of partition 5 map to a fabric window of peer 3. -/
def farStream (ws : List Nat) (n : Nat) : State :=
  let s := withRegs [(0x98000 + 8 * 3, 0x100), (0x91008, 3), (0xA0000, 2 ^ 39), (0xA0008, 2 ^ 16),
    (0xA0018, 0x17 + 9 * 65536 + 3 * 2 ^ 24)] (streamRig ws n two)
  { s with mem := cells 0 (leBytes 8 0x10001) ++ cells 0x10000 (leBytes 8 (2 ^ 39 + 0x3D)) ++ s.mem }

/-- A record behind a fabric window, alone and as the first of one; trace off; a record refused. -/
theorem hyp_StreamFabric :
    (let s := farStream [0x201, 0x1000] 2
     SMap.rising s.regs = true ∧ s.csLoops 0 0 = [] ∧ s.csNext 0 0 = .cmd (.launch 0 0 0x1000) ∧
       (s.csRecord 5 0x1000).any (fun l => decide (2 ^ 80 ≤ l)) = true) ∧
    (let s := farStream [0x302 + 1 * 65536, 0x1000, vword] 3
     s.csNext 0 0 = .cmd (.launchn 0 0 1 0x1000 (BitVec.ofNat 64 vword)) ∧ s.csWord 5 vword = some 2) ∧
    (let s := farStream [0x302 + 4 * 65536, 0x1000, vword] 3
     (s.csRecords 5 2 0x1000).any (fun l => l.head?.any (fun b => decide (2 ^ 80 ≤ b.1))) = true) ∧
    (rig.reg 0 (trBlock 0 + 32)).testBit 0 = false ∧
    ((streamRig [0x201, vrec] 2 [(2 ^ 40 + 0x2014, 1#8)]).register 5 0 none (2 ^ 40 + 0x2000) vrec).2.1 = 0x40 := by decide +kernel

/-- No entry is queued of a record that a command touches. -/
theorem hyp_StreamApart : ∀ x ∈ cmds, ∀ w ∈ List.range 72, SMap.get [] (streamRig x 4 two).queues w = [] := by decide +kernel

/-- A WRITE through a fabric window, not yet asked for, asked for and sent, and waiting for allowance. -/
theorem hyp_StreamEvents2 :
    let far := fun (as : List (Nat × Nat)) (w : Bool) => ({ farStream [0x307, 0x1000, 0x1234] 3 with
      asks := as, flights := [⟨9, 3, 0⟩], ports := [(0, { wait := if w then [(9, [])] else [] })] } : State)
    (∀ s ∈ [far [] false, far [(0, 9)] false, far [(0, 9)] true], SMap.rising s.regs = true ∧ s.csLoops 0 0 = [] ∧
      s.csNext 0 0 = .cmd (.streamWrite 0 0 0x1000 0x1234)) ∧
    ((far [] false).csReady 0 0 = false ∧ SMap.look (far [] false).asks (8 * 0 + 0) = none) ∧
    (far [(0, 9)] false).csReady 0 0 = true ∧
    ((far [(0, 9)] true).csReady 0 0 = false ∧ SMap.look (far [(0, 9)] true).asks (8 * 0 + 0) = some 9) ∧
    (∀ x ∈ cmds.zip decoded, (streamRig x.1 4 two).csReady 0 0 = true) := by decide +kernel

/-- A fault record. -/
def oneFault : FaultRec := bareFault 3 7 0 0x1000

/-- A record and a free slot of the last entry of its queue; masks and pending bits; an invalidation in progress; legal and
illegal layout data; bindings that exist and that do not; GSCTL; a partition that may be enabled and one that may not. -/
theorem hyp_SupervisorEvents :
    let f : State := { withRegs [(0, 0x100000), (8, 16), (16, 15), (24, 0)] rig with faults := [(0, [oneFault])] }
    let full := withRegs [(16, 16)] f
    SMap.rising f.regs = true ∧ f.live = true ∧ f.dieAwake 0 = true ∧ SMap.get [] f.faults 0 = oneFault :: [] ∧
    f.faultSlot 0 = some (0x100000 + 64 * 15) ∧ full.faultSlot 0 = none ∧
    ((rig.reg 0 0x34010).testBit 9 = false ∧ ((withRegs [(0x34010, 512 + 5)] rig).reg 0 0x34010).testBit 9 = true) ∧
    (rig.layout.any (fun b => b.part == 5 && b.handle == 7) = true ∧ rig.layout.any (fun b => b.part == 5 && b.handle == 6) = false) ∧
    ((rig.handleInUse 5 6 = false) ∧ layBad (record 0x00 1 0x2000000 2 15 6) = false ∧ layBad (record 0x00 1 0x2000000 0 15 6) = true) ∧
    ((withRegs [(0x36008, 256)] rig).reg 0 0x36008).testBit 8 = true ∧
    ((withRegs [(0x40000 + 64 * 5 + 32, 1)] rig).mayEnable 5 = true ∧ rig.mayEnable 5 = false) := by decide +kernel

/-- A fault queue in a peer's memory: the record not yet asked for, asked for and sent, and waiting for allowance. -/
theorem hyp_SupervisorEvents2 :
    let q := fun (as : List (Nat × Nat)) (w : Bool) => ({ withRegs [(0, 2 ^ 39), (8, 16)] (farStream [] 0) with
      faults := [(0, [oneFault])], asks := as, flights := [⟨9, 3, 0⟩], ports := [(0, { wait := if w then [(9, [])] else [] })] } : State)
    (∀ s ∈ [q [] false, q [(32, 9)] false, q [(32, 9)] true], SMap.rising s.regs = true ∧ s.up = true ∧ s.dieAwake 0 = true ∧
      SMap.get [] s.faults 0 = oneFault :: [] ∧ (s.faultSlot 0).any (fun a => decide (2 ^ 80 ≤ a)) = true) ∧
    SMap.look (q [] false).asks (32 + 0) = none ∧ (q [(32, 9)] false).ready 9 = true ∧ (q [(32, 9)] true).ready 9 = false ∧ rig.up = true := by
  decide +kernel

/-- 15 R322, 21 R411: the record goes to the last slot and vector 0 is sent, or kept while masked; 18 R367: EN. -/
theorem test_supervisor :
    (match exec (.faultRecordAppend 0) { withRegs [(0, 0x100000), (8, 16), (16, 15)] rig with faults := [(0, [oneFault])], msixMask := 2 } with
      | .next t => decide (t.memRead 0x1003C0 8 = [3#8, 0#8, 0#8, 0#8, 7#8, 0#8, 0#8, 0#8] ∧ t.msixSent = [0] ∧ t.reg 0 16 = 16) | _ => false) = true ∧
    (match exec (.pctlWrite 5 7) (withRegs [(0x40000 + 64 * 5 + 32, 1)] rig) with | .next t => t.preg 5 0 | _ => 0) = 7 ∧
    (match exec (.pctlWrite 5 7) rig with | .next t => t.preg 5 0 | _ => 0) = 6 := by decide +kernel

/-- Core 0 runs partition 5 with strand 0, and row 1 of its cadence table names partition 6, enabled, which is saved in shadow
storage, with 100 strand cycles; row 0 names partition 5. -/
def cadRig : State :=
  { withRegs [(0x40000 + 64 * 5, 1), (0x40000 + 64 * 5 + 32, 1), (0x40000 + 64 * 6, 9), (0x40000 + 64 * 6 + 32, 1),
      (0x50000, 0x105 + 50 * 2 ^ 32), (0x50008, 0x106 + 100 * 2 ^ 32)] rig with
    cores := [(0, { core0 with entered := true, spent := true, shadow := some (6, [{ run := .ready, task := some { loc := 0x40000, va := 0x40000, part := 6, graph := 3, seq := 1, prio := 0, tail := 0 } }, {}, {}, {}]) })] }

/-- The package with a core changed. -/
def coreRig (f : Core → Core) : State := { cadRig with cores := [(0, f (cadRig.core 0))] }

/-- The image of a strand of partition 5. -/
def saved5 : Strand := { run := .ready, task := some { loc := 0x40000, va := 0x40000, part := 5, graph := 3, seq := 1, prio := 0, tail := 0 } }

/-- Stops that are under way and none; strands that a stop saved; rows that name the partition and another; a sequence with a copy that has started,
with one that has not, and with nothing; swaps to another partition and to none; a priority partition and its victim. -/
theorem hyp_PartitionEvents :
    let sq := coreRig (fun k => { k with stop := .cadence, copies := [idleCopy] })
    let sb := coreRig (fun k => { k with stop := .cadence, copies := [{ idleCopy with started := true }] })
    let sw := coreRig (fun k => { k with stop := .cadence, saved := true, parked := [(6, .copy idleCopy)] })
    let no : State := { rig with cores := [(0, { core0 with entered := true, stop := .cadence, saved := true })] }
    let pr : State := { cadRig with
      cores := [(0, { cadRig.core 0 with shadow := none })], deps := [(0, [{ dent 2 with part := 6 }])], queues := [(0, [⟨0x10000, 6, 2, 0⟩])] }
    let aw := coreRig (fun k => { k with shadow := some (5, [saved5, saved5, saved5, saved5]) })
    (∀ s ∈ [cadRig, sq, sb, sw, no, pr, aw], SMap.rising s.regs = true ∧ s.live = true ∧ s.ppreBusy = false ∧ (s.strand 0).pends = []) ∧
    (withRegs [(0x40000 + 64 * 5 + 48, 2)] (coreRig (fun k => { k with stop := .host, asked := true }))).ppreBusy = true ∧ cadRig.dieAwake 0 = true ∧
    ((cadRig.core 0).stop = .none ∧ cadRig.mustLeave 0 = true ∧ cadRig.nextRow 0 (fun _ => true) = some 1 ∧ cadRig.cadRow 0 1 % 256 ≠ 5) ∧
    (cadRig.awaySaved 0 = false ∧ (coreRig (fun k => { k with entered := false })).nextRow 0 (fun _ => true) = some 0) ∧
    (aw.awaySaved 0 = true ∧ aw.mustLeave 0 = true ∧ aw.nextRow 0 (fun _ => true) = some 0 ∧ aw.cadRow 0 0 % 256 = (aw.core 0).part ∧
      (aw.core 0).entered = true ∧ (aw.core 0).stop = .none) ∧
    (∀ g ∈ [0, 1, 2, 3], (sq.strand g).atBoundary = true ∧ (sq.strand g).hold = .none ∧ (sq.park 0).settled g = true) ∧
    (∃ g ∈ [0, 1, 2, 3], (sb.park 0).settled g = false) ∧
    (sw.nextRow 0 (stopAllows .cadence) = some 1 ∧ sw.savedOn 0 6 = [] ∧ ((sw.core 0).shadow.map (fun e => (e.1, e.2.length))) = some (6, 4)) ∧
    (no.nextRow 0 (stopAllows .cadence) = none ∧ no.hstop 5 = false ∧ (no.core 0).parked = []) ∧
    (pr.victim 0 6 = some 0 ∧ (pr.preg 6 0).testBit 3 = true ∧ pr.startStrand 0 6 = none) := by
  decide +kernel

/-- A host stop of two cores, the other of which has a copy that has not started. -/
theorem hyp_PartitionEvents2 :
    let s : State := { withRegs [(0x40000 + 64 * 5 + 48, 2)] rig with
      cores := [(0, { core0 with entered := true, stop := .host }), (1, { core0 with pos := none, stop := .host, copies := [idleCopy] })] }
    SMap.rising s.regs = true ∧ s.live = true ∧ s.stopCores 0 = [0, 1] ∧ (∀ g ∈ List.range 8, s.stopped g = true ∧ (s.strand g).pends = []) ∧
    (s.core 1).copies.all (fun x => !x.started) = true ∧ (s.core 0).saved = false := by decide +kernel

/-- A core that the host has stopped, with no row to enter; images in the save area; a strand whose stall count runs, and strands at
boundaries; a task for which no core has been taken, and one for which one has. -/
theorem hyp_PartitionSaves :
    let sq := coreRig (fun k => { k with stop := .cadence, copies := [idleCopy] })
    let pr : State := { cadRig with
      cores := [(0, { cadRig.core 0 with shadow := none })], deps := [(0, [{ dent 2 with part := 6 }])], queues := [(0, [⟨0x10000, 6, 2, 0⟩])] }
    let hs : State := { withRegs [(0x40000 + 64 * 5 + 48, 2)] rig with cores := [(0, { core0 with entered := true, stop := .host, saved := true })] }
    let im : State := { coreRig (fun k => { k with stop := .cadence, saved := true, shadow := none }) with images := [(6, 0, saved5)] }
    let nb : State := { sq with strands := [(0, { worker with ctx := { sc := 2 } })] }
    let tk : State := { pr with deps := [(0, [{ dent 2 with part := 6, taken := true }])] }
    (∀ s ∈ [hs, im, nb, tk], SMap.rising s.regs = true ∧ s.live = true ∧ (s.strand 0).pends = []) ∧
    (hs.live = true ∧ hs.nextRow 0 (stopAllows .host) = none ∧ hs.hstop 5 = true ∧ (hs.core 0).shadow = none ∧ (hs.strand 0).task.isSome = true) ∧
    (im.nextRow 0 (stopAllows .cadence) = some 1 ∧ (im.core 0).shadow = none ∧
      (im.savedOn 0 6).find? (fun i => i.2.1 == 0) = some (6, 0, saved5)) ∧
    (nb.stopCores 0 = [0] ∧ nb.stopped 0 = false ∧ ∀ g ∈ [0, 1, 2, 3], sq.stopped g = true ∧ (sq.strand g).outs = [] ∧ coreOf g ∈ sq.stopCores 0) ∧
    ((pr.wanting 0 6).map (fun x => x.1.loc) = some 0x10000 ∧ tk.wanting 0 6 = none ∧ tk.victim 0 6 = some 0) := by decide +kernel

/-- A strand with nothing of its own under way, out of position; a task that no core qualifies for; a slot whose check is wrong over the
first byte of an image in it. -/
theorem hyp_PartitionSaves2 :
    (let sq := coreRig (fun k => { k with stop := .cadence, copies := [idleCopy] })
     (sq.strand 1).ownPends = [] ∧ (sq.strand 1).outs = [] ∧ (sq.strand 1).run ≠ .inPos ∧ (sq.strand 1).hold.isTrap = false) ∧
    (let no : State := { withRegs [(0x50008, 0)] cadRig with deps := [(0, [{ dent 2 with part := 6 }])], queues := [(0, [⟨0x10000, 6, 2, 0⟩])] }
     (no.wanting 0 6).isSome = true ∧ no.victim 0 6 = none ∧ no.startStrand 0 6 = none ∧ (no.preg 6 0).testBit 3 = true ∧ no.live = true) ∧
    (let im : State := { coreRig (fun k => { k with stop := .cadence, saved := true, shadow := none }) with
       images := [(6, 0, saved5)], bad := [(0, 64)] }
     im.live = true ∧ im.nextRow 0 (stopAllows .cadence) = some 1 ∧ (im.core 0).shadow = none ∧ im.badImages 0 6 = [(0, 0)] ∧
       (im.savedOn 0 6).find? (fun i => i.2.1 == 0) = some (6, 0, saved5) ∧ saved5.task.isSome = true ∧ saved5.abort = none) := by
  decide +kernel

/-- An image whose slot holds what was put there when it was saved. -/
theorem hyp_PartitionIntact :
    let im : State := { coreRig (fun k => { k with stop := .cadence, saved := true, shadow := none }) with images := [(6, 0, saved5)] }
    let s := im.memWrite (im.saveSlot 6 0) (freeBytes 0 slotUsed)
    s.live = true ∧ s.bad = [] ∧ s.nextRow 0 (stopAllows .cadence) = some 1 ∧ (s.core 0).shadow = none ∧
      (s.savedOn 0 6).find? (fun i => i.2.1 == 0) = some (6, 0, saved5) ∧
      s.intact (s.saveSlot 6 0) (SMap.get 0 s.saves (256 * 0 + 6)) slotUsed = true := by
  have key : ∀ t : State, SMap.get 0 t.saves (256 * 0 + 6) = 0 →
      let s := t.memWrite (t.saveSlot 6 0) (freeBytes 0 slotUsed)
      s.intact (s.saveSlot 6 0) (SMap.get 0 s.saves (256 * 0 + 6)) slotUsed = true := fun t h => by
    have hs : ∀ k bs, (t.memWrite k bs).saves = t.saves ∧ (t.memWrite k bs).saveSlot 6 0 = t.saveSlot 6 0 := fun _ _ => ⟨rfl, rfl⟩
    simp only [hs, h, State.intact, beq_iff_eq]
    exact State.memRead_memWrite_all _ _ _ _ (by simp [freeBytes])
  exact ⟨by decide +kernel, rfl, by decide +kernel, by decide +kernel, by decide +kernel, key _ (by decide +kernel)⟩

/-- 18 R374, R369: the strand of partition 6 is live again, and row 1 has its whole budget. -/
theorem test_swap :
    (match exec (.partitionSwap 0) (coreRig (fun k => { k with stop := .cadence, saved := true })) with
      | .next t => decide ((t.strand 0).task.map Task.part = some 6 ∧ (t.core 0).part = 6 ∧ (t.core 0).left = 100) | _ => false) = true := by
  decide +kernel

/-- 18 R376: strands that a host stop saved are live again when their row is entered. -/
theorem test_resume :
    (match exec (.rowChange 0) (coreRig (fun k => { k with shadow := some (5, [saved5, {}, {}, {}]) })) with
      | .next t => decide ((t.strand 0).task.map Task.loc = some 0x40000 ∧ (t.core 0).row = 0) | _ => false) = true := by decide +kernel

/-- The frozen package with DASEL and DANUM. -/
def frozenRig (sel num : Nat) : State := { withRegs [(0x61000, sel), (0x61008, num)] rig with frz := 2 }

/-- Not frozen, freezing, frozen; a strand with a task and one without; the limits of each range of numbers; a trace buffer with
room for a sample and one with none; a slot that may be armed. -/
theorem hyp_DebugEvents :
    let tr := withRegs [(0x64000, 0x100000), (0x64008, 4096), (0x64020, 0x100801)] rig
    rig.frz = 0 ∧ ({ rig with frz := 1 } : State).frz = 1 ∧
    (∀ n ∈ [0, 0x3F, 0x40, 0x5F, 0x60, 0x7F, 0x80, 0x104, 0x200, 0x300, 0x3FF], let s := frozenRig 0 n
      SMap.rising s.regs = true ∧ s.frz = 2 ∧ (s.strand 0).task.isSome = true ∧ (s.strand 0).filed = true ∧ s.reg 0 0x61008 = n) ∧
    ((frozenRig 0 0x8000).reg 0 0x31028).testBit 0 = false ∧
    ((withRegs [(0x31028, 1)] (frozenRig 0 0x8000)).reg 0 0x31028).testBit 0 = true ∧ (frozenRig 0 0x8000).bad = [] ∧ ((frozenRig (1 * 65536) 0).strand 1).task = none ∧ ((frozenRig 0 65528).strand 0).errs = [] ∧ (65528 % 8 = 0 ∧ 65528 < 65536) ∧
    ((frozenRig 0 0).strand 0).age = [] ∧ ((frozenRig 0 0).tiles = [] ∧ ∀ l ∈ ((frozenRig 0 0).core 0).dc, l.key + 64 ≤ 8) ∧
    (SMap.rising tr.regs = true ∧ tr.live = true ∧ (tr.reg 0 0x64020).testBit 0 = true ∧ (tr.reg 0 0x64020).testBit 20 = true ∧
      tr.reg 0 0x64020 / 256 % 256 = 8 ∧ tr.reg 0 0x64008 = 32 * 128 ∧ tr.reg 0 0x64010 + 16 ≤ tr.reg 0 0x64018 + 128) ∧
    (rig.reg 0 0x63008).testBit 2 = false := by decide +kernel

/-- A stack that retrains, which is not the one addressed; a strand without a task; a tile write-back that waits, and none. -/
theorem hyp_DebugEvents2 :
    (∃ k < 8, ((withRegs [(2 ^ 20 + 0x31128, 1)] (frozenRig 0 0x8000)).reg (k / 2) (0x31028 + 0x100 * (k % 2))).testBit 0 = true) ∧
    (¬∃ k < 8, ((frozenRig 0 0x8000).reg (k / 2) (0x31028 + 0x100 * (k % 2))).testBit 0 = true) ∧
    ((frozenRig (1 * 65536) 0x1000).strand 1).task = none ∧ (frozenRig 0 0).tileOut = [] ∧ rig.up = true ∧ rig.dieAwake 0 = true := by
  decide +kernel

/-- 19 R383, R384: DANUM 3 is s3 of the strand; 0x92 for its PC within a bundle; 0x91 for a number that no table has. -/
theorem test_debug :
    (match exec .daReadState (frozenRig 0 2) with | .next t => t.reg 0 0x61010 | _ => 0) = 0xFFFFFFFFFFFFFFF9 ∧
    (match exec .daWriteState (withRegs [(0x61010, 7)] (frozenRig 0 0x200)) with | .next t => t.reg 0 0x61018 | _ => 0) = 0x9200 ∧
    (match exec .daReadState (frozenRig 0 0x81) with | .next t => t.reg 0 0x61018 | _ => 0) = 0x9100 := by decide +kernel

-- The package and the fabric.

/-- The values at the ends of its cases; the last stack to retrain, with no link in training and with one; in D3hot and not. -/
theorem hyp_PackageEvents : SMap.rising rig.regs = true ∧
    ((0xA501#64).toNat / 2 ^ 8 % 2 ^ 8 = 0xA5 ∧ (0xA501#64).toNat.testBit 0 = true) ∧
    ((0xA500#64).toNat.testBit 0 = false ∧ (0xA401#64).toNat / 2 ^ 8 % 2 ^ 8 ≠ 0xA5) ∧
    (rig.msixMask.testBit 10 = true ∧ ({ rig with msixMask := 0 } : State).msixMask.testBit 10 = false) ∧
    ((rig.core 0).utlb.length = 2) ∧ (rig.reg 0 0x80108).testBit 32 = false ∧ rig.d3 = false ∧ ({ rig with d3 := true } : State).d3 = true ∧
    (∀ k < 7, (rig.reg (k / 2) (0x31028 + 0x100 * (k % 2))).testBit 0 = false) ∧ (∀ p < 24, rig.reg 0 (0x91008 + 64 * p) % 16 ≠ 1) ∧
    ((withRegs [(0x91008, 1)] rig).reg 0 0x91008 % 16 = 1) := by decide

/-- A cap at the package's idle power and one below it. -/
theorem hyp_PackageEvents2 :
    let s : State := { withRegs [(0x80108, 700 * 65536), (0x80100, 100)] rig with idlePw := 200 }
    SMap.rising s.regs = true ∧ s.reg 0 0x80100 < s.idlePw ∧ rig.idlePw ≤ rig.reg 0 0x80100 ∧
    s.idlePw ≤ min ((200#64).toNat % 65536) (s.reg 0 0x80108 / 2 ^ 16 % 2 ^ 16) ∧
    min ((199#64).toNat % 65536) (s.reg 0 0x80108 / 2 ^ 16 % 2 ^ 16) < s.idlePw ∧ (s.reg 0 0x80108).testBit 32 = false ∧
    ({ s with msixMask := 0 } : State).msixMask.testBit 10 = false := by decide

/-- 20 R398, R402, R407: a warm reset says its cause and keeps HBM; the last stack clears TRN; PWRCAP has its upper limit. -/
theorem test_package :
    (match exec (.rstctlWarm 0xA501) { rig with mem := [(0x1000, 7#8), (2 ^ 40, 7#8)] } with
      | .next t => decide (t.reg 0 0x80008 = 0x10101 ∧ t.memRead 0x1000 1 = [7#8] ∧ t.memRead (2 ^ 40) 1 = [0#8] ∧ t.strands = []) | _ => false) = true ∧
    (match exec (.pwrcapWrite 0xFFFF) (withRegs [(0x80108, 700 * 65536)] rig) with | .next t => t.reg 0 0x80100 | _ => 0) = 700 ∧
    (match exec (.registerWrite 0 0x80100 500) (withRegs [(0x80108, 700 * 65536)] rig) with | .next t => t.reg 0 0x80100 | _ => 0) = 500 := by
  decide +kernel

/-- A flit of 248 bytes with its check. -/
def sealed (l : List Byte) : List Byte := l ++ leBytes 8 (crc64 0 l)

/-- Port 0 in operation, PKGID 7. -/
def portRig : State := withRegs [(0x90000, 0x1007), (0x91000, 1), (0x91008, 3)] rig

/-- A locked, an enabled and a free window; a port in operation and one that is not; an intact flit and a broken one; a card;
a task that waits to be staged, with nothing to fetch and with a handle whose peer has no route. -/
theorem hyp_FabricEvents :
    let f := sealed (leBytes 1 1 ++ leBytes 1 0 ++ leBytes 2 0 ++ leBytes 2 7 ++ leBytes 242 0)
    let e : DEnt := { dent 2 with staged := false }
    let st : State := { rig with deps := [(0, [e])] }
    (∀ s ∈ [rig, portRig, st], SMap.rising s.regs = true ∧ s.live = true ∧ s.frz = 0 ∧ s.bad = []) ∧
    ((rig.reg 0 0x90000).testBit 12 = false ∧ (portRig.reg 0 0x90000).testBit 12 = true) ∧
    (let w := fun c => (withRegs [(0xA0018, c)] rig).reg 0 0xA0018
     (w 8).testBit 3 = true ∧ ((w 1).testBit 3 = false ∧ (w 1).testBit 0 = true) ∧ (w 0).testBit 0 = false) ∧
    (portRig.reg 0 0x91008 % 16 = 3 ∧ rig.reg 0 0x91008 % 16 ≠ 3 ∧ (portRig.reg 0 0x91000).testBit 0 = true) ∧
    (f.length = 256 ∧ crc64 0 (f.take 248) = leNat (f.drop 248) ∧ leNat (f.take 1) = 1 ∧ leNat ((f.drop 4).take 2) = 7 ∧ (∀ x ∈ portRig.ports, x.2.rx = [])) ∧
    ((portRig.reg 0 0x91008 % 16 ≠ 0 ∧ (portRig.reg 0 0x90000).testBit 12 = true) ∧ (rig.reg 0 0x91000).testBit 0 = false ∧
      (withRegs [(0x91000, 1)] rig).reg 0 0x91008 % 16 = 0 ∧ (∀ x ∈ portRig.ports, x.2.wait = [])) ∧
    (portRig.vlState 0 = 3 ∧ ∀ k < 24, rig.vlState k ≠ 3) ∧ Memory.wf rig.mem = true ∧
    ((leBytes 512 0).length = 512 ∧ leNat (((leBytes 20 0 ++ leBytes 492 2).drop 20).take 1) = 2 ∧ recOf (leBytes 21 0 ++ leBytes 491 16) = none) ∧
    (st.stageEnt 0 0x10000 = some e ∧ e.regions = []) := by decide +kernel

/-- Ports with nothing to send, a card that is registered, and strands that ask for nothing. -/
theorem hyp_FabricEvents2 :
    (∀ e ∈ portRig.ports, e.2.rx = [] ∧ e.2.wait = []) ∧ portRig.tileOut = [] ∧ portRig.up = true ∧
    ((∀ e ∈ portRig.strands, e.2.asks = []) ∧ (rig.reg 0 0x90000).testBit 12 = false) ∧
    ((leBytes 512 0).length = 512 ∧ leNat (((leBytes 512 0).drop 20).take 1) = 0 ∧ (recOf (leBytes 512 0)).map Rec.join = some 0 ∧
      SMap.get 0 portRig.spawnNo 5 = 0 ∧ SMap.rising portRig.spawnNo = true) := by decide +kernel

/-- The package whose port 3 is down, with a load, or a store, or a fetch under way there as request 4. -/
def lostRig (ps : List Pend) (os : List Out) (f : Option Nat) : State :=
  { rigWith (fun t => { t with pends := ps, outs := os }) with
    flights := [⟨4, 2, 3⟩]
    deps := match f with | none => [] | some _ => [(0, [{ dent 2 with staged := false, fetch := f }])] }

/-- Requests of each kind on a path that is lost. -/
theorem hyp_FabricLost :
    let ld := lostRig [⟨4, .scalar 3 2 true, [.s 3], [⟨0x10000, 3 * 2 ^ 80, 2, .window⟩], none, false, none, 0, []⟩] [] none
    let st := lostRig [] [⟨4, ⟨[⟨0x10000, 3 * 2 ^ 80, 1, .window⟩], [1#8], none⟩⟩] none
    let fe := lostRig [] [] (some 4)
    (∀ s ∈ [ld, st, fe], SMap.rising s.regs = true ∧ Memory.wf s.mem = true ∧ s.live = true ∧ s.reg 0 0x910C8 % 16 ≠ 3 ∧
      s.flights.any (fun x => s.vlState x.port != 3) = true ∧ (∀ x ∈ s.flights, x.id < 2 ^ 64) ∧
      (∀ e ∈ s.cores, e.2.copies = [] ∧ e.2.nmq = []) ∧ s.permits = [] ∧ s.fabOut = [] ∧ s.launches = []) ∧
    (∀ s ∈ [ld, fe], ∀ e ∈ s.strands, e.2.outs = [] ∧ (e.2.pends.map Pend.id).Nodup) ∧ (∀ s ∈ [ld, st], s.deps = []) ∧
    ((st.strand 0).outs.length = 1 ∧ (st.strand 0).task.isSome = true ∧ (st.strand 0).abort = none ∧ (st.strand 1).outs = []) ∧
    (fe.strand 0).pends = [] ∧ (fe.reg 0 (trBlock 0 + 32)).testBit 0 = false := by decide +kernel

/-- Flits out of sequence, for this package, and for a peer whose route is another port's; a path with nothing lost on it, and the other
premises of a path that is lost. -/
theorem hyp_FabricLost2 :
    (let f := sealed (leBytes 1 1 ++ leBytes 1 0 ++ leBytes 2 1 ++ leBytes 2 7 ++ leBytes 242 0)
     f.length = 256 ∧ crc64 0 (f.take 248) = leNat (f.drop 248) ∧ leNat (f.take 1) ≠ 0 ∧ leNat ((f.drop 2).take 2) ≠ (portRig.port 0).rxSeq ∧
       leNat ((f.drop 4).take 2) % 4096 = portRig.reg 0 0x90000 % 4096) ∧
    (let f := sealed (leBytes 1 1 ++ leBytes 1 0 ++ leBytes 2 0 ++ leBytes 2 3 ++ leBytes 242 0)
     f.length = 256 ∧ crc64 0 (f.take 248) = leNat (f.drop 248) ∧ leNat ((f.drop 2).take 2) = (portRig.port 0).rxSeq ∧
       (withRegs [(0x98000 + 8 * 3, 0x101)] portRig).reg 0 (0x98000 + 8 * (leNat ((f.drop 4).take 2) % 4096)) % 32 ≠ 0) ∧
    (∀ x ∈ ({ portRig with flights := [⟨4, 3, 0⟩] } : State).flights, portRig.vlState x.port = 3) ∧
    (let fe := lostRig [] [] (some 4)
     fe.asks = [] ∧ SMap.get [] fe.queues 0 = [] ∧ fe.up = true ∧ (∃ x ∈ fe.flights, x.id = 4 ∧ fe.vlState x.port ≠ 3)) ∧
    portRig.dieAwake (0 / 18) = true := by decide +kernel

/-- A read region of 8 by 16 bytes, which a peer holds. -/
def far : Region := { kind := 0, acc := 1, handle := 40, rows := 8, cols := 16, n2 := 1, n3 := 1 }
/-- The package with a task that reads it; the route to peer 3 leads over port 0. -/
def stageRig : State :=
  { withRegs [(0x98000 + 8 * 3, 0x100)] portRig with
    deps := [(0, [{ dent 2 with staged := false, regions := [far] }])], fabric := [⟨5, 40, 9, 1, 3⟩], peerLay := [(3, 1, 9, record 0x00 0 0x3000000 16 16 0)] }

/-- 21 R421: one tile of a peer with a route, and of one whose route is lost. -/
theorem hyp_FabricStaging :
    let lost := withRegs [(0x98000 + 8 * 3, 0)] stageRig
    let l := layOf (some 3) (record 0x00 0 0x3000000 16 16 0)
    (∀ s ∈ [stageRig, lost], s.live = true ∧ s.bad = [] ∧ (s.stageEnt 0 0x10000).map DEnt.regions = some [far] ∧
      s.remoteHandle 5 40 = true ∧ s.lay 5 40 = some l) ∧
    (∀ s ∈ [stageRig, lost], let e := { dent 2 with staged := false, regions := [far], fetch := some 4 }
      let f : State := { s with deps := [(0, [e])], flights := [⟨4, 3, 0⟩] }
      f.stageEnt 0 0x10000 = some e ∧ f.ready 4 = true ∧ ({ f with ports := [(0, { wait := [(4, [])] })] } : State).ready 4 = false) ∧
    (let bad := fun (s : State) => (s.badPos l (fun _ => none) ((List.range (tileItems l.fc)).map (l.tilePos ⟨0, 0, 0, 0⟩))).isSome
     bad stageRig = false ∧ bad { stageRig with bad := [(4 * 2 ^ 80, 2 ^ 79)] } = true) ∧
    (regionTiles l far).length = 1 := by decide +kernel

/-- 21 R413, R418: PKGID keeps its first value; a window whose length is 0 is not enabled; a flit with a broken check is
discarded, and the same flit intact raises the sequence number. -/
theorem test_fabric :
    let f := sealed (leBytes 1 1 ++ leBytes 1 0 ++ leBytes 2 0 ++ leBytes 2 7 ++ leBytes 242 0)
    (match exec (.pkgidWrite 9) portRig with | .next t => t.reg 0 0x90000 | _ => 0) = 0x1007 ∧
    (match exec (.dmaWindowWrite 0 3 0x17) rig with | .next t => t.reg 0 0xA0018 | _ => 0) = 0x16 ∧
    (match exec (.flitReceive 0 (f.set 9 1#8)) portRig with | .next t => (t.port 0).rxSeq | _ => 9) = 0 ∧
    (match exec (.flitReceive 0 f) portRig with | .next t => (t.port 0).rxSeq | _ => 9) = 1 := by decide +kernel

-- The step.

/-- A bundle at 0x10000: s5 = s1 + s2, a4 = a1 + 512, the doubleword at a3 to s6, and five words of zero. -/
def bundle : List Byte :=
  leBytes 4 0 ++ leBytes 4 (encode (.add 0 0 5 1 2)).toNat ++ leBytes 4 (encode (.aaddi 4 1 512)).toNat ++ leBytes 4 0 ++
    leBytes 4 (encode (.ldD 0 0 6 3 0 0 0)).toNat ++ leBytes 12 0

/-- The package with that bundle at the PC of its strand, and one clock of core 0 next. -/
def stepRig : State :=
  { rig with strands := [(0, { worker with ctx := { pc := 0x10000 } })], mem := (cells 0x10000 bundle).filter (fun e => e.2 != 0#8), agenda := [.tick 0] }

/-- A clock in which a bundle issues: no wait, fault or comparator is in the way. -/
theorem hyp_StepRuns :
    let sa : State := { stepRig with agenda := [] }
    let s0 := countBlocked 0 (if stepRig.rested = true then around 0 sa else sa)
    let s1 := keepTlbs [page] { s0 with cur := { g := 0 } }
    let slots := openSlots s1 0 (words bundle)
    stepRig.agenda = .tick 0 :: [] ∧ stepRig.live = true ∧ stepRig.dieAwake 0 = true ∧ stepRig.starved = false ∧ (s0.core 0).spent = false ∧
    slots.findSome? (fun x => if x.sem.guard then x.sem.hold else none) = none ∧ (s0.core 0).pos = some 0 ∧ s0.inPos 0 = true ∧ (s0.core 0).stop = .none ∧
    s0.braked 0 = false ∧ s0.landHeld 0 = false ∧ (s0.strand 0).ctx.done ≠ 0xFF ∧ (s0.strand 0).hold = .none ∧ (s0.strand 0).ctx.sc = 0 ∧ (s0.strand 0).ctx.anc = 0 ∧ (s0.strand 0).due = none ∧
    s0.bundleAt 0 (s0.strand 0).ctx.pc = some (bundle, [page]) ∧ bundleBar (s1.strand 0) slots = none ∧
    bundleFlt (s1.strand 0) slots = none ∧ s1.stopSlot 0 slots = none ∧ bundle.length = 32 ∧
    ({ rig with agenda := [.ev (.msixUnmask 3)] } : State).agenda = .ev (.msixUnmask 3) :: [] ∧ (Instr.msixUnmask 3).kind = .event := by
  decide +kernel

theorem hyp_StepRuns2 :
    stepRig.rested = true ∧ (stepRig.strand 0).asks = [] ∧ stepRig.fetchAsk 0 0x10000 = none ∧ stepRig.mayHappen (.msixUnmask 3) = true ∧
    (let s := withRegs [(0x61018, 1)] rig
     s.mayHappen .daReadState = false ∧ (Instr.daReadState).kind = .event) := by decide +kernel

/-- A tile of ones, a unit of the factor engine at its start, and the operands of a product. -/
def ones : Tile := List.replicate 64 (List.replicate 64 (cellCode (.fin false 1 0)))
def famRig (trap : Bool) (a q : Tile) : Fam := ⟨false, trap, a, q, 0, 0, false, 0, 0, 0, 0, 0, 0, List.replicate 64 0, none⟩

theorem hyp_ArrayArithmetic :
    (∀ m ∈ [ones, List.replicate 64 (List.replicate 64 0)], m.length = 64 ∧ ∀ r ∈ m, r.length = 64) ∧
    (∀ t ∈ [true, false], (famRig t ones ones).pvr.length = 64 ∧ (famRig t ones ones).stop = none) ∧
    (∀ bs : List Byte, (tileNums 0 false 0x10 bs).length = 4096 ∧ (tileInts 0 0 0x50 bs).length = 4096) ∧
    (List.replicate 18432 0#8).length = 18432 ∧ (List.replicate 512 0#8).length = 512 ∧
    ((ones.val 0 0).isFin = true ∧ (ones.val 0 0).isZero = false ∧ (Machine.Num.fin false 0 0).isZero = true) ∧
    (let q : Tile := ones.map (fun _ => List.replicate 64 0)
     (Tile.val q 0 1).isZero = true ∧ Machine.Num.eqv (ones.val 1 0) (.fin false 1 0) = true) :=
  ⟨by decide +kernel, by decide, fun bs => by
    have a : fcDense 0x10 = true ∧ itemBits 0x10 = 16 := by decide
    have b : fcDense 0x50 = true ∧ itemBits 0x50 = 8 := by decide
    simp [tileNums, tileInts, length_unpackItems, a, b],
    List.length_replicate, List.length_replicate, by decide +kernel, by decide +kernel⟩

/-- A stepwise command of each operation whose operands no copy has written, begun and resumed. -/
theorem hyp_ArrayArithmetic2 :
    (∀ op ∈ [9, 10, 11, 12, 13], let x := xcmd op none true
      x.taint = [] ∧ 1 ≤ x.fam.kind ∧ x.fam.kind ≤ 5 ∧ x.fam.next < 64) ∧
    (let x : XCmd := { xcmd 16 none true with par := [24576, 0, 0, 0, 0, 0, 3 * 2 ^ 25 + 63 * 2 ^ 18, 0] }
     x.taint = [] ∧ x.fam.kind = 3 ∧ x.fam.next = 63) ∧
    (xcmd 14 none true).taint = [] ∧ (xcmd 15 none true).taint = [] := by decide +kernel

/-- 01 R24, 05 R118: the bundle's registers are written together, and the PC moves to the next bundle. -/
theorem test_step :
    (let t := after (step stepRig)
     t.rs 5 = 0xFFFFFFFFFFFFFFFE#64 ∧ t.ra 4 = 0x10200#64 ∧ t.ctx.pc = 0x10020) ∧
    (let t := after (step (State.reset.withFetchWord 32 (encode (.addi 0 0 5 0 7)).toNat))
     t.rs 5 = 7#64 ∧ t.ctx.pc = 32) := by decide +kernel

-- Invariants, from reset.

theorem reset_mem : Memory.wf State.reset.mem = true := rfl
theorem reset_tables : Tables State.reset :=
  have e := fun {α : Type} (x : α) (h : x ∈ ([] : List α)) => List.not_mem_nil h
  ⟨rfl, ⟨rfl, fun _ h => (e _ h).elim⟩, fun _ h => (e _ h).elim, fun _ h => (e _ h).elim, fun _ h => (e _ h).elim⟩

/-- The premises of the two invariants at a state from which a step goes on. -/
theorem hyp_invariants : Memory.wf stepRig.mem = true ∧ SMap.rising stepRig.regs = true ∧ SMap.rising stepRig.spawnNo = true ∧
    ∃ t, step stepRig = .next t := ⟨by decide, by decide, by decide, _, rfl⟩

-- Well-formedness (03 R75-R83): one ill-formed term for each check, beside the last value that passes it.

/-- A list of terms none of which the check passes. -/
def ill (l : List Instr) : Bool := l.all (fun i => !i.wf)

theorem test_ill_formed_0 : ill [
    .mfsr 0 0 0 21 0, .mfsr 0 0 0 32 0, .mtsr 0 0 0 2 0, .mtsr 0 0 0 18 0, .fence 0 0 0 7 0, .drain 0 0 7 0,
    .cmp 0 0 0 0 0 10, .cmpi 0 0 10 0 0 0, .fcmp 0 0 0 0 0 7, .sGet 0 0 0 0 0 3 0, .acmp 6 0 0 0, .ldBS 0 0 0 0 0 1 0,
    .ldBZ 0 0 0 0 0 1 0, .ldHS 0 0 0 0 0 1 0, .ldHZ 0 0 0 0 0 1 0, .ldWS 0 0 0 0 0 1 0, .ldWZ 0 0 0 0 0 1 0,
    .ldD 0 0 0 0 0 1 0, .stB 0 0 0 0 0 1 0, .stH 0 0 0 0 0 1 0, .stW 0 0 0 0 0 1 0, .stD 0 0 0 0 0 1 0,
    .ldV 0 0 0 0 0 1 0, .stV 0 0 0 0 0 1 2 0, .stV 0 0 0 0 1 15 3 0, .ldBlk 0 0 0 0 0 1 0, .stBlk 0 0 0 0 0 1 2 0,
    .stBlk 0 0 0 0 1 15 3 0, .pf 0 0 0 0 1 0, .atom 0 0 0 0 0 0 10, .ldRow 0 0 0 0 0 1 0, .ldFw 0 0 0 0 0 1 0,
    .stFw 0 0 0 0 0 1 2 0, .stFw 0 0 0 0 1 15 3 0, .vaddF 0 0 0 0 2 0 2, .vaddF 0 0 0 0 3 0 2, .vaddF 0 0 0 0 1 0 3,
    .vsubF 0 0 0 0 2 0 2, .vsubF 0 0 0 0 3 0 2, .vsubF 0 0 0 0 1 0 3] = true := rfl
theorem test_ill_formed_1 : ill [
    .vmulF 0 0 0 0 2 0 2, .vmulF 0 0 0 0 3 0 2, .vmulF 0 0 0 0 1 0 3, .vfmaF 0 0 0 0 2 0 2, .vfmaF 0 0 0 0 3 0 2,
    .vfmaF 0 0 0 0 1 0 3, .vminF 0 0 0 0 2 0 2, .vminF 0 0 0 0 3 0 2, .vminF 0 0 0 0 1 0 3, .vmaxF 0 0 0 0 2 0 2,
    .vmaxF 0 0 0 0 3 0 2, .vmaxF 0 0 0 0 1 0 3, .vabsF 0 0 0 0 3, .vnegF 0 0 0 0 3, .vrcp 0 0 0 0 3, .vrsq 0 0 0 0 3,
    .vexp2 0 0 0 0 3, .vlog2 0 0 0 0 3, .vaddI 0 0 0 0 2 0 2, .vaddI 0 0 0 0 3 0 2, .vaddI 0 0 0 0 1 0 3,
    .vsubI 0 0 0 0 2 0 2, .vsubI 0 0 0 0 3 0 2, .vsubI 0 0 0 0 1 0 3, .vmulI 0 0 0 0 2 0 2, .vmulI 0 0 0 0 3 0 2,
    .vmulI 0 0 0 0 1 0 3, .vminI 0 0 0 0 2 0 2, .vminI 0 0 0 0 3 0 2, .vminI 0 0 0 0 1 0 3, .vmaxI 0 0 0 0 2 0 2,
    .vmaxI 0 0 0 0 3 0 2, .vmaxI 0 0 0 0 1 0 3, .vand 0 0 0 0 2 0 2, .vand 0 0 0 0 3 0 2, .vand 0 0 0 0 1 0 3,
    .vor 0 0 0 0 2 0 2, .vor 0 0 0 0 3 0 2, .vor 0 0 0 0 1 0 3, .vxor 0 0 0 0 2 0 2] = true := rfl
theorem test_ill_formed_2 : ill [
    .vxor 0 0 0 0 3 0 2, .vxor 0 0 0 0 1 0 3, .vshl 0 0 0 0 2 0 2, .vshl 0 0 0 0 3 0 2, .vshl 0 0 0 0 1 0 3,
    .vshrS 0 0 0 0 2 0 2, .vshrS 0 0 0 0 3 0 2, .vshrS 0 0 0 0 1 0 3, .vshrZ 0 0 0 0 2 0 2, .vshrZ 0 0 0 0 3 0 2,
    .vshrZ 0 0 0 0 1 0 3, .vcmpF 0 0 7 0 0 1 0 2, .vcmpF 0 0 6 0 0 2 0 2, .vcmpF 0 0 6 0 0 3 0 2,
    .vcmpF 0 0 6 0 0 1 0 3, .vcmpI 0 0 6 0 0 1 0 2, .vcmpI 0 0 5 0 0 2 0 2, .vcmpI 0 0 5 0 0 3 0 2,
    .vcmpI 0 0 5 0 0 1 0 3, .vsel 0 0 0 0 2 0 2, .vsel 0 0 0 0 3 0 2, .vsel 0 0 0 0 1 0 3, .vcvt 0 0 0 0 3,
    .vpack 0 0 0 0 3, .vunpack 0 0 0 0 3, .vsum 0 0 0 0 3, .vdot 0 0 0 0 2 0 2, .vdot 0 0 0 0 3 0 2,
    .vdot 0 0 0 0 1 0 3, .vperm 0 0 0 0 2 0 2, .vperm 0 0 0 0 3 0 2, .vperm 0 0 0 0 1 0 3, .vmov 0 0 0 0 3,
    .vld 0 0 0 0 0 1, .vseedSet 0 0 0 3, .vdecay 0 0 0 0 3, .vfwadd 0 0 0 0 2 0 2, .vfwadd 0 0 0 0 3 0 2,
    .vfwadd 0 0 0 0 1 0 3, .swPermit 0 0 0 22] = true := rfl
theorem test_ill_formed_3 : ill [
    .nmRadd 0 0 3 0 0 0 0, .nmFwadd 0 0 3 0 0 0, .nmRed 0 0 3 0 0 0, .nmOpt 0 0 3 0 0, .gstepAdv 0,
    .annulledBundle 4608, .stallCountExpiry 4608, .bundleComplete 4608, .landing 4608, .engineLaunch 4608,
    .loadDataArrival 4608 0, .vldDataArrival 4608 0, .atomicReturn 4608 0, .positionHoldEnd 4608, .blockClear 4608,
    .strandSwitch 1152, .taskAbort 4608, .copyStart 1152, .copyCompletion 1152 0, .matrixCommandStart 1152,
    .matrixResultProduced 1152, .familyCommandDone 1152, .factorisationBreakdown 1152, .dependenceEntryGrant 4,
    .dispatch 72, .startOfTaskActions 4608, .endOfTaskActions 4608, .permitStart 4 21, .permitStart 3 22,
    .permitCompletion 4 21, .permitCompletion 3 22, .nmCommandExecute 1152 0, .nmCommandCompletion 1152 0,
    .streamNop 4 7, .streamNop 3 8, .launch 4 7 0, .launch 3 8 0, .launchn 4 7 0 0 0, .launchn 3 8 0 0 0,
    .streamLoop 4 7 0 0 0] = true := rfl
theorem test_ill_formed_4 : ill [
    .streamLoop 3 8 0 0 0, .streamSkip 4 7 0 0 0 0, .streamSkip 3 8 0 0 0 0, .waitv 4 7 0 0 0, .waitv 3 8 0 0 0,
    .waitvSatisfied 4 7, .waitvSatisfied 3 8, .waitg 4 7 0, .waitg 3 8 0, .waitgDone 4 7, .waitgDone 3 8,
    .streamWrite 4 7 0 0, .streamWrite 3 8 0 0, .streamJoin 4 7 0, .streamJoin 3 8 0, .disposeTakedown 4 7 0,
    .disposeTakedown 3 8 0, .disposeRelease 4 7 0, .disposeRelease 3 8 0, .cswrDoorbell 4 7 0, .cswrDoorbell 3 8 0,
    .csstHaltClear 4 7, .csstHaltClear 3 8, .faultRecordAppend 4, .msixUnmask 16, .rowChange 1152, .cadenceSwitch 1152,
    .priorityPreemption 72 0, .stopSequence 1152, .partitionSwap 1152, .trctlWrite 72 0, .traceSample 72,
    .replayArm 4 7 0, .replayArm 3 8 0, .replayPassEnd 4608, .hbmRetrainDone 8, .dmaWindowWrite 32 0 0,
    .vlPortStateChange 24 0 0, .flitReceive 24 [], .pathLost 24] = true := rfl
theorem test_ill_formed_5 : ill [
    .stagingFetch 72 0, .registerWrite 4 1048575 0, .registerWrite 3 1048576 0, .illegalEncoding 4608 0,
    .bundleFetchFault 4608, .translationCacheDrop 1152 0, .storageError 1152 0 0 0] = true := rfl

-- The last value that passes each check.

/-- A list of terms each of which the check passes. -/
def well (l : List Instr) : Bool := l.all Instr.wf

theorem test_well_formed_0 : well [
    .mfsr 0 0 0 31 0, .mtsr 0 0 0 17 0, .fence 0 0 0 6 0, .drain 0 0 6 0, .cmp 0 0 0 0 0 9, .cmpi 0 0 9 0 0 0,
    .fcmp 0 0 0 0 0 6, .sGet 0 0 0 0 0 2 0, .acmp 5 0 0 0, .ldBS 0 0 0 0 1 15 0, .ldBZ 0 0 0 0 1 15 0,
    .ldHS 0 0 0 0 1 15 0, .ldHZ 0 0 0 0 1 15 0, .ldWS 0 0 0 0 1 15 0, .ldWZ 0 0 0 0 1 15 0, .ldD 0 0 0 0 1 15 0,
    .stB 0 0 0 0 1 15 0, .stH 0 0 0 0 1 15 0, .stW 0 0 0 0 1 15 0, .stD 0 0 0 0 1 15 0, .ldV 0 0 0 0 1 15 0,
    .stV 0 0 0 0 1 15 2 0, .ldBlk 0 0 0 0 1 15 0, .stBlk 0 0 0 0 1 15 2 0, .pf 0 0 0 1 15 0, .atom 0 0 0 0 0 0 9,
    .ldRow 0 0 0 0 1 15 0, .ldFw 0 0 0 0 1 15 0, .stFw 0 0 0 0 1 15 2 0, .vaddF 0 0 0 0 1 0 2, .vsubF 0 0 0 0 1 0 2,
    .vmulF 0 0 0 0 1 0 2, .vfmaF 0 0 0 0 1 0 2, .vminF 0 0 0 0 1 0 2, .vmaxF 0 0 0 0 1 0 2, .vabsF 0 0 0 0 2,
    .vnegF 0 0 0 0 2, .vrcp 0 0 0 0 2, .vrsq 0 0 0 0 2, .vexp2 0 0 0 0 2] = true := rfl
theorem test_well_formed_1 : well [
    .vlog2 0 0 0 0 2, .vaddI 0 0 0 0 1 0 2, .vsubI 0 0 0 0 1 0 2, .vmulI 0 0 0 0 1 0 2, .vminI 0 0 0 0 1 0 2,
    .vmaxI 0 0 0 0 1 0 2, .vand 0 0 0 0 1 0 2, .vor 0 0 0 0 1 0 2, .vxor 0 0 0 0 1 0 2, .vshl 0 0 0 0 1 0 2,
    .vshrS 0 0 0 0 1 0 2, .vshrZ 0 0 0 0 1 0 2, .vcmpF 0 0 6 0 0 1 0 2, .vcmpI 0 0 5 0 0 1 0 2, .vsel 0 0 0 0 1 0 2,
    .vcvt 0 0 0 0 2, .vpack 0 0 0 0 2, .vunpack 0 0 0 0 2, .vsum 0 0 0 0 2, .vdot 0 0 0 0 1 0 2, .vperm 0 0 0 0 1 0 2,
    .vmov 0 0 0 0 2, .vld 0 0 0 0 1 15, .vseedSet 0 0 0 2, .vdecay 0 0 0 0 2, .vfwadd 0 0 0 0 1 0 2,
    .swPermit 0 0 0 21, .nmRadd 0 0 2 0 0 0 0, .nmFwadd 0 0 2 0 0 0, .nmRed 0 0 2 0 0 0, .nmOpt 0 0 2 0 0, .gstepAdv 1,
    .annulledBundle 4607, .stallCountExpiry 4607, .bundleComplete 4607, .landing 4607, .engineLaunch 4607,
    .loadDataArrival 4607 0, .vldDataArrival 4607 0, .atomicReturn 4607 0] = true := rfl
theorem test_well_formed_2 : well [
    .positionHoldEnd 4607, .blockClear 4607, .strandSwitch 1151, .taskAbort 4607, .copyStart 1151,
    .copyCompletion 1151 0, .matrixCommandStart 1151, .matrixResultProduced 1151, .familyCommandDone 1151,
    .factorisationBreakdown 1151, .dependenceEntryGrant 3, .dispatch 71, .startOfTaskActions 4607,
    .endOfTaskActions 4607, .permitStart 3 21, .permitCompletion 3 21, .nmCommandExecute 1151 0,
    .nmCommandCompletion 1151 0, .streamNop 3 7, .launch 3 7 0, .launchn 3 7 0 0 0, .streamLoop 3 7 0 0 0,
    .streamSkip 3 7 0 0 0 0, .waitv 3 7 0 0 0, .waitvSatisfied 3 7, .waitg 3 7 0, .waitgDone 3 7, .streamWrite 3 7 0 0,
    .streamJoin 3 7 0, .disposeTakedown 3 7 0, .disposeRelease 3 7 0, .cswrDoorbell 3 7 0, .csstHaltClear 3 7,
    .faultRecordAppend 3, .msixUnmask 15, .rowChange 1151, .cadenceSwitch 1151, .priorityPreemption 71 0,
    .stopSequence 1151, .partitionSwap 1151] = true := rfl
theorem test_well_formed_3 : well [
    .trctlWrite 71 0, .traceSample 71, .replayArm 3 7 0, .replayPassEnd 4607, .hbmRetrainDone 7,
    .dmaWindowWrite 31 0 0, .vlPortStateChange 23 0 0, .flitReceive 23 [], .pathLost 23, .stagingFetch 71 0,
    .registerWrite 3 1048575 0, .illegalEncoding 4607 0, .bundleFetchFault 4607, .translationCacheDrop 1151 0,
    .storageError 1151 0 0 0] = true := rfl

-- Decoding: every operation, from the fields of its encoding (03 R75-R83, the tables of each slot).

theorem test_decode_c_0 :
    decodeSlot 0 (0x0#28 ++ 0xE#4) = some (.nop 0xE) ∧
    decodeSlot 0 (0x1#6 ++ 0x7#3 ++ 0x1#1 ++ 0x0#1 ++ 0x0#1 ++ 0x5E8B#16 ++ 0xF#4) = some (.br 0x7 0x1 0x0 0x5E8B 0xF) ∧
    decodeSlot 0 (0x2#6 ++ 0x2#3 ++ 0x0#1 ++ 0x1#1 ++ 0x0#1 ++ 0x9B57#16 ++ 0x4#4) = some (.brA 0x2 0x0 0x1 0x9B57 0x4) ∧
    decodeSlot 0 (0x3#6 ++ 0x1#3 ++ 0x0#1 ++ 0x1#1 ++ 0x0#1 ++ 0xE7EE#16 ++ 0x5#4) = some (.brZ 0x1 0x0 0x1 0xE7EE 0x5) ∧
    decodeSlot 0 (0x4#6 ++ 0x0#3 ++ 0x0#1 ++ 0x79F5#18 ++ 0x1#4) = some (.jmp 0x0 0x0 0x79F5 0x1) ∧
    decodeSlot 0 (0x5#6 ++ 0x3#3 ++ 0x0#1 ++ 0x3D9B#18 ++ 0xE#4) = some (.call 0x3 0x0 0x3D9B 0xE) ∧
    decodeSlot 0 (0x6#6 ++ 0x5#3 ++ 0x1#1 ++ 0x0#18 ++ 0x6#4) = some (.ret 0x5 0x1 0x6) ∧
    decodeSlot 0 (0x7#6 ++ 0x3#3 ++ 0x1#1 ++ 0x1F#5 ++ 0x0#13 ++ 0x0#4) = some (.jr 0x3 0x1 0x1F 0x0) ∧
    decodeSlot 0 (0x8#6 ++ 0x1#3 ++ 0x1#1 ++ 0x0#18 ++ 0x8#4) = some (.rot 0x1 0x1 0x8) ∧
    decodeSlot 0 (0x9#6 ++ 0x6#3 ++ 0x0#1 ++ 0x0#18 ++ 0x8#4) = some (.doneTask 0x6 0x0 0x8) := by decide

theorem test_decode_c_1 :
    decodeSlot 0 (0xA#6 ++ 0x5#3 ++ 0x0#1 ++ 0x0#10 ++ 0x93#8 ++ 0x0#4) = some (.trap 0x5 0x0 0x93 0x0) ∧
    decodeSlot 0 (0xB#6 ++ 0x1#3 ++ 0x0#1 ++ 0x0#2 ++ 0xCD01#16 ++ 0x3#4) = some (.sys 0x1 0x0 0xCD01 0x3) ∧
    decodeSlot 0 (0xC#6 ++ 0x4#3 ++ 0x1#1 ++ 0x0#18 ++ 0x2#4) = some (.rfe 0x4 0x1 0x2) ∧
    decodeSlot 0 (0xD#6 ++ 0x0#3 ++ 0x0#1 ++ 0x0#10 ++ 0x6D#8 ++ 0x6#4) = some (.brk 0x0 0x0 0x6D 0x6) ∧
    decodeSlot 0 (0xE#6 ++ 0x0#3 ++ 0x1#1 ++ 0x300F2#18 ++ 0xC#4) = some (.segend 0x0 0x1 0x300F2 0xC) ∧
    decodeSlot 0 (0xF#6 ++ 0x6#3 ++ 0x0#1 ++ 0x19#6 ++ 0x1B#8 ++ 0x0#4 ++ 0xA#4) = some (.mfsr 0x6 0x0 0x19 0x1B 0xA) ∧
    decodeSlot 0 (0x10#6 ++ 0x1#3 ++ 0x1#1 ++ 0x2A#6 ++ 0x11#8 ++ 0x0#4 ++ 0xD#4) = some (.mtsr 0x1 0x1 0x2A 0x11 0xD) ∧
    decodeSlot 0 (0x11#6 ++ 0x1#3 ++ 0x0#1 ++ 0x0#18 ++ 0x7#4) = some (.isync 0x1 0x0 0x7) ∧
    decodeSlot 0 (0x12#6 ++ 0x1#3 ++ 0x0#1 ++ 0x0#18 ++ 0x1#4) = some (.yield 0x1 0x0 0x1) ∧
    decodeSlot 0 (0x13#6 ++ 0x7#3 ++ 0x1#1 ++ 0x1#2 ++ 0x5#3 ++ 0x0#13 ++ 0xE#4) = some (.fence 0x7 0x1 0x1 0x5 0xE) := by decide

theorem test_decode_c_2 :
    decodeSlot 0 (0x14#6 ++ 0x3#3 ++ 0x0#1 ++ 0x0#2 ++ 0x5#3 ++ 0x0#13 ++ 0xC#4) = some (.drain 0x3 0x0 0x5 0xC) := by decide

theorem test_decode_s_0 :
    decodeSlot 1 (0x1#6 ++ 0x1#3 ++ 0x1#1 ++ 0x35#6 ++ 0x1B#6 ++ 0x0#6 ++ 0x0#4) = some (.add 0x1 0x1 0x35 0x1B 0x0) ∧
    decodeSlot 1 (0x1#6 ++ 0x4#3 ++ 0x1#1 ++ 0x2#6 ++ 0x1A#6 ++ 0x17#6 ++ 0x1#4) = some (.sub 0x4 0x1 0x2 0x1A 0x17) ∧
    decodeSlot 1 (0x1#6 ++ 0x6#3 ++ 0x0#1 ++ 0x5#6 ++ 0x12#6 ++ 0x1B#6 ++ 0x2#4) = some (.and 0x6 0x0 0x5 0x12 0x1B) ∧
    decodeSlot 1 (0x1#6 ++ 0x7#3 ++ 0x1#1 ++ 0x1#6 ++ 0x2A#6 ++ 0x25#6 ++ 0x3#4) = some (.or 0x7 0x1 0x1 0x2A 0x25) ∧
    decodeSlot 1 (0x1#6 ++ 0x6#3 ++ 0x0#1 ++ 0x9#6 ++ 0xB#6 ++ 0x1A#6 ++ 0x4#4) = some (.xor 0x6 0x0 0x9 0xB 0x1A) ∧
    decodeSlot 1 (0x1#6 ++ 0x3#3 ++ 0x0#1 ++ 0x2F#6 ++ 0x2F#6 ++ 0x3A#6 ++ 0x5#4) = some (.andn 0x3 0x0 0x2F 0x2F 0x3A) ∧
    decodeSlot 1 (0x1#6 ++ 0x2#3 ++ 0x1#1 ++ 0x11#6 ++ 0x31#6 ++ 0x17#6 ++ 0x6#4) = some (.shl 0x2 0x1 0x11 0x31 0x17) ∧
    decodeSlot 1 (0x1#6 ++ 0x2#3 ++ 0x1#1 ++ 0x1D#6 ++ 0x1F#6 ++ 0x18#6 ++ 0x7#4) = some (.shrS 0x2 0x1 0x1D 0x1F 0x18) ∧
    decodeSlot 1 (0x1#6 ++ 0x2#3 ++ 0x0#1 ++ 0x31#6 ++ 0x3D#6 ++ 0xA#6 ++ 0x8#4) = some (.shrZ 0x2 0x0 0x31 0x3D 0xA) ∧
    decodeSlot 1 (0x1#6 ++ 0x6#3 ++ 0x0#1 ++ 0xD#6 ++ 0xD#6 ++ 0x4#6 ++ 0x9#4) = some (.rotr 0x6 0x0 0xD 0xD 0x4) := by decide

theorem test_decode_s_1 :
    decodeSlot 1 (0x1#6 ++ 0x4#3 ++ 0x0#1 ++ 0x32#6 ++ 0x20#6 ++ 0x35#6 ++ 0xA#4) = some (.minS 0x4 0x0 0x32 0x20 0x35) ∧
    decodeSlot 1 (0x1#6 ++ 0x7#3 ++ 0x1#1 ++ 0x16#6 ++ 0x8#6 ++ 0x10#6 ++ 0xB#4) = some (.minZ 0x7 0x1 0x16 0x8 0x10) ∧
    decodeSlot 1 (0x1#6 ++ 0x3#3 ++ 0x1#1 ++ 0x9#6 ++ 0x23#6 ++ 0x1B#6 ++ 0xC#4) = some (.maxS 0x3 0x1 0x9 0x23 0x1B) ∧
    decodeSlot 1 (0x1#6 ++ 0x3#3 ++ 0x0#1 ++ 0x8#6 ++ 0x22#6 ++ 0x34#6 ++ 0xD#4) = some (.maxZ 0x3 0x0 0x8 0x22 0x34) ∧
    decodeSlot 1 (0x2#6 ++ 0x7#3 ++ 0x0#1 ++ 0x7#6 ++ 0x5#6 ++ 0x16#6 ++ 0x0#4) = some (.mul 0x7 0x0 0x7 0x5 0x16) ∧
    decodeSlot 1 (0x2#6 ++ 0x4#3 ++ 0x1#1 ++ 0x10#6 ++ 0xB#6 ++ 0x2E#6 ++ 0x1#4) = some (.mulhS 0x4 0x1 0x10 0xB 0x2E) ∧
    decodeSlot 1 (0x2#6 ++ 0x2#3 ++ 0x1#1 ++ 0x2A#6 ++ 0x11#6 ++ 0x4#6 ++ 0x2#4) = some (.mulhZ 0x2 0x1 0x2A 0x11 0x4) ∧
    decodeSlot 1 (0x2#6 ++ 0x0#3 ++ 0x1#1 ++ 0x2D#6 ++ 0x27#6 ++ 0x4#6 ++ 0x3#4) = some (.divS 0x0 0x1 0x2D 0x27 0x4) ∧
    decodeSlot 1 (0x2#6 ++ 0x0#3 ++ 0x0#1 ++ 0x3D#6 ++ 0x8#6 ++ 0x27#6 ++ 0x4#4) = some (.divZ 0x0 0x0 0x3D 0x8 0x27) ∧
    decodeSlot 1 (0x2#6 ++ 0x5#3 ++ 0x0#1 ++ 0x9#6 ++ 0x9#6 ++ 0x39#6 ++ 0x5#4) = some (.remS 0x5 0x0 0x9 0x9 0x39) := by decide

theorem test_decode_s_2 :
    decodeSlot 1 (0x2#6 ++ 0x5#3 ++ 0x0#1 ++ 0x10#6 ++ 0x2B#6 ++ 0x2D#6 ++ 0x6#4) = some (.remZ 0x5 0x0 0x10 0x2B 0x2D) ∧
    decodeSlot 1 (0x3#6 ++ 0x1#3 ++ 0x1#1 ++ 0x9#6 ++ 0x35#6 ++ 0x0#10) = some (.clz 0x1 0x1 0x9 0x35) ∧
    decodeSlot 1 (0x3#6 ++ 0x0#3 ++ 0x1#1 ++ 0x1#6 ++ 0x30#6 ++ 0x1#10) = some (.ctz 0x0 0x1 0x1 0x30) ∧
    decodeSlot 1 (0x3#6 ++ 0x6#3 ++ 0x0#1 ++ 0x9#6 ++ 0xA#6 ++ 0x2#10) = some (.popc 0x6 0x0 0x9 0xA) ∧
    decodeSlot 1 (0x3#6 ++ 0x1#3 ++ 0x0#1 ++ 0x20#6 ++ 0x35#6 ++ 0x3#10) = some (.sextB 0x1 0x0 0x20 0x35) ∧
    decodeSlot 1 (0x3#6 ++ 0x5#3 ++ 0x1#1 ++ 0x3A#6 ++ 0x38#6 ++ 0x4#10) = some (.sextH 0x5 0x1 0x3A 0x38) ∧
    decodeSlot 1 (0x3#6 ++ 0x7#3 ++ 0x0#1 ++ 0x3#6 ++ 0x27#6 ++ 0x5#10) = some (.sextW 0x7 0x0 0x3 0x27) ∧
    decodeSlot 1 (0x3#6 ++ 0x1#3 ++ 0x1#1 ++ 0x2#6 ++ 0x1D#6 ++ 0x6#10) = some (.zextB 0x1 0x1 0x2 0x1D) ∧
    decodeSlot 1 (0x3#6 ++ 0x1#3 ++ 0x1#1 ++ 0x3E#6 ++ 0x20#6 ++ 0x7#10) = some (.zextH 0x1 0x1 0x3E 0x20) ∧
    decodeSlot 1 (0x3#6 ++ 0x0#3 ++ 0x1#1 ++ 0x26#6 ++ 0x12#6 ++ 0x8#10) = some (.zextW 0x0 0x1 0x26 0x12) := by decide

theorem test_decode_s_3 :
    decodeSlot 1 (0x4#6 ++ 0x3#3 ++ 0x0#1 ++ 0x0#3 ++ 0x5#3 ++ 0x38#6 ++ 0x3F#6 ++ 0x5#4) = some (.cmp 0x3 0x0 0x5 0x38 0x3F 0x5) ∧
    decodeSlot 1 (0x5#6 ++ 0x6#3 ++ 0x1#1 ++ 0x6#4 ++ 0x6#3 ++ 0x19#6 ++ 0xDB#9) = some (.cmpi 0x6 0x1 0x6 0x6 0x19 0xDB) ∧
    decodeSlot 1 (0x6#6 ++ 0x3#3 ++ 0x1#1 ++ 0x1A#6 ++ 0x11#6 ++ 0x11#6 ++ 0x7#3 ++ 0x0#1) = some (.sel 0x3 0x1 0x1A 0x11 0x11 0x7) ∧
    decodeSlot 1 (0x7#6 ++ 0x5#3 ++ 0x0#1 ++ 0x0#3 ++ 0x1#3 ++ 0x0#3 ++ 0x4#3 ++ 0x0#3 ++ 0x2#3 ++ 0x0#4) = some (.pand 0x5 0x0 0x1 0x4 0x2) ∧
    decodeSlot 1 (0x7#6 ++ 0x1#3 ++ 0x1#1 ++ 0x0#3 ++ 0x7#3 ++ 0x0#3 ++ 0x4#3 ++ 0x0#3 ++ 0x3#3 ++ 0x1#4) = some (.por 0x1 0x1 0x7 0x4 0x3) ∧
    decodeSlot 1 (0x7#6 ++ 0x6#3 ++ 0x1#1 ++ 0x0#3 ++ 0x7#3 ++ 0x0#3 ++ 0x5#3 ++ 0x0#3 ++ 0x7#3 ++ 0x2#4) = some (.pxor 0x6 0x1 0x7 0x5 0x7) ∧
    decodeSlot 1 (0x7#6 ++ 0x5#3 ++ 0x0#1 ++ 0x0#3 ++ 0x0#3 ++ 0x0#3 ++ 0x4#3 ++ 0x3#10) = some (.pnot 0x5 0x0 0x0 0x4) ∧
    decodeSlot 1 (0x7#6 ++ 0x0#3 ++ 0x1#1 ++ 0x0#3 ++ 0x5#3 ++ 0x0#3 ++ 0x4#3 ++ 0x4#10) = some (.pmov 0x0 0x1 0x5 0x4) ∧
    decodeSlot 1 (0x8#6 ++ 0x0#3 ++ 0x0#1 ++ 0x33#6 ++ 0x3A#6 ++ 0x184#10) = some (.addi 0x0 0x0 0x33 0x3A 0x184) ∧
    decodeSlot 1 (0x9#6 ++ 0x0#3 ++ 0x1#1 ++ 0x1E#6 ++ 0x12#6 ++ 0x60#10) = some (.andi 0x0 0x1 0x1E 0x12 0x60) := by decide

theorem test_decode_s_4 :
    decodeSlot 1 (0xA#6 ++ 0x1#3 ++ 0x1#1 ++ 0xD#6 ++ 0x2F#6 ++ 0x9F#10) = some (.ori 0x1 0x1 0xD 0x2F 0x9F) ∧
    decodeSlot 1 (0xB#6 ++ 0x3#3 ++ 0x0#1 ++ 0x3C#6 ++ 0x20#6 ++ 0x16D#10) = some (.xori 0x3 0x0 0x3C 0x20 0x16D) ∧
    decodeSlot 1 (0xC#6 ++ 0x0#3 ++ 0x1#1 ++ 0x4#6 ++ 0x16#6 ++ 0x1CF#10) = some (.andni 0x0 0x1 0x4 0x16 0x1CF) ∧
    decodeSlot 1 (0xD#6 ++ 0x4#3 ++ 0x1#1 ++ 0x14#6 ++ 0x32#6 ++ 0x0#4 ++ 0x1C#6) = some (.shli 0x4 0x1 0x14 0x32 0x1C) ∧
    decodeSlot 1 (0xE#6 ++ 0x1#3 ++ 0x1#1 ++ 0x31#6 ++ 0x10#6 ++ 0x0#4 ++ 0x39#6) = some (.shriS 0x1 0x1 0x31 0x10 0x39) ∧
    decodeSlot 1 (0xF#6 ++ 0x7#3 ++ 0x0#1 ++ 0x0#6 ++ 0x30#6 ++ 0x0#4 ++ 0x2B#6) = some (.shriZ 0x7 0x0 0x0 0x30 0x2B) ∧
    decodeSlot 1 (0x10#6 ++ 0x7#3 ++ 0x1#1 ++ 0x1A#6 ++ 0x32AB#16) = some (.lui 0x7 0x1 0x1A 0x32AB) ∧
    decodeSlot 1 (0x11#6 ++ 0x1#3 ++ 0x0#1 ++ 0x1F#6 ++ 0x31#6 ++ 0xB#6 ++ 0x0#4) = some (.fadd 0x1 0x0 0x1F 0x31 0xB) ∧
    decodeSlot 1 (0x11#6 ++ 0x4#3 ++ 0x1#1 ++ 0x21#6 ++ 0x2#6 ++ 0x2C#6 ++ 0x1#4) = some (.fsub 0x4 0x1 0x21 0x2 0x2C) ∧
    decodeSlot 1 (0x11#6 ++ 0x1#3 ++ 0x0#1 ++ 0x38#6 ++ 0x2B#6 ++ 0x35#6 ++ 0x2#4) = some (.fmul 0x1 0x0 0x38 0x2B 0x35) := by decide

theorem test_decode_s_5 :
    decodeSlot 1 (0x11#6 ++ 0x4#3 ++ 0x1#1 ++ 0x3#6 ++ 0x1B#6 ++ 0x8#6 ++ 0x3#4) = some (.fma 0x4 0x1 0x3 0x1B 0x8) ∧
    decodeSlot 1 (0x12#6 ++ 0x6#3 ++ 0x0#1 ++ 0x0#3 ++ 0x2#3 ++ 0x2A#6 ++ 0x11#6 ++ 0x1#4) = some (.fcmp 0x6 0x0 0x2 0x2A 0x11 0x1) ∧
    decodeSlot 1 (0x13#6 ++ 0x7#3 ++ 0x1#1 ++ 0xB#6 ++ 0x1C#6 ++ 0x0#10) = some (.fcvtF2iS 0x7 0x1 0xB 0x1C) ∧
    decodeSlot 1 (0x13#6 ++ 0x7#3 ++ 0x1#1 ++ 0x15#6 ++ 0x20#6 ++ 0x1#10) = some (.fcvtF2iZ 0x7 0x1 0x15 0x20) ∧
    decodeSlot 1 (0x13#6 ++ 0x4#3 ++ 0x1#1 ++ 0x1A#6 ++ 0x26#6 ++ 0x2#10) = some (.fcvtI2fS 0x4 0x1 0x1A 0x26) ∧
    decodeSlot 1 (0x13#6 ++ 0x2#3 ++ 0x1#1 ++ 0x3F#6 ++ 0x19#6 ++ 0x3#10) = some (.fcvtI2fZ 0x2 0x1 0x3F 0x19) ∧
    decodeSlot 1 (0x13#6 ++ 0x6#3 ++ 0x0#1 ++ 0x0#6 ++ 0x30#6 ++ 0x4#10) = some (.fcvtF2h 0x6 0x0 0x0 0x30) ∧
    decodeSlot 1 (0x13#6 ++ 0x0#3 ++ 0x0#1 ++ 0x33#6 ++ 0xF#6 ++ 0x5#10) = some (.fcvtH2f 0x0 0x0 0x33 0xF) ∧
    decodeSlot 1 (0x13#6 ++ 0x7#3 ++ 0x0#1 ++ 0x15#6 ++ 0x8#6 ++ 0x6#10) = some (.fcvtF2b 0x7 0x0 0x15 0x8) ∧
    decodeSlot 1 (0x13#6 ++ 0x7#3 ++ 0x1#1 ++ 0x33#6 ++ 0x22#6 ++ 0x7#10) = some (.fcvtB2f 0x7 0x1 0x33 0x22) := by decide

theorem test_decode_s_6 :
    decodeSlot 1 (0x14#6 ++ 0x3#3 ++ 0x1#1 ++ 0x3F#6 ++ 0x10#6 ++ 0x2B#6 ++ 0x2#2 ++ 0x3#2) = some (.sGet 0x3 0x1 0x3F 0x10 0x2B 0x2 0x3) ∧
    decodeSlot 1 (0x15#6 ++ 0x5#3 ++ 0x0#1 ++ 0x18#6 ++ 0x35#6 ++ 0x3#6 ++ 0x3#2 ++ 0x2#2) = some (.sPut 0x5 0x0 0x18 0x35 0x3 0x2) := by decide

theorem test_decode_a_0 :
    decodeSlot 2 (0x1#6 ++ 0x8#5 ++ 0x1#5 ++ 0x0#16) = some (.amov 0x8 0x1) ∧
    decodeSlot 2 (0x2#6 ++ 0x2#5 ++ 0x18#6 ++ 0x0#15) = some (.aset 0x2 0x18) ∧
    decodeSlot 2 (0x3#6 ++ 0x13#6 ++ 0xE#5 ++ 0x0#15) = some (.aget 0x13 0xE) ∧
    decodeSlot 2 (0x4#6 ++ 0x0#5 ++ 0x12#5 ++ 0x14#5 ++ 0x0#11) = some (.aadd 0x0 0x12 0x14) ∧
    decodeSlot 2 (0x5#6 ++ 0x16#5 ++ 0xF#5 ++ 0xFF65#16) = some (.aaddi 0x16 0xF 0xFF65) ∧
    decodeSlot 2 (0x6#6 ++ 0x3#4 ++ 0x3#2 ++ 0xF#6 ++ 0x0#14) = some (.mset 0x3 0x3 0xF) ∧
    decodeSlot 2 (0x7#6 ++ 0x10#5 ++ 0x6#4 ++ 0x0#17) = some (.astep 0x10 0x6) ∧
    decodeSlot 2 (0x8#6 ++ 0x5#3 ++ 0x0#3 ++ 0x18#5 ++ 0x1A#5 ++ 0x0#10) = some (.acmp 0x5 0x0 0x18 0x1A) := by decide

theorem test_decode_l_0 :
    decodeSlot 4 (0x1#6 ++ 0x2#3 ++ 0x0#1 ++ 0x1B#6 ++ 0xD#5 ++ 0x1#1 ++ 0x7#4 ++ 0x2C#6) = some (.ldBS 0x2 0x0 0x1B 0xD 0x1 0x7 0x2C) ∧
    decodeSlot 4 (0x2#6 ++ 0x2#3 ++ 0x1#1 ++ 0x28#6 ++ 0xC#5 ++ 0x1#1 ++ 0x6#4 ++ 0xC#6) = some (.ldBZ 0x2 0x1 0x28 0xC 0x1 0x6 0xC) ∧
    decodeSlot 4 (0x3#6 ++ 0x2#3 ++ 0x0#1 ++ 0x10#6 ++ 0x5#5 ++ 0x1#1 ++ 0xC#4 ++ 0xC#6) = some (.ldHS 0x2 0x0 0x10 0x5 0x1 0xC 0xC) ∧
    decodeSlot 4 (0x4#6 ++ 0x6#3 ++ 0x1#1 ++ 0x10#6 ++ 0xC#5 ++ 0x1#1 ++ 0x0#4 ++ 0xC#6) = some (.ldHZ 0x6 0x1 0x10 0xC 0x1 0x0 0xC) ∧
    decodeSlot 4 (0x5#6 ++ 0x3#3 ++ 0x1#1 ++ 0x2E#6 ++ 0x7#5 ++ 0x1#1 ++ 0x6#4 ++ 0x9#6) = some (.ldWS 0x3 0x1 0x2E 0x7 0x1 0x6 0x9) ∧
    decodeSlot 4 (0x6#6 ++ 0x7#3 ++ 0x0#1 ++ 0x3#6 ++ 0x2#5 ++ 0x1#1 ++ 0x4#4 ++ 0x18#6) = some (.ldWZ 0x7 0x0 0x3 0x2 0x1 0x4 0x18) ∧
    decodeSlot 4 (0x7#6 ++ 0x2#3 ++ 0x0#1 ++ 0x1A#6 ++ 0xB#5 ++ 0x1#1 ++ 0x9#4 ++ 0xC#6) = some (.ldD 0x2 0x0 0x1A 0xB 0x1 0x9 0xC) ∧
    decodeSlot 4 (0x8#6 ++ 0x0#3 ++ 0x0#1 ++ 0x3B#6 ++ 0x4#5 ++ 0x1#1 ++ 0xA#4 ++ 0x32#6) = some (.stB 0x0 0x0 0x3B 0x4 0x1 0xA 0x32) ∧
    decodeSlot 4 (0x9#6 ++ 0x7#3 ++ 0x1#1 ++ 0x2D#6 ++ 0x1B#5 ++ 0x1#1 ++ 0xB#4 ++ 0x1#6) = some (.stH 0x7 0x1 0x2D 0x1B 0x1 0xB 0x1) ∧
    decodeSlot 4 (0xA#6 ++ 0x0#3 ++ 0x0#1 ++ 0x17#6 ++ 0x1A#5 ++ 0x1#1 ++ 0xB#4 ++ 0x2F#6) = some (.stW 0x0 0x0 0x17 0x1A 0x1 0xB 0x2F) := by decide

theorem test_decode_l_1 :
    decodeSlot 4 (0xB#6 ++ 0x6#3 ++ 0x0#1 ++ 0x15#6 ++ 0x6#5 ++ 0x1#1 ++ 0xA#4 ++ 0xA#6) = some (.stD 0x6 0x0 0x15 0x6 0x1 0xA 0xA) ∧
    decodeSlot 4 (0xC#6 ++ 0x6#3 ++ 0x0#1 ++ 0x2B#6 ++ 0x10#5 ++ 0x1#1 ++ 0x3#4 ++ 0x3#2 ++ 0x5#4) = some (.ldV 0x6 0x0 0x2B 0x10 0x1 0x3 0x5) ∧
    decodeSlot 4 (0xD#6 ++ 0x6#3 ++ 0x0#1 ++ 0x2A#6 ++ 0x17#5 ++ 0x1#1 ++ 0x5#4 ++ 0x2#2 ++ 0x6#4) = some (.stV 0x6 0x0 0x2A 0x17 0x1 0x5 0x2 0x6) ∧
    decodeSlot 4 (0xE#6 ++ 0x2#3 ++ 0x0#1 ++ 0x2B#6 ++ 0x13#5 ++ 0x1#1 ++ 0x3#4 ++ 0x3#2 ++ 0x0#4) = some (.ldBlk 0x2 0x0 0x2B 0x13 0x1 0x3 0x0) ∧
    decodeSlot 4 (0xF#6 ++ 0x5#3 ++ 0x0#1 ++ 0x1D#6 ++ 0x11#5 ++ 0x1#1 ++ 0xA#4 ++ 0x2#2 ++ 0xC#4) = some (.stBlk 0x5 0x0 0x1D 0x11 0x1 0xA 0x2 0xC) ∧
    decodeSlot 4 (0x10#6 ++ 0x2#3 ++ 0x0#1 ++ 0x0#6 ++ 0x18#5 ++ 0x1#1 ++ 0x6#4 ++ 0xF#6) = some (.pf 0x2 0x0 0x18 0x1 0x6 0xF) ∧
    decodeSlot 4 (0x11#6 ++ 0x6#3 ++ 0x0#1 ++ 0xE#6 ++ 0x6#5 ++ 0x1E#6 ++ 0x1#1 ++ 0x9#4) = some (.atom 0x6 0x0 0xE 0x6 0x1E 0x1 0x9) ∧
    decodeSlot 4 (0x12#6 ++ 0x6#3 ++ 0x0#1 ++ 0x19#6 ++ 0x18#5 ++ 0x1#1 ++ 0x3#4 ++ 0x3#2 ++ 0x8#4) = some (.ldRow 0x6 0x0 0x19 0x18 0x1 0x3 0x8) ∧
    decodeSlot 4 (0x13#6 ++ 0x4#3 ++ 0x1#1 ++ 0x2B#6 ++ 0x1A#5 ++ 0x1#1 ++ 0xE#4 ++ 0x3#2 ++ 0x2#4) = some (.ldFw 0x4 0x1 0x2B 0x1A 0x1 0xE 0x2) ∧
    decodeSlot 4 (0x14#6 ++ 0x0#3 ++ 0x1#1 ++ 0x14#6 ++ 0x18#5 ++ 0x1#1 ++ 0x5#4 ++ 0x1#2 ++ 0x1#4) = some (.stFw 0x0 0x1 0x14 0x18 0x1 0x5 0x1 0x1) := by decide

theorem test_decode_v_0 :
    decodeSlot 5 (0x1#6 ++ 0x7#3 ++ 0x1#1 ++ 0x24#6 ++ 0x33#6 ++ 0x2#2 ++ 0x2E#6 ++ 0x1#2) = some (.vaddF 0x7 0x1 0x24 0x33 0x2 0x2E 0x1) ∧
    decodeSlot 5 (0x2#6 ++ 0x4#3 ++ 0x1#1 ++ 0x25#6 ++ 0x3#6 ++ 0x1#2 ++ 0x1F#6 ++ 0x0#2) = some (.vsubF 0x4 0x1 0x25 0x3 0x1 0x1F 0x0) ∧
    decodeSlot 5 (0x3#6 ++ 0x2#3 ++ 0x1#1 ++ 0x31#6 ++ 0x6#6 ++ 0x0#2 ++ 0x32#6 ++ 0x2#2) = some (.vmulF 0x2 0x1 0x31 0x6 0x0 0x32 0x2) ∧
    decodeSlot 5 (0x4#6 ++ 0x5#3 ++ 0x0#1 ++ 0x1C#6 ++ 0x36#6 ++ 0x0#2 ++ 0x20#6 ++ 0x1#2) = some (.vfmaF 0x5 0x0 0x1C 0x36 0x0 0x20 0x1) ∧
    decodeSlot 5 (0x5#6 ++ 0x1#3 ++ 0x1#1 ++ 0x12#6 ++ 0x1F#6 ++ 0x2#2 ++ 0x6#6 ++ 0x1#2) = some (.vminF 0x1 0x1 0x12 0x1F 0x2 0x6 0x1) ∧
    decodeSlot 5 (0x6#6 ++ 0x1#3 ++ 0x0#1 ++ 0x6#6 ++ 0x2D#6 ++ 0x2#2 ++ 0xF#6 ++ 0x1#2) = some (.vmaxF 0x1 0x0 0x6 0x2D 0x2 0xF 0x1) ∧
    decodeSlot 5 (0x7#6 ++ 0x2#3 ++ 0x1#1 ++ 0x3A#6 ++ 0x21#6 ++ 0x1#2 ++ 0x3#8) = some (.vabsF 0x2 0x1 0x3A 0x21 0x1) ∧
    decodeSlot 5 (0x8#6 ++ 0x2#3 ++ 0x1#1 ++ 0x10#6 ++ 0x1E#6 ++ 0x0#2 ++ 0x3#8) = some (.vnegF 0x2 0x1 0x10 0x1E 0x0) ∧
    decodeSlot 5 (0x9#6 ++ 0x4#3 ++ 0x1#1 ++ 0x23#6 ++ 0x22#6 ++ 0x2#2 ++ 0x3#8) = some (.vrcp 0x4 0x1 0x23 0x22 0x2) ∧
    decodeSlot 5 (0xA#6 ++ 0x4#3 ++ 0x0#1 ++ 0x18#6 ++ 0x1F#6 ++ 0x2#2 ++ 0x3#8) = some (.vrsq 0x4 0x0 0x18 0x1F 0x2) := by decide

theorem test_decode_v_1 :
    decodeSlot 5 (0xB#6 ++ 0x0#3 ++ 0x0#1 ++ 0x1#6 ++ 0x22#6 ++ 0x1#2 ++ 0x3#8) = some (.vexp2 0x0 0x0 0x1 0x22 0x1) ∧
    decodeSlot 5 (0xC#6 ++ 0x0#3 ++ 0x0#1 ++ 0xD#6 ++ 0x1C#6 ++ 0x0#2 ++ 0x3#8) = some (.vlog2 0x0 0x0 0xD 0x1C 0x0) ∧
    decodeSlot 5 (0xD#6 ++ 0x1#3 ++ 0x0#1 ++ 0x1E#6 ++ 0x2F#6 ++ 0x1#2 ++ 0x3D#6 ++ 0x2#2) = some (.vaddI 0x1 0x0 0x1E 0x2F 0x1 0x3D 0x2) ∧
    decodeSlot 5 (0xE#6 ++ 0x5#3 ++ 0x1#1 ++ 0x3F#6 ++ 0x11#6 ++ 0x0#2 ++ 0xF#6 ++ 0x2#2) = some (.vsubI 0x5 0x1 0x3F 0x11 0x0 0xF 0x2) ∧
    decodeSlot 5 (0xF#6 ++ 0x3#3 ++ 0x1#1 ++ 0x36#6 ++ 0x21#6 ++ 0x1#2 ++ 0x13#6 ++ 0x2#2) = some (.vmulI 0x3 0x1 0x36 0x21 0x1 0x13 0x2) ∧
    decodeSlot 5 (0x10#6 ++ 0x5#3 ++ 0x1#1 ++ 0x17#6 ++ 0x36#6 ++ 0x2#2 ++ 0xC#6 ++ 0x0#2) = some (.vminI 0x5 0x1 0x17 0x36 0x2 0xC 0x0) ∧
    decodeSlot 5 (0x11#6 ++ 0x1#3 ++ 0x0#1 ++ 0x37#6 ++ 0x3E#6 ++ 0x0#2 ++ 0x26#6 ++ 0x1#2) = some (.vmaxI 0x1 0x0 0x37 0x3E 0x0 0x26 0x1) ∧
    decodeSlot 5 (0x12#6 ++ 0x4#3 ++ 0x0#1 ++ 0xA#6 ++ 0x26#6 ++ 0x1#2 ++ 0x29#6 ++ 0x2#2) = some (.vand 0x4 0x0 0xA 0x26 0x1 0x29 0x2) ∧
    decodeSlot 5 (0x13#6 ++ 0x3#3 ++ 0x1#1 ++ 0x29#6 ++ 0x2E#6 ++ 0x0#2 ++ 0x29#6 ++ 0x2#2) = some (.vor 0x3 0x1 0x29 0x2E 0x0 0x29 0x2) ∧
    decodeSlot 5 (0x14#6 ++ 0x4#3 ++ 0x1#1 ++ 0x27#6 ++ 0x3A#6 ++ 0x1#2 ++ 0x1C#6 ++ 0x0#2) = some (.vxor 0x4 0x1 0x27 0x3A 0x1 0x1C 0x0) := by decide

theorem test_decode_v_2 :
    decodeSlot 5 (0x15#6 ++ 0x3#3 ++ 0x0#1 ++ 0x2E#6 ++ 0x2E#6 ++ 0x0#2 ++ 0x2E#6 ++ 0x2#2) = some (.vshl 0x3 0x0 0x2E 0x2E 0x0 0x2E 0x2) ∧
    decodeSlot 5 (0x16#6 ++ 0x6#3 ++ 0x0#1 ++ 0x2F#6 ++ 0x31#6 ++ 0x0#2 ++ 0x16#6 ++ 0x1#2) = some (.vshrS 0x6 0x0 0x2F 0x31 0x0 0x16 0x1) ∧
    decodeSlot 5 (0x17#6 ++ 0x7#3 ++ 0x1#1 ++ 0x2#6 ++ 0x1C#6 ++ 0x0#2 ++ 0x14#6 ++ 0x1#2) = some (.vshrZ 0x7 0x1 0x2 0x1C 0x0 0x14 0x1) ∧
    decodeSlot 5 (0x18#6 ++ 0x6#3 ++ 0x0#1 ++ 0x6#3 ++ 0x1#3 ++ 0x2A#6 ++ 0x2#2 ++ 0x23#6 ++ 0x0#2) = some (.vcmpF 0x6 0x0 0x6 0x1 0x2A 0x2 0x23 0x0) ∧
    decodeSlot 5 (0x19#6 ++ 0x1#3 ++ 0x0#1 ++ 0x4#3 ++ 0x1#3 ++ 0x36#6 ++ 0x0#2 ++ 0x1C#6 ++ 0x2#2) = some (.vcmpI 0x1 0x0 0x4 0x1 0x36 0x0 0x1C 0x2) ∧
    decodeSlot 5 (0x1A#6 ++ 0x5#3 ++ 0x1#1 ++ 0x32#6 ++ 0x2C#6 ++ 0x2#2 ++ 0x2A#6 ++ 0x1#2) = some (.vsel 0x5 0x1 0x32 0x2C 0x2 0x2A 0x1) ∧
    decodeSlot 5 (0x1B#6 ++ 0x7#3 ++ 0x0#1 ++ 0x5#6 ++ 0x34#6 ++ 0x0#2 ++ 0x3#8) = some (.vcvt 0x7 0x0 0x5 0x34 0x0) ∧
    decodeSlot 5 (0x1C#6 ++ 0x6#3 ++ 0x0#1 ++ 0x3B#6 ++ 0x3#6 ++ 0x2#2 ++ 0x3#8) = some (.vpack 0x6 0x0 0x3B 0x3 0x2) ∧
    decodeSlot 5 (0x1D#6 ++ 0x0#3 ++ 0x0#1 ++ 0x35#6 ++ 0x35#6 ++ 0x0#2 ++ 0x3#8) = some (.vunpack 0x0 0x0 0x35 0x35 0x0) ∧
    decodeSlot 5 (0x1E#6 ++ 0x2#3 ++ 0x1#1 ++ 0x15#6 ++ 0x29#6 ++ 0x1#2 ++ 0x3#8) = some (.vsum 0x2 0x1 0x15 0x29 0x1) := by decide

theorem test_decode_v_3 :
    decodeSlot 5 (0x1F#6 ++ 0x6#3 ++ 0x1#1 ++ 0x23#6 ++ 0x7#6 ++ 0x2#2 ++ 0x27#6 ++ 0x0#2) = some (.vdot 0x6 0x1 0x23 0x7 0x2 0x27 0x0) ∧
    decodeSlot 5 (0x20#6 ++ 0x2#3 ++ 0x0#1 ++ 0x7#6 ++ 0x3A#6 ++ 0x2#2 ++ 0x3D#6 ++ 0x0#2) = some (.vperm 0x2 0x0 0x7 0x3A 0x2 0x3D 0x0) ∧
    decodeSlot 5 (0x21#6 ++ 0x1#3 ++ 0x0#1 ++ 0x17#6 ++ 0x2D#6 ++ 0x303#10) = some (.vbcast 0x1 0x0 0x17 0x2D) ∧
    decodeSlot 5 (0x22#6 ++ 0x3#3 ++ 0x0#1 ++ 0x3C#6 ++ 0x1C#6 ++ 0x0#2 ++ 0x3#8) = some (.vmov 0x3 0x0 0x3C 0x1C 0x0) ∧
    decodeSlot 5 (0x23#6 ++ 0x4#3 ++ 0x1#1 ++ 0x16#6 ++ 0x13#5 ++ 0x1#1 ++ 0x8#4 ++ 0x0#6) = some (.vld 0x4 0x1 0x16 0x13 0x1 0x8) ∧
    decodeSlot 5 (0x24#6 ++ 0x7#3 ++ 0x1#1 ++ 0x0#6 ++ 0x2B#6 ++ 0x1#2 ++ 0x3#8) = some (.vseedSet 0x7 0x1 0x2B 0x1) ∧
    decodeSlot 5 (0x25#6 ++ 0x3#3 ++ 0x1#1 ++ 0x6#6 ++ 0x303#16) = some (.vseedGet 0x3 0x1 0x6) ∧
    decodeSlot 5 (0x26#6 ++ 0x3#3 ++ 0x0#1 ++ 0x31#6 ++ 0x23#6 ++ 0x2#2 ++ 0x3#8) = some (.vdecay 0x3 0x0 0x31 0x23 0x2) ∧
    decodeSlot 5 (0x27#6 ++ 0x3#3 ++ 0x0#1 ++ 0x3C#6 ++ 0x2F#6 ++ 0x0#2 ++ 0x1F#6 ++ 0x2#2) = some (.vfwadd 0x3 0x0 0x3C 0x2F 0x0 0x1F 0x2) := by decide

theorem test_decode_x_0 :
    decodeSlot 6 (0x1#6 ++ 0x14#6 ++ 0x35#6 ++ 0x14#6 ++ 0x5#3 ++ 0x0#5) = some (.mmul 0x14 0x35 0x14 0x5) ∧
    decodeSlot 6 (0x1#6 ++ 0x12#6 ++ 0x21#6 ++ 0x0#6 ++ 0x2#3 ++ 0x1#5) = some (.mmulWt 0x12 0x21 0x2) ∧
    decodeSlot 6 (0x2#6 ++ 0x22#6 ++ 0x6#6 ++ 0x13#6 ++ 0x2#3 ++ 0x0#5) = some (.mmula 0x22 0x6 0x13 0x2) ∧
    decodeSlot 6 (0x2#6 ++ 0x0#6 ++ 0x1A#6 ++ 0x0#6 ++ 0x2#3 ++ 0x1#5) = some (.mmulaWt 0x0 0x1A 0x2) ∧
    decodeSlot 6 (0x3#6 ++ 0x10#6 ++ 0xA#6 ++ 0x2D#6 ++ 0x4#3 ++ 0x0#5) = some (.mmulSp 0x10 0xA 0x2D 0x4) ∧
    decodeSlot 6 (0x3#6 ++ 0xC#6 ++ 0x3D#6 ++ 0x0#6 ++ 0x7#3 ++ 0x1#5) = some (.mmulSpWt 0xC 0x3D 0x7) ∧
    decodeSlot 6 (0x4#6 ++ 0xA#6 ++ 0x26#6 ++ 0x2#6 ++ 0x3#3 ++ 0x0#5) = some (.mconv 0xA 0x26 0x2 0x3) ∧
    decodeSlot 6 (0x4#6 ++ 0x35#6 ++ 0x18#6 ++ 0x0#6 ++ 0x1#3 ++ 0x1#5) = some (.mconvWt 0x35 0x18 0x1) ∧
    decodeSlot 6 (0x5#6 ++ 0x38#6 ++ 0x1A#6 ++ 0x4#6 ++ 0x6#3 ++ 0x0#5) = some (.mconva 0x38 0x1A 0x4 0x6) ∧
    decodeSlot 6 (0x5#6 ++ 0x3F#6 ++ 0x14#6 ++ 0x0#6 ++ 0x4#3 ++ 0x1#5) = some (.mconvaWt 0x3F 0x14 0x4) := by decide

theorem test_decode_x_1 :
    decodeSlot 6 (0x6000#18 ++ 0x28#6 ++ 0x4#3 ++ 0x0#5) = some (.mwld 0x28 0x4) ∧
    decodeSlot 6 (0x7#6 ++ 0x33#6 ++ 0x9#6 ++ 0x0#6 ++ 0x4#3 ++ 0x0#4 ++ 0x1#1) = some (.mdrain 0x33 0x9 0x4 0x1) ∧
    decodeSlot 6 (0x8#6 ++ 0x8#6 ++ 0x0#12 ++ 0x5#3 ++ 0x0#5) = some (.mzero 0x8 0x5) ∧
    decodeSlot 6 (0x9#6 ++ 0x9#6 ++ 0x0#12 ++ 0x2#3 ++ 0x0#5) = some (.mlu 0x9 0x2) ∧
    decodeSlot 6 (0xA#6 ++ 0xD#6 ++ 0x0#12 ++ 0x6#3 ++ 0x0#5) = some (.mchol 0xD 0x6) ∧
    decodeSlot 6 (0xB#6 ++ 0x3B#6 ++ 0x0#12 ++ 0x1#3 ++ 0x0#5) = some (.mtri 0x3B 0x1) ∧
    decodeSlot 6 (0xC#6 ++ 0x38#6 ++ 0x1#6 ++ 0x30#6 ++ 0x7#3 ++ 0x0#2 ++ 0x3#3) = some (.mtrs 0x38 0x1 0x30 0x7 0x3) ∧
    decodeSlot 6 (0xD#6 ++ 0x25#6 ++ 0x0#6 ++ 0xE#6 ++ 0x7#3 ++ 0x0#5) = some (.mqr 0x25 0xE 0x7) ∧
    decodeSlot 6 (0xE#6 ++ 0x1#6 ++ 0x1A#6 ++ 0x0#6 ++ 0x2#3 ++ 0x0#4 ++ 0x1#1) = some (.mqapply 0x1 0x1A 0x2 0x1) ∧
    decodeSlot 6 (0xF#6 ++ 0x30#6 ++ 0x0#12 ++ 0x4#3 ++ 0x0#4 ++ 0x1#1) = some (.mperm 0x30 0x4 0x1) := by decide

theorem test_decode_x_2 :
    decodeSlot 6 (0x10#6 ++ 0x32#6 ++ 0x0#12 ++ 0x1#3 ++ 0x0#5) = some (.mres 0x32 0x1) := by decide

theorem test_decode_e_0 :
    decodeSlot 7 (0x1#6 ++ 0x4#3 ++ 0x18#6 ++ 0xC#5 ++ 0x18#5 ++ 0xE#6 ++ 0x0#1) = some (.cp 0x4 0x18 0xC 0x18 0xE) ∧
    decodeSlot 7 (0x2#6 ++ 0x5#3 ++ 0x27#6 ++ 0x11#5 ++ 0x1E#5 ++ 0x2A#6 ++ 0x0#1) = some (.cpT 0x5 0x27 0x11 0x1E 0x2A) ∧
    decodeSlot 7 (0x3#6 ++ 0x7#3 ++ 0x30#6 ++ 0x0#5 ++ 0x5#5 ++ 0xD#6 ++ 0x0#1) = some (.cpf 0x7 0x30 0x5 0xD) ∧
    decodeSlot 7 (0x20#9 ++ 0x12#6 ++ 0x0#17) = some (.efrSet 0x12) ∧
    decodeSlot 7 (0x28#9 ++ 0xC#6 ++ 0x0#2 ++ 0x2#3 ++ 0x0#12) = some (.vdSet 0xC 0x2) ∧
    decodeSlot 7 (0x3000#17 ++ 0x2#3 ++ 0x17#6 ++ 0x18#6) = some (.rotSet 0x2 0x17 0x18) ∧
    decodeSlot 7 (0xE00#15 ++ 0x19#5 ++ 0x0#12) = some (.mlpSet 0x19) ∧
    decodeSlot 7 (0x8#6 ++ 0x0#3 ++ 0x3B#6 ++ 0x5#5 ++ 0x0#7 ++ 0x15#5) = some (.swPermit 0x0 0x3B 0x5 0x15) ∧
    decodeSlot 7 (0x9#6 ++ 0x3#3 ++ 0x4#6 ++ 0x1#2 ++ 0x7#5 ++ 0x37#6 ++ 0x0#1 ++ 0x3#2 ++ 0x0#1) = some (.nmRadd 0x3 0x4 0x1 0x7 0x37 0x3 0x0) ∧
    decodeSlot 7 (0xA#6 ++ 0x6#3 ++ 0x11#6 ++ 0x1#2 ++ 0x9#5 ++ 0x31#6 ++ 0x0#3 ++ 0x1#1) = some (.nmFwadd 0x6 0x11 0x1 0x9 0x31 0x1) := by decide

theorem test_decode_e_1 :
    decodeSlot 7 (0xB#6 ++ 0x6#3 ++ 0x1#6 ++ 0x1#2 ++ 0x14#5 ++ 0x1F#6 ++ 0x0#2 ++ 0x0#2) = some (.nmRed 0x6 0x1 0x1 0x14 0x1F 0x0) ∧
    decodeSlot 7 (0xC#6 ++ 0x5#3 ++ 0x18#6 ++ 0x0#2 ++ 0x13#5 ++ 0x38#6 ++ 0x0#4) = some (.nmOpt 0x5 0x18 0x0 0x13 0x38) ∧
    decodeSlot 7 (0xD#6 ++ 0x6#3 ++ 0x3#8 ++ 0xD#5 ++ 0x2A#6 ++ 0x0#4) = some (.nmSweepReg 0x6 0xD 0x2A) ∧
    decodeSlot 7 (0xD#6 ++ 0x4#3 ++ 0x3#8 ++ 0x6#5 ++ 0x14#6 ++ 0x1#4) = some (.nmSweepUnreg 0x4 0x6 0x14) ∧
    decodeSlot 7 (0xE#6 ++ 0x4#3 ++ 0x26#6 ++ 0xE#5 ++ 0x0#12) = some (.tspawn 0x4 0x26 0xE) ∧
    decodeSlot 7 (0xF#6 ++ 0x5#3 ++ 0x0#6 ++ 0x9#5 ++ 0x0#12) = some (.tjoin 0x5 0x9) ∧
    decodeSlot 7 (0x40000#20 ++ 0x9A5#12) = some (.gstepAdv 0x9A5) := by decide

/-- 03 R77, R79, R84, R85, R89: a bit that must be zero, a modifier without post-modification, equal ports, a port that no
slot has, a scope, a system register and a combination that no table has; each is an illegal encoding. -/
theorem test_decode_reserved :
    decodeSlot 0 (0x6#6 ++ 0#4 ++ 1#18 ++ 0#4) = none ∧ decodeSlot 4 (0x07#6 ++ 0#3 ++ 0#1 ++ 1#6 ++ 1#5 ++ 0#1 ++ 1#4 ++ 0#6) = none ∧
    decodeSlot 5 (0x1#6 ++ 0#4 ++ 1#6 ++ 2#6 ++ 1#2 ++ 3#6 ++ 1#2) = none ∧ decodeSlot 5 (0x1#6 ++ 0#4 ++ 1#6 ++ 2#6 ++ 3#2 ++ 3#6 ++ 1#2) = none ∧
    decodeSlot 0 (0x14#6 ++ 0#4 ++ 0#2 ++ 7#3 ++ 0#13 ++ 0#4) = none ∧ decodeSlot 0 (0xF#6 ++ 0#4 ++ 1#6 ++ 0x15#8 ++ 0#8) = none ∧
    decodeSlot 1 0xFFFFFFFF#32 = none ∧ decodeTableWord 64 0 = none := by decide

end Sys2Proof.Tests
end

section
/-! SUPPORT. Bundles and their encoding (03): what every instruction answers, a slot whose guard is false, the literal stream,
and the words of the slots. -/

namespace Sys2Proof.BundleEncoding

open Sys2Proof Sys2Proof.Machine

-- What every instruction answers.

/-- The slot that an operation runs in: its own, or for an address unit the one in issue (03 R68). -/
def slotRun (i : Instr) (s : State) : Nat := if i.kind = .a then s.cur.slot else i.kind.slot

/-- The meaning that issue looks at is the one that a slot operation runs. -/
theorem exec_slotOp (i : Instr) (s : State) (h : i.kind ≠ .event) :
    exec i s = .next (runSlot (slotRun i s) (semOf i s) s) := by
  cases i
  all_goals try exact absurd rfl h -- an event runs in no slot
  all_goals rfl

/-- Some events first look at a queue, a hold or a fetched bundle, and answer a next state in each case; every other
instruction answers one outright. -/
theorem exec_next (i : Instr) (s : State) : ∃ t, exec i s = .next t := by
  cases i
  case positionHoldEnd | strandSwitch | taskAbort | copyStart | copyCompletion | matrixCommandStart | familyCommandDone
      | factorisationBreakdown | taskRegistration | dependenceEntryGrant | dispatch | startOfTaskActions | endOfTaskActions
      | permitStart | permitCompletion | nmCommandExecute | nmCommandCompletion | faultRecordAppend | rowChange
      | cadenceSwitch | priorityPreemption | stopSequence | replayPassEnd =>
    simp only [exec, execPositionHoldEnd, execStrandSwitch, execTaskAbort, execCopyStart, execCopyCompletion,
      execMatrixCommandStart, execFamilyCommandDone, execFactorisationBreakdown, execTaskRegistration,
      execDependenceEntryGrant, execDispatch, execStartOfTaskActions, execEndOfTaskActions, execPermitStart,
      execPermitCompletion, execNmCommandExecute, execNmCommandCompletion, execFaultRecordAppend, execRowChange,
      execCadenceSwitch, execPriorityPreemption, execStopSequence, execReplayPassEnd]
    split <;> exact ⟨_, rfl⟩
  case illegalEncoding =>
    simp only [exec, execIllegalEncoding]
    split
    · exact ⟨_, rfl⟩
    · split <;> exact ⟨_, rfl⟩
  case matrixResultProduced | stagingFetch =>
    simp only [exec, execMatrixResultProduced, execStagingFetch]
    split
    · exact ⟨_, rfl⟩
    · split
      · exact ⟨_, rfl⟩
      · split <;> exact ⟨_, rfl⟩
  all_goals exact ⟨_, rfl⟩

/-- Settles O56: `exec` ends in no other outcome. -/
theorem neverStops : Obligations.NeverStops := exec_next

-- A slot whose guard is false (03 R71).

/-- The state as it stands when the slot in issue begins to commit. -/
def started (s : State) : State := if s.me.ctx.done = 0 then markFirst s else s

/-- A slot whose guard is false does what stands in place of its operation, and sets its done bit. -/
theorem runSlot_missed {slot : Nat} {m : SlotSem} {s : State} (hd : s.me.ctx.done.testBit slot = false)
    (ha : s.me.abort = none) (hq : s.me.ctx.lq.length ≤ 64) (hg : m.guard = false) (hl : m.literal = none) :
    runSlot slot m s = (m.missed (started s)).modMe (fun t => { t with ctx := markDone slot t.ctx }) := by
  have hbar : slotBar s.me m = none := by simp only [slotBar, hg, Bool.not_false, if_true]
  have hflt : slotFlt s.me m = none := by simp only [slotFlt, hl, hg, Bool.not_false, if_true]
  have hroom : ¬ s.me.ctx.lq.length + slotEnts m > 64 := by
    simp only [slotEnts, hg, Bool.false_eq_true, if_false]; omega
  unfold runSlot
  dsimp only
  rw [if_neg (by simp [hd, ha]), hbar]
  dsimp only
  rw [hflt]
  dsimp only
  rw [if_neg hroom, hg, if_neg Bool.false_ne_true]
  dsimp only
  rw [commitSlot, hg]
  rfl

/-- `u` is `s` but for the control context of the strand in issue, which is `c`. -/
structure CtxIs (s u : State) (c : Ctx) : Prop where
  rest : ({ u with strands := s.strands } : State) = s
  others : ∀ g, g ≠ s.cur.g → u.strand g = s.strand g
  me : u.me = { s.me with ctx := c }

theorem CtxIs.refl (s : State) : CtxIs s s s.me.ctx := ⟨rfl, fun _ _ => rfl, by generalize s.me = t; rfl⟩

theorem CtxIs.cur {s u : State} {c : Ctx} (h : CtxIs s u c) : u.cur = s.cur := by
  have e := congrArg State.cur h.rest; exact e
theorem CtxIs.cores {s u : State} {c : Ctx} (h : CtxIs s u c) : u.cores = s.cores := by
  have e := congrArg State.cores h.rest; exact e
theorem CtxIs.core {s u : State} {c : Ctx} (h : CtxIs s u c) (n : Nat) : u.core n = s.core n := by
  simp only [State.core, h.cores]

theorem CtxIs.mod {s u : State} {c : Ctx} (h : CtxIs s u c) (f : Ctx → Ctx) :
    CtxIs s (u.modMe (fun t => { t with ctx := f t.ctx })) (f c) :=
  ⟨h.rest, fun g hg => by simp [h.cur, hg, h.others g hg], by rw [State.me_modMe, h.me]⟩

/-- The control context of a strand whose bundle has begun to commit. -/
def startedCtx (s : State) : Ctx :=
  { s.me.ctx with first := if s.me.ctx.done = 0 then some (s.nid, s.me.ctx.lq.length) else s.me.ctx.first }

theorem ctxIs_started (s : State) : CtxIs s (started s) (startedCtx s) := by
  by_cases h : s.me.ctx.done = 0
  · simp only [started, startedCtx, if_pos h, markFirst]
    exact (CtxIs.refl s).mod (fun c => { c with first := some (s.nid, c.lq.length) })
  · simp only [started, startedCtx, if_neg h]
    exact .refl s

/-- A C slot that has recorded an annulment and is not done. -/
def annulRecorded : State :=
  State.reset.modMe (fun t => { t with ctx := { t.ctx with cout := { annul := true } } })

/-- Refutes O36: a `br` that is not taken clears the annulment of the C slot's outcome, which the statement lets stand. -/
theorem not_guardFalse : ¬ Obligations.GuardFalse := by
  intro h
  obtain ⟨hbr, _⟩ := h 0 1 0 0 0 0 0 0 0 0 0 0 0 0 0 0 0 0 0 0 annulRecorded (by decide) (by decide) (by decide)
  obtain ⟨t, hexec, _, _, hpass⟩ := hbr (.br 0 1 0 0 0) (List.mem_cons_self ..) (by decide)
  have hstands : t.me.ctx.cout.annul = true := by rw [hpass.me]; rfl
  have hcleared : t.me.ctx.cout.annul = false := by
    obtain rfl := Host.Outcome.next.inj hexec
    rfl
  exact absurd (hstands.symm.trans hcleared) (by decide)

-- The literal stream (03 R89-R91).

/-- The meaning takes a literal word. -/
def TakesWord (s : State) (m : SlotSem) : Prop := ∃ f, m = xSem s f

theorem takesWord_semMatMul (op : Nat) (d a : BitVec 6) (b : Option Nat) (l : BitVec 3) (s : State) :
    TakesWord s (semMatMul op d a b l s) := ⟨_, rfl⟩
theorem takesWord_semConv (op : Nat) (d a : BitVec 6) (b : Option Nat) (l : BitVec 3) (s : State) :
    TakesWord s (semConv op d a b l s) := ⟨_, rfl⟩
theorem takesWord_semMwld (b : BitVec 6) (l : BitVec 3) (s : State) : TakesWord s (semMwld b l s) := ⟨_, rfl⟩
theorem takesWord_semMdrain (d a : BitVec 6) (l : BitVec 3) (z : BitVec 1) (s : State) :
    TakesWord s (semMdrain d a l z s) := ⟨_, rfl⟩
theorem takesWord_semMzero (d : BitVec 6) (l : BitVec 3) (s : State) : TakesWord s (semMzero d l s) := ⟨_, rfl⟩
theorem takesWord_semFam1 (op own : Nat) (b : Bool) (o : Nat → Nat × Bool) (lat : Nat) (d : BitVec 6) (l : BitVec 3)
    (s : State) : TakesWord s (semFam1 op own b o lat d l s) := ⟨_, rfl⟩
theorem takesWord_semMlu (d : BitVec 6) (l : BitVec 3) (s : State) : TakesWord s (semMlu d l s) := by
  unfold semMlu; exact takesWord_semFam1 ..
theorem takesWord_semMtri (d : BitVec 6) (l : BitVec 3) (s : State) : TakesWord s (semMtri d l s) := by
  unfold semMtri; exact takesWord_semFam1 ..
theorem takesWord_semMperm (d : BitVec 6) (l : BitVec 3) (i : BitVec 1) (s : State) : TakesWord s (semMperm d l i s) := by
  unfold semMperm; exact takesWord_semFam1 ..
theorem takesWord_semMchol (d : BitVec 6) (l : BitVec 3) (s : State) : TakesWord s (semMchol d l s) := by
  unfold semMchol; exact takesWord_semFam1 ..
theorem takesWord_semMtrs (d a b : BitVec 6) (l f : BitVec 3) (s : State) : TakesWord s (semMtrs d a b l f s) := ⟨_, rfl⟩
theorem takesWord_semRot2 (op : Nat) (dFirst : Bool) (o own : Nat) (d a : BitVec 6) (l : BitVec 3) (s : State) :
    TakesWord s (semRot2 op dFirst o own d a l s) := ⟨_, rfl⟩
theorem takesWord_semMres (d : BitVec 6) (l : BitVec 3) (s : State) : TakesWord s (semMres d l s) := ⟨_, rfl⟩

/-- Every X operation takes a literal word (03 R89). -/
theorem takesWord_of_x (i : Instr) (h : i.kind = .x) (s : State) : TakesWord s (semOf i s) := by
  cases i <;> cases h
  case mmul d a b l => exact takesWord_semMatMul 1 d a (some b.toNat) l s
  case mmulWt d a l => exact takesWord_semMatMul 1 d a none l s
  case mmula d a b l => exact takesWord_semMatMul 2 d a (some b.toNat) l s
  case mmulaWt d a l => exact takesWord_semMatMul 2 d a none l s
  case mmulSp d a b l => exact takesWord_semMatMul 3 d a (some b.toNat) l s
  case mmulSpWt d a l => exact takesWord_semMatMul 3 d a none l s
  case mconv d a b l => exact takesWord_semConv 4 d a (some b.toNat) l s
  case mconvWt d a l => exact takesWord_semConv 4 d a none l s
  case mconva d a b l => exact takesWord_semConv 5 d a (some b.toNat) l s
  case mconvaWt d a l => exact takesWord_semConv 5 d a none l s
  case mwld => exact takesWord_semMwld ..
  case mdrain => exact takesWord_semMdrain ..
  case mzero => exact takesWord_semMzero ..
  case mtrs => exact takesWord_semMtrs ..
  case mres => exact takesWord_semMres ..
  case mqr | mqapply => exact takesWord_semRot2 ..
  case mlu => exact takesWord_semMlu ..
  case mchol => exact takesWord_semMchol ..
  case mtri => exact takesWord_semMtri ..
  case mperm => exact takesWord_semMperm ..

/-- A literal fault is raised whatever else the slot meets. -/
theorem runSlot_literal {slot : Nat} {m : SlotSem} {s : State} {e : Flt} (hd : s.me.ctx.done.testBit slot = false)
    (ha : s.me.abort = none) (hg : m.guard = false) (hl : m.literal = some e) :
    runSlot slot m s = s.raise s.cur.g slot e := by
  have hbar : slotBar s.me m = none := by simp only [slotBar, hg, Bool.not_false, if_true]
  have hflt : slotFlt s.me m = some e := by simp only [slotFlt, hl]
  have hhor : clearHorizon m s = s := by
    simp only [clearHorizon, horizonHere, hg, Bool.false_and, Bool.false_eq_true, if_false]
  unfold runSlot
  dsimp only
  rw [if_neg (by simp [hd, ha]), hbar]
  dsimp only
  rw [hflt]
  dsimp only
  rw [hhor]

/-- With no pending destination of an earlier bundle a slot waits for its own condition. -/
theorem runSlot_wait {slot : Nat} {m : SlotSem} {s : State} {b : Bar} (hd : s.me.ctx.done.testBit slot = false)
    (ha : s.me.abort = none) (hp : s.me.oldPends = []) (hg : m.guard = true) (hw : m.wait = some b) :
    runSlot slot m s = barred b s := by
  have hbar : slotBar s.me m = some b := by simp [slotBar, pendBar, hg, hp, hw]
  unfold runSlot
  dsimp only
  rw [if_neg (by simp [hd, ha]), hbar]

/-- The requests under way without one that is over. -/
def flightsLess (id : Nat) (s : State) : State :=
  { s with flights := if s.flights.any (fun f => f.id == id) then s.flights.filter (fun f => f.id != id) else s.flights }

theorem landed_eq (s : State) (id : Nat) : s.landed id = flightsLess id s := by
  unfold State.landed flightsLess; split <;> rfl

/-- The strand without what it has asked for at an address. -/
def asksLess (va : Nat) (t : Strand) : Strand := { t with asks := t.asks.filter (fun x => x.1 != va) }

theorem askOver_none {s : State} {va : Nat} (h : s.me.asks.find? (fun a => a.1 == va) = none) : s.askOver s.cur.g va = s := by
  unfold State.askOver; rw [← State.me_eq, h]

theorem askOver_some {s : State} {va : Nat} {a : Nat × Nat} (h : s.me.asks.find? (fun a => a.1 == va) = some a) :
    s.askOver s.cur.g va = (flightsLess a.2 s).modMe (asksLess va) := by
  unfold State.askOver; rw [← State.me_eq, h]
  dsimp only
  rw [landed_eq]
  rfl

/-- What the use of an asked word leaves of the strand in issue and of the package. -/
structure Used (s u : State) : Prop where
  cur : u.cur = s.cur
  nid : u.nid = s.nid
  ctx : u.me.ctx = s.me.ctx
  mlp : u.me.mlp = s.me.mlp

theorem used_askOver (s : State) (va : Nat) : Used s (s.askOver s.cur.g va) := by
  cases h : s.me.asks.find? (fun a => a.1 == va) with
  | none => rw [askOver_none h]; exact ⟨rfl, rfl, rfl, rfl⟩
  | some a => rw [askOver_some h]; exact ⟨rfl, rfl, by rw [State.me_modMe]; rfl, by rw [State.me_modMe]; rfl⟩

/-- Two states that differ in the control context of the strand in issue alone still do when both use an asked word. -/
theorem CtxIs.askOver {s u : State} {c : Ctx} (h : CtxIs s u c) (va : Nat) :
    CtxIs (s.askOver s.cur.g va) (u.askOver u.cur.g va) c := by
  have hu : u = { s with strands := u.strands } := congrArg (fun x : State => { x with strands := u.strands }) h.rest
  have hasks : u.me.asks = s.me.asks := by rw [h.me]
  cases hs : s.me.asks.find? (fun a => a.1 == va) with
  | none => rw [askOver_none hs, askOver_none (hasks ▸ hs)]; exact h
  | some a =>
    rw [askOver_some hs, askOver_some (hasks ▸ hs)]
    have hf : flightsLess a.2 u = { flightsLess a.2 s with strands := u.strands } := by rw [hu]; rfl
    have hme : (flightsLess a.2 u).me = { s.me with ctx := c } := h.me
    refine ⟨?_, fun g hg => ?_, ?_⟩
    · rw [hf]; rfl
    · have hcur : (flightsLess a.2 u).cur = s.cur := h.cur
      have hg' : g ≠ s.cur.g := hg
      have hgs : (flightsLess a.2 s).cur = s.cur := rfl
      simp only [State.modMe_eq, State.strand_setStrand, hcur, hgs, if_neg hg']
      exact h.others g hg'
    · rw [State.me_modMe, State.me_modMe, hme]; rfl

/-- `u` is `s` but for the translations that the cores and the clusters keep. -/
structure TlbIs (s u : State) : Prop where
  rest : ({ u with cores := s.cores, ctlb := s.ctlb } : State) = s
  core : ∀ c, ({ u.core c with utlb := (s.core c).utlb } : Core) = s.core c

theorem TlbIs.refl (s : State) : TlbIs s s := ⟨rfl, fun _ => rfl⟩

theorem TlbIs.trans {s u v : State} (h : TlbIs s u) (k : TlbIs u v) : TlbIs s v := by
  refine ⟨?_, fun c => ?_⟩
  · have e := congrArg (fun x : State => { x with cores := s.cores, ctlb := s.ctlb }) k.rest
    exact e.trans h.rest
  · have e := congrArg (fun x : Core => { x with utlb := (s.core c).utlb }) (k.core c)
    exact e.trans (h.core c)

theorem TlbIs.cur {s u : State} (h : TlbIs s u) : u.cur = s.cur := by
  have e := congrArg State.cur h.rest; exact e
theorem TlbIs.strands {s u : State} (h : TlbIs s u) : u.strands = s.strands := by
  have e := congrArg State.strands h.rest; exact e
theorem TlbIs.strand {s u : State} (h : TlbIs s u) (g : Nat) : u.strand g = s.strand g := by
  simp only [State.strand, h.strands]
theorem TlbIs.me {s u : State} (h : TlbIs s u) : u.me = s.me := by
  simp only [State.me, h.strand, h.cur]

theorem TlbIs.modCore (s : State) (c : Nat) (f : Core → Core) (hf : ∀ k, ({ f k with utlb := k.utlb } : Core) = k) :
    TlbIs s (s.modCore c f) := by
  refine ⟨rfl, fun d => ?_⟩
  rw [State.modCore_eq, State.core_setCore]
  split
  · next h => subst h; exact hf _
  · rfl

/-- A translation kept changes the translation caches alone. -/
theorem TlbIs.keepTlb (s : State) (c : Nat) (t : Tlb) : TlbIs s (s.keepTlb c t) := by
  unfold State.keepTlb
  dsimp only
  generalize hu : s.modCore c _ = u
  have hcore : TlbIs s u := by
    rw [← hu]
    exact .modCore s c _ fun k => by split <;> rfl
  split
  · exact hcore
  · exact hcore.trans ⟨rfl, fun _ => rfl⟩

theorem TlbIs.keepTlbs (ts : List Tlb) (s : State) : TlbIs s (keepTlbs ts s) := by
  unfold Machine.keepTlbs
  induction ts generalizing s with
  | nil => exact .refl s
  | cons t ts ih => exact (TlbIs.keepTlb s _ t).trans (ih _)

/-- MLP past the literal word at `p` (03 R89). -/
def pastWord (p : Nat) (t : Strand) : Strand := { t with mlp := BitVec.ofNat 64 ((p + 4) % 2 ^ 57) }

/-- An X operation whose literal word has a false guard is passed over, and its word is consumed. -/
theorem passedOver_advance (s : State) (ts : List Tlb) :
    PassedOver (s.askOver s.cur.g s.me.mlp.toNat) ((advance ts (started s)).modMe (fun t => { t with ctx := markDone 6 t.ctx }))
      6 (fun c => c) (pastWord s.me.mlp.toNat) := by
  have hmlp : (started s).me.mlp = s.me.mlp := by rw [(ctxIs_started s).me]
  have hused := used_askOver s s.me.mlp.toNat
  have hctx := (ctxIs_started s).askOver s.me.mlp.toNat
  unfold advance
  rw [hmlp]
  generalize s.askOver s.cur.g s.me.mlp.toNat = v at hused hctx ⊢
  generalize (started s).askOver (started s).cur.g s.me.mlp.toNat = u at hctx ⊢
  have htlb := TlbIs.keepTlbs ts u
  generalize keepTlbs ts u = w at htlb ⊢
  have hcur : w.cur = v.cur := htlb.cur.trans hctx.cur
  refine ⟨?_, fun g hg => ?_, fun c => ?_, ?_⟩
  · have e := congrArg (fun x : State => { x with strands := v.strands, cores := v.cores, ctlb := v.ctlb }) htlb.rest
    have e' := congrArg (fun x : State => { x with cores := v.cores, ctlb := v.ctlb }) hctx.rest
    exact e.trans e'
  · simp only [State.modMe_eq, State.strand_setStrand, State.setStrand_cur, hcur, if_neg hg]
    exact (htlb.strand g).trans (hctx.others g hg)
  · rw [← hctx.core c]; exact htlb.core c
  · rw [State.me_modMe, State.me_modMe, htlb.me, hctx.me]
    simp only [passedCtx, hused.ctx, hused.nid, hused.mlp]
    rfl

/-- A literal word that cannot be fetched is 0x02, or 0x21 behind an error in the tables. -/
theorem litAt_of_error {s : State} {x : Nat} (h : s.linPieces (coreOf s.cur.g) s.me.part 1 false 2 s.me.mlp.toNat 4 = .error x) :
    litAt s = .error ⟨if s.xlateBad (coreOf s.cur.g) s.me.part x then 0x21 else 0x02, 0, s.me.mlp.toNat⟩ := by
  simp only [litAt, h]

section
variable {s : State} {ps : List Piece} {ts : List Tlb}
  (h : s.linPieces (coreOf s.cur.g) s.me.part 1 false 2 s.me.mlp.toNat 4 = .ok (ps, ts))
include h

theorem litAt_of_bad (hb : s.badAt 0 ps ≠ none) : litAt s = .error ⟨0x21, 0, s.me.mlp.toNat⟩ := by
  simp only [litAt, h, Option.isSome_iff_ne_none.mpr hb, if_true]

theorem litAt_of_sound (hb : s.badAt 0 ps = none) : litAt s = .ok (leNat (s.loadBelow ps), ts) := by
  simp only [litAt, h, hb, Option.isSome_none, Bool.false_eq_true, if_false]

theorem litAsk_of_asked (ha : s.asked s.cur.g s.me.mlp.toNat ps = true) : litAsk s = none := by
  simp only [litAsk, h, ha, if_true]

theorem litAsk_of_unasked (ha : s.asked s.cur.g s.me.mlp.toNat ps = false) : litAsk s = some (.ask s.me.mlp.toNat ps) := by
  simp only [litAsk, h, ha, Bool.false_eq_true, if_false]

end

theorem xSem_of_error {s : State} {e : Flt} (f : Nat → SlotSem) (h : litAt s = .error e) :
    xSem s f = { guard := false, literal := some e, dsts := (f 0).dsts } := by
  simp only [xSem, h]

theorem xSem_of_ask {s : State} {w : Nat} {ts : List Tlb} {b : Bar} (f : Nat → SlotSem) (h : litAt s = .ok (w, ts))
    (hb : litAsk s = some b) : xSem s f = { wait := some b, dsts := (f w).dsts } := by
  simp only [xSem, h, hb, Option.isSome_some, if_true]

theorem xSem_of_false {s : State} {w : Nat} {ts : List Tlb} (f : Nat → SlotSem) (h : litAt s = .ok (w, ts))
    (hb : litAsk s = none) (hg : s.me.rp (bits w 31 29) = bit w 28) :
    xSem s f = { guard := false, dsts := (f w).dsts, missed := advance ts } := by
  simp only [xSem, h, hb, hg, Option.isSome_none, Bool.false_eq_true, if_false, bne_self_eq_false]

/-- Settles O31: the literal word of an X operation is fetched, asked for and guarded in `xSem`, which every X operation
goes through. -/
theorem literalStream : Obligations.LiteralStream := by
  intro d a b l z f s hdone habort p i hi
  have hk : i.kind = .x :=
    List.eq_of_mem_replicate (show i.kind ∈ List.replicate 21 SlotKind.x from List.mem_map_of_mem (f := Instr.kind) hi)
  have hexec : exec i s = .next (runSlot 6 (semOf i s) s) := by
    rw [exec_slotOp i s (by rw [hk]; nofun), slotRun, hk]; rfl
  obtain ⟨f, hf⟩ := takesWord_of_x i hk s
  rw [hexec, hf]
  refine ⟨fun x hx => ?_, fun ps ts hps hbad => ?_, fun ps ts hps hbad => ⟨fun hask hold => ?_, fun hask hroom hguard => ?_⟩⟩
  · rw [xSem_of_error f (litAt_of_error hx), runSlot_literal hdone habort rfl rfl]
  · rw [xSem_of_error f (litAt_of_bad hps hbad), runSlot_literal hdone habort rfl rfl]
  · rw [xSem_of_ask f (litAt_of_sound hps hbad) (litAsk_of_unasked hps hask), runSlot_wait hdone habort hold rfl rfl]
  · rw [xSem_of_false f (litAt_of_sound hps hbad) (litAsk_of_asked hps hask) hguard,
      runSlot_missed hdone habort hroom rfl rfl]
    exact ⟨_, rfl, passedOver_advance s ts⟩

-- Words of the slots (03 R75-R83).

/-- No table lists the opcode 0x3F. -/
theorem decodeSlot_opcode63 (k : Nat) (b : BitVec 26) : decodeSlot k (0x3F#6 ++ b) = none := by
  have hop : (0x3F#6 ++ b).toNat / 0x4000000 = 63 := by
    have hb := b.isLt
    rw [BitVec.toNat_append, ← Nat.shiftLeft_add_eq_or_of_lt hb, Nat.shiftLeft_eq, BitVec.toNat_ofNat]
    omega
  unfold decodeSlot
  split <;> simp [rawC, rawS, rawA, rawL, rawV, rawX, rawE, hop]

/-- Settles O53: the words evaluate, and every table is asked for the opcode first. -/
theorem decodeWords : Obligations.DecodeWords :=
  ⟨by decide, by decide, by decide, by decide, by decide, by decide, by decide, by decide,
    fun k _ b => decodeSlot_opcode63 k b⟩

/-- Refutes O54: in every slot the word of all zeros decodes to `nop`, which is an operation of the C slot alone. -/
theorem not_decodeEncode : ¬ Obligations.DecodeEncode := by
  intro ⟨_, _, h⟩
  have hnop : decodeSlot 1 0#32 = some (.nop 0#4) := by decide
  obtain ⟨_, _, _, hslot⟩ := h 1 0#32 (.nop 0#4) hnop
  exact absurd hslot (by decide)

end Sys2Proof.BundleEncoding
end

section
/-! SUPPORT. Scalar and address operations (04): the operations of the S slot and of the address units, the values that they
write, and the words that their tables leave out. -/

namespace Sys2Proof.ScalarAddress

open Sys2Proof Sys2Proof.Machine

-- The shapes that the operations of the S slot share.

section
variable {i : Instr} {k : BitVec 3} {g : BitVec 1} {d a b : BitVec 6} {l : Nat} {v : Strand → W64}

theorem writesS_of {rd : List (BitVec 6)}
    (he : ∀ s, exec i s = .next (runSlot 1 (sSem s.me k g (rd.map BitVec.toNat) d l (v s.me)) s)) : WritesS i k g rd d l v :=
  writes_of (fun s => sSem s.me k g (rd.map BitVec.toNat) d l (v s.me)) he (fun _ => List.map_map) (fun _ => rfl)
    (fun _ h => h) (fun _ => rfl) (fun _ => rfl) (fun _ => rfl) (fun _ => rfl) (fun _ => rfl)
    (fun _ h => slotEnts_one _ l _ rfl rfl h) (fun _ => .id) (fun _ => rfl) (fun _ _ => rfl) (fun _ => rfl)

theorem writesP_of {d : BitVec 3} {rd : List Dst} {v : Strand → Bool}
    (he : ∀ s, exec i s = .next (runSlot 1 (pSem s.me k g rd d (v s.me)) s)) : WritesP i k g rd d v :=
  writes_of (fun s => pSem s.me k g rd d (v s.me)) he (fun _ => rfl) (fun _ => rfl)
    (fun _ h => h) (fun _ => rfl) (fun _ => rfl) (fun _ => rfl) (fun _ => rfl) (fun _ => rfl)
    (fun _ h => slotEnts_one _ 1 _ rfl rfl h) (fun _ => .id) (fun _ => rfl) (fun _ _ => rfl) (fun _ => rfl)

/-- What an RSTO rounding makes of the lane seeds does not look at the control context. -/
theorem reserveRsto_ctx (t : Strand) (c : Ctx) :
    (if ({ t with ctx := c } : Strand).rmode = .rsto then ({ t with ctx := c } : Strand).reserve [(0, 1)]
      else { t with ctx := c }) =
      { (if t.rmode = .rsto then t.reserve [(0, 1)] else t) with ctx := c } := by
  have hmode : ({ t with ctx := c } : Strand).rmode = t.rmode := rfl
  rw [hmode]
  split
  · exact Strand.reserve_ctx t _ c
  · rfl

theorem roundsS_of {rd : List (BitVec 6)}
    (he : ∀ s, exec i s = .next (runSlot 1 (sFp s.me k g (rd.map BitVec.toNat) d l (v s.me)) s))
    (hl : 1 < l := by decide) : RoundsS i k g rd d l v :=
  writes_of (fun s => sFp s.me k g (rd.map BitVec.toNat) d l (v s.me)) he (fun _ => List.map_map) (fun _ => rfl)
    (fun _ h => h) (fun _ => rfl) (fun _ => rfl) (fun _ => rfl) (fun _ => rfl) (fun _ => rfl)
    (fun _ h => (slotEnts_one _ l _ rfl rfl h).trans (if_pos hl)) (fun _ => .sStep) (fun _ => rfl) reserveRsto_ctx (fun _ => rfl)

theorem writesS_semRR {f : W64 → W64 → W64} (he : ∀ s, exec i s = .next (runSlot 1 (semRR f l k g d a b s) s))
    (hv : ∀ t : Strand, f (t.rs a.toNat) (t.rs b.toNat) = v t) : WritesS i k g [a, b] d l v :=
  writesS_of fun s => by rw [he, ← hv]; rfl

theorem writesS_semR1 {f : W64 → W64} (he : ∀ s, exec i s = .next (runSlot 1 (semR1 f k g d a s) s))
    (hv : ∀ t : Strand, f (t.rs a.toNat) = v t) : WritesS i k g [a] d 1 v :=
  writesS_of fun s => by rw [he, ← hv]; rfl

theorem writesS_semRC {f : W64 → Nat → W64} {n : BitVec 6} (he : ∀ s, exec i s = .next (runSlot 1 (semRC f k g d a n s) s))
    (hv : ∀ t : Strand, f (t.rs a.toNat) n.toNat = v t) : WritesS i k g [a] d 1 v :=
  writesS_of fun s => by rw [he, ← hv]; rfl

end

-- Sign extension (03 R71).

theorem sext64_toNat {w : Nat} (hw : w ≤ 64) (x : BitVec w) : sext64 w x.toNat = x.signExtend 64 := by
  have hx := x.isLt
  have hpow : 2 ^ w ≤ 2 ^ 64 := Nat.pow_le_pow_right (by decide) hw
  have hmsb : x.toNat.testBit (w - 1) = x.msb := by rw [BitVec.msb_eq_getLsbD_last, BitVec.getLsbD]
  apply BitVec.eq_of_toNat_eq
  rw [BitVec.toNat_signExtend, BitVec.toNat_setWidth, sext64, hmsb]
  cases x.msb with
  | false => simp
  | true =>
    simp only [if_true, BitVec.toNat_ofNat]
    omega

theorem writesS_semRI {i : Instr} {k : BitVec 3} {g : BitVec 1} {d a : BitVec 6} {v : Strand → W64} {f : W64 → W64 → W64}
    {n : BitVec 10} (he : ∀ s, exec i s = .next (runSlot 1 (semRI f k g d a n s) s))
    (hv : ∀ t : Strand, f (t.rs a.toNat) (n.signExtend 64) = v t) : WritesS i k g [a] d 1 v :=
  writesS_of fun s => by rw [he, ← hv, ← sext64_toNat (by decide) n]; rfl

/-- The number of a word that is put together of a high and a low part. -/
theorem toNat_append_add {m n : Nat} (x : BitVec m) (y : BitVec n) : (x ++ y).toNat = x.toNat * 2 ^ n + y.toNat := by
  rw [BitVec.toNat_append, ← Nat.shiftLeft_add_eq_or_of_lt y.isLt, Nat.shiftLeft_eq]

theorem toNat_ne_zero_iff {n : Nat} {x : BitVec n} : x.toNat ≠ 0 ↔ x ≠ 0#n := by
  rw [ne_eq, ne_eq, BitVec.toNat_eq, BitVec.toNat_ofNat, Nat.zero_mod]

theorem sext64_lui (u : BitVec 16) : sext64 26 (u.toNat * 1024) = (u ++ 0#10).signExtend 64 := by
  have hu : (u ++ 0#10).toNat = u.toNat * 1024 := by rw [toNat_append_add]; simp
  rw [← hu, sext64_toNat (by decide)]

-- Shifts, minima and maxima (04 R97).

theorem shiftLeft_eq_ofNat (x : W64) (n : Nat) : x <<< n = BitVec.ofNat 64 (x.toNat * 2 ^ n) := by
  apply BitVec.eq_of_toNat_eq
  rw [BitVec.toNat_shiftLeft, BitVec.toNat_ofNat, Nat.shiftLeft_eq]

theorem ushiftRight_eq_ofNat (x : W64) (n : Nat) : x >>> n = BitVec.ofNat 64 (x.toNat / 2 ^ n) := by
  apply BitVec.eq_of_toNat_eq
  rw [BitVec.toNat_ushiftRight, BitVec.toNat_ofNat, Nat.shiftRight_eq_div_pow,
    Nat.mod_eq_of_lt (Nat.lt_of_le_of_lt (Nat.div_le_self ..) x.isLt)]

theorem sshiftRight_eq_ofInt (x : W64) (n : Nat) : x.sshiftRight n = BitVec.ofInt 64 (x.toInt / 2 ^ n) := by
  rw [BitVec.sshiftRight, Int.shiftRight_eq_div_pow, Int.natCast_pow]; rfl

theorem rotateRight_cnt (x y : W64) : x.rotateRight (cnt y) = x >>> (y.toNat % 64) ||| x <<< (64 - y.toNat % 64) := by
  rw [cnt, BitVec.rotateRight_def, Nat.mod_mod]

theorem minS64_eq (x y : W64) : minS64 x y = if x.toInt ≤ y.toInt then x else y := by
  simp only [minS64, BitVec.slt, decide_eq_true_eq, ← Int.not_le, ite_not]

theorem minZ64_eq (x y : W64) : minZ64 x y = if x.toNat ≤ y.toNat then x else y := by
  simp only [minZ64, BitVec.ult, decide_eq_true_eq, ← Nat.not_le, ite_not]

theorem maxS64_eq (x y : W64) : maxS64 x y = if x.toInt ≤ y.toInt then y else x := by
  simp only [maxS64, BitVec.slt, decide_eq_true_eq]
  obtain h | h | h := Int.lt_trichotomy x.toInt y.toInt
  · rw [if_pos h, if_pos (Int.le_of_lt h)]
  · rw [BitVec.eq_of_toInt_eq h, ite_self, ite_self]
  · rw [if_neg (Int.lt_asymm h), if_neg (Int.not_le.2 h)]

theorem maxZ64_eq (x y : W64) : maxZ64 x y = if x.toNat ≤ y.toNat then y else x := by
  simp only [maxZ64, BitVec.ult, decide_eq_true_eq]
  obtain h | h | h := Nat.lt_trichotomy x.toNat y.toNat
  · rw [if_pos h, if_pos (Nat.le_of_lt h)]
  · rw [BitVec.eq_of_toNat_eq h, ite_self, ite_self]
  · rw [if_neg (Nat.lt_asymm h), if_neg (Nat.not_le.2 h)]

-- Words that the table of the S slot leaves out (03 R77).

theorem fx_eq_false {w : BitVec 32} {lo len v : Nat} (h : w.toNat / 2 ^ lo % 2 ^ len ≠ v) : fx w lo len v = false :=
  beq_false_of_ne h

theorem decodeSlot_s_eq_none {w : BitVec 32} (h : rawS w = none) : decodeSlot 1 w = none := by
  rw [decodeSlot, h]; rfl

theorem rawS_integer_illegal {w : BitVec 32} (hop : w.toNat / 0x4000000 = 1) (hfn : 14 ≤ w.toNat % 16) : rawS w = none := by
  have hfx : ∀ v < 14, fx w 0 4 v = false := fun v hv => fx_eq_false (by omega)
  simp [rawS, hop, hfx]

theorem rawS_multiply_illegal {w : BitVec 32} (hop : w.toNat / 0x4000000 = 2) (hfn : 7 ≤ w.toNat % 16) : rawS w = none := by
  have hfx : ∀ v < 7, fx w 0 4 v = false := fun v hv => fx_eq_false (by omega)
  simp [rawS, hop, hfx]

theorem rawS_unary_illegal {w : BitVec 32} (hop : w.toNat / 0x4000000 = 3) (hfn : 9 ≤ w.toNat % 1024) : rawS w = none := by
  have hfx : ∀ v < 9, fx w 0 10 v = false := fun v hv => fx_eq_false (by omega)
  simp [rawS, hop, hfx]

/-- Opcode and lowest field of a word with a guard and three registers. -/
theorem word_rrr (o : BitVec 6) (k : BitVec 3) (g : BitVec 1) (d a b : BitVec 6) (f : BitVec 4) :
    (o ++ k ++ g ++ d ++ a ++ b ++ f).toNat / 0x4000000 = o.toNat ∧
    (o ++ k ++ g ++ d ++ a ++ b ++ f).toNat % 0x400 = b.toNat * 0x10 + f.toNat := by
  simp only [toNat_append_add]
  omega

/-- Settles O1: every form runs through `semRR`, `semRI` or `semRC`, with the value of its rule. -/
theorem scalarInteger : Obligations.ScalarInteger := by
  refine ⟨fun k g d a b => ?_, fun k g d a i n u => ?_⟩
  · refine ⟨writesS_semRR (fun _ => rfl) fun _ => rfl, writesS_semRR (fun _ => rfl) fun _ => rfl,
      writesS_semRR (fun _ => rfl) fun _ => rfl, writesS_semRR (fun _ => rfl) fun _ => rfl,
      writesS_semRR (fun _ => rfl) fun _ => rfl, writesS_semRR (fun _ => rfl) fun _ => rfl,
      writesS_semRR (fun _ => rfl) fun _ => shiftLeft_eq_ofNat .., writesS_semRR (fun _ => rfl) fun _ => sshiftRight_eq_ofInt ..,
      writesS_semRR (fun _ => rfl) fun _ => ushiftRight_eq_ofNat .., writesS_semRR (fun _ => rfl) fun _ => rotateRight_cnt ..,
      writesS_semRR (fun _ => rfl) fun _ => minS64_eq .., writesS_semRR (fun _ => rfl) fun _ => minZ64_eq ..,
      writesS_semRR (fun _ => rfl) fun _ => maxS64_eq .., writesS_semRR (fun _ => rfl) fun _ => maxZ64_eq .., fun f hf => ?_⟩
    obtain ⟨hop, hlow⟩ := word_rrr 0x01#6 k g d a b f
    exact decodeSlot_s_eq_none (rawS_integer_illegal hop (by omega))
  · exact ⟨writesS_semRI (fun _ => rfl) fun _ => rfl, writesS_semRI (fun _ => rfl) fun _ => rfl,
      writesS_semRI (fun _ => rfl) fun _ => rfl, writesS_semRI (fun _ => rfl) fun _ => rfl,
      writesS_semRI (fun _ => rfl) fun _ => rfl, writesS_semRC (fun _ => rfl) fun _ => shiftLeft_eq_ofNat ..,
      writesS_semRC (fun _ => rfl) fun _ => sshiftRight_eq_ofInt .., writesS_semRC (fun _ => rfl) fun _ => ushiftRight_eq_ofNat ..,
      writesS_of fun s => by rw [← sext64_lui]; rfl⟩

-- Quotients and remainders (04 R99).

theorem divS64_eq (x y : W64) : divS64 x y = if y = 0#64 then 0xFFFFFFFFFFFFFFFF#64
    else if x.toInt = -2 ^ 63 ∧ y.toInt = -1 then x
    else BitVec.ofInt 64 (x.toInt.tdiv y.toInt) := by
  rw [divS64]
  split
  · rfl
  · split
    · next h =>
      obtain ⟨hx, hy⟩ := h
      rw [hx, hy, ← BitVec.ofInt_toInt (x := x), hx]; decide
    · rfl

theorem remS64_eq (x y : W64) : remS64 x y = if y = 0#64 then x
    else if x.toInt = -2 ^ 63 ∧ y.toInt = -1 then 0#64
    else BitVec.ofInt 64 (x.toInt - y.toInt * x.toInt.tdiv y.toInt) := by
  rw [remS64]
  split
  · rfl
  · split
    · next h =>
      obtain ⟨hx, hy⟩ := h
      rw [hx, hy]; decide
    · rw [Int.tmod_def]

-- Bit counts and extensions (04 R100).

/-- Leading zero bits as a number, for `clz64`. -/
def leadingZeros (x : W64) : Nat := if x = 0#64 then 64 else 63 - x.toNat.log2

theorem clz64_eq (x : W64) : clz64 x = BitVec.ofNat 64 (leadingZeros x) := by
  rw [clz64, leadingZeros]; split <;> rfl

theorem leadingZeros_spec (x : W64) :
    leadingZeros x ≤ 64 ∧ x.toNat < 2 ^ (64 - leadingZeros x) ∧ (leadingZeros x = 64 ∨ 2 ^ (63 - leadingZeros x) ≤ x.toNat) := by
  by_cases h : x = 0#64
  · subst h; decide
  · have hx : x.toNat ≠ 0 := toNat_ne_zero_iff.2 h
    have hlog : x.toNat.log2 < 64 := (Nat.log2_lt hx).2 x.isLt
    rw [leadingZeros, if_neg h]
    refine ⟨by omega, ?_, .inr ?_⟩
    · rw [show 64 - (63 - x.toNat.log2) = x.toNat.log2 + 1 by omega]; exact Nat.lt_log2_self
    · rw [show 63 - (63 - x.toNat.log2) = x.toNat.log2 by omega]; exact Nat.log2_self_le hx

/-- Trailing zero bits as a number, for `ctz64`. -/
def trailingZeros (x : W64) : Nat := ctzFrom 64 x.toNat 0

/-- Looking for a one bit from bit `i` on passes zero bits alone. -/
theorem ctzFrom_spec (f n i : Nat) (h : 2 ^ i ∣ n) :
    ctzFrom f n i ≤ i + f ∧ 2 ^ ctzFrom f n i ∣ n ∧ (ctzFrom f n i = i + f ∨ n.testBit (ctzFrom f n i) = true) := by
  induction f generalizing i with
  | zero => exact ⟨Nat.le_refl _, h, .inl rfl⟩
  | succ f ih =>
    rw [ctzFrom]
    split
    · next hb => exact ⟨by omega, h, .inr hb⟩
    · next hb =>
      obtain ⟨m, rfl⟩ := h
      have heven : 2 ∣ m := by
        rw [Nat.testBit_eq_decide_div_mod_eq, Nat.mul_div_cancel_left _ (Nat.two_pow_pos i), decide_eq_true_eq] at hb
        omega
      have h' := ih (i + 1) (by rw [Nat.pow_succ]; exact Nat.mul_dvd_mul_left _ heven)
      rwa [Nat.add_right_comm, Nat.add_assoc] at h'

theorem trailingZeros_spec (x : W64) :
    trailingZeros x ≤ 64 ∧ 2 ^ trailingZeros x ∣ x.toNat ∧ (trailingZeros x = 64 ∨ x.getLsbD (trailingZeros x) = true) := by
  have h := ctzFrom_spec 64 x.toNat 0 (Nat.one_dvd _)
  rwa [Nat.zero_add] at h

theorem popFrom_eq_countP (f n : Nat) : popFrom f n = (List.range f).countP (fun j => n.testBit j) := by
  induction f generalizing n with
  | zero => rfl
  | succ f ih =>
    rw [popFrom, ih, List.range_succ_eq_map, List.countP_cons, List.countP_map, Nat.add_comm]
    congr 1
    · simp only [Function.comp_def, Nat.succ_eq_add_one, Nat.testBit_succ]
    · rw [Nat.testBit_zero]
      rcases Nat.mod_two_eq_zero_or_one n with h | h <;> simp [h]

theorem popc64_eq (x : W64) : popc64 x = BitVec.ofNat 64 ((List.range 64).countP (fun j => x.getLsbD j)) := by
  rw [popc64, popFrom_eq_countP]; rfl

theorem sextOf_eq {w : Nat} (hw : w ≤ 64) (x : W64) : sextOf w x = (x.setWidth w).signExtend 64 := by
  rw [sextOf, ← sext64_toNat hw, BitVec.toNat_setWidth]

theorem zextOf_eq (w : Nat) (x : W64) : zextOf w x = (x.setWidth w).setWidth 64 := by
  apply BitVec.eq_of_toNat_eq
  rw [zextOf, BitVec.toNat_ofNat, BitVec.toNat_setWidth, BitVec.toNat_setWidth]

/-- Settles O2: the operations run through `semRR` and `semR1`, and their values are those of the rules. -/
theorem scalarMultiplyUnary : Obligations.ScalarMultiplyUnary := by
  refine ⟨fun k g d a b => ?_, fun k g d a => ?_⟩
  · refine ⟨writesS_semRR (fun _ => rfl) fun _ => rfl, writesS_semRR (fun _ => rfl) fun _ => rfl,
      writesS_semRR (fun _ => rfl) fun _ => rfl, writesS_semRR (fun _ => rfl) fun _ => divS64_eq ..,
      writesS_semRR (fun _ => rfl) fun _ => rfl, writesS_semRR (fun _ => rfl) fun _ => remS64_eq ..,
      writesS_semRR (fun _ => rfl) fun _ => rfl, fun f hf => ?_⟩
    obtain ⟨hop, hlow⟩ := word_rrr 0x02#6 k g d a b f
    exact decodeSlot_s_eq_none (rawS_multiply_illegal hop (by omega))
  · refine ⟨⟨fun t => leadingZeros (t.rs a.toNat), fun _ => leadingZeros_spec _, writesS_semR1 (fun _ => rfl) fun _ => clz64_eq _⟩,
      ⟨fun t => trailingZeros (t.rs a.toNat), fun _ => trailingZeros_spec _, writesS_semR1 (fun _ => rfl) fun _ => rfl⟩,
      writesS_semR1 (fun _ => rfl) fun _ => popc64_eq _,
      writesS_semR1 (fun _ => rfl) fun _ => sextOf_eq (by decide) _, writesS_semR1 (fun _ => rfl) fun _ => sextOf_eq (by decide) _,
      writesS_semR1 (fun _ => rfl) fun _ => sextOf_eq (by decide) _, writesS_semR1 (fun _ => rfl) fun _ => zextOf_eq ..,
      writesS_semR1 (fun _ => rfl) fun _ => zextOf_eq .., writesS_semR1 (fun _ => rfl) fun _ => zextOf_eq .., fun b f hf => ?_⟩
    obtain ⟨hop, hlow⟩ := word_rrr 0x03#6 k g d a b f
    have hfn : 9 ≤ b.toNat * 0x10 + f.toNat := by
      rcases hf with hf | hb
      · omega
      · have := toNat_ne_zero_iff.2 hb; omega
    exact decodeSlot_s_eq_none (rawS_unary_illegal hop (hlow ▸ hfn))

-- Conditions (04 R101, R103).

theorem cond_relS {c : Nat} (hc : c < 10) (x y : W64) : cond (relS c) x y =
    [decide (x = y), decide (x ≠ y), decide (x.toInt < y.toInt), decide (x.toInt ≤ y.toInt), decide (x.toInt > y.toInt),
     decide (x.toInt ≥ y.toInt), decide (x.toNat < y.toNat), decide (x.toNat ≤ y.toNat), decide (x.toNat > y.toNat),
     decide (x.toNat ≥ y.toNat)].getD c false := by
  have hne : (x != y) = decide (x ≠ y) := by rw [bne, decide_not]; rfl
  match c, hc with
  | 1, _ => exact hne
  | 0, _ | 2, _ | 3, _ | 4, _ | 5, _ | 6, _ | 7, _ | 8, _ | 9, _ => rfl
  | _ + 10, hc => omega

theorem filter_wf_eq_none {i : Instr} (h : i.wf = false) : (some i).filter Instr.wf = none := by
  rw [Option.filter_some, h, if_neg Bool.false_ne_true]

/-- A word whose condition code is above 9 is not well formed. -/
theorem rawS_cmp_illegal {w : BitVec 32} (hop : w.toNat / 0x4000000 = 4)
    (h : 10 ≤ w.toNat % 16 ∨ w.toNat / 0x80000 % 8 ≠ 0) : (rawS w).filter Instr.wf = none := by
  rcases h with hc | hz
  · have hwf : ¬ (fld w 0 4).toNat ≤ 9 := by rw [fld, BitVec.toNat_ofNat]; omega
    simp only [rawS, hop]
    split
    · exact filter_wf_eq_none (decide_eq_false hwf)
    · rfl
  · simp [rawS, hop, fx_eq_false (lo := 19) (len := 3) hz]

theorem rawS_cmpi_illegal {w : BitVec 32} (hop : w.toNat / 0x4000000 = 5) (hc : 10 ≤ w.toNat / 0x40000 % 16) :
    (rawS w).filter Instr.wf = none := by
  have hwf : ¬ (fld w 18 4).toNat ≤ 9 := by rw [fld, BitVec.toNat_ofNat]; omega
  simp only [rawS, hop]
  exact filter_wf_eq_none (decide_eq_false hwf)

theorem rawS_sel_illegal {w : BitVec 32} (hop : w.toNat / 0x4000000 = 6) (h : w.toNat % 2 = 1) : rawS w = none := by
  simp [rawS, hop, fx_eq_false (show w.toNat / 2 ^ 0 % 2 ^ 1 ≠ 0 by omega)]

/-- Every predicate operation has zeros at [21:19], [15:13] and [9:7]; `pnot` and `pmov` have no second source, and have zeros
at [6:4] too. -/
theorem rawS_predicate_illegal {w : BitVec 32} (hop : w.toNat / 0x4000000 = 7)
    (h : 5 ≤ w.toNat % 16 ∨ w.toNat / 0x80000 % 8 ≠ 0 ∨ w.toNat / 0x2000 % 8 ≠ 0 ∨ w.toNat / 0x80 % 8 ≠ 0 ∨
      3 ≤ w.toNat % 16 ∧ w.toNat / 0x10 % 8 ≠ 0) : rawS w = none := by
  have hthree : ∀ v < 3, (fx w 0 4 v && fx w 7 3 0 && fx w 13 3 0 && fx w 19 3 0) = false := by
    intro v hv
    simp only [fx, Bool.and_eq_false_iff, beq_eq_false_iff_ne]
    omega
  have htwo : ∀ v, v = 3 ∨ v = 4 → (fx w 0 10 v && fx w 13 3 0 && fx w 19 3 0) = false := by
    intro v hv
    simp only [fx, Bool.and_eq_false_iff, beq_eq_false_iff_ne]
    omega
  simp only [rawS, hop, hthree 0 (by decide), hthree 1 (by decide), hthree 2 (by decide), htwo 3 (.inl rfl), htwo 4 (.inr rfl),
    Bool.false_eq_true, if_false]

/-- Opcode, fixed bits and condition code of a compare of two registers. -/
theorem word_cmp (o : BitVec 6) (k : BitVec 3) (g : BitVec 1) (z p : BitVec 3) (a b : BitVec 6) (c : BitVec 4) :
    let w := o ++ k ++ g ++ z ++ p ++ a ++ b ++ c
    w.toNat / 0x4000000 = o.toNat ∧ w.toNat / 0x80000 % 8 = z.toNat ∧ w.toNat % 16 = c.toNat := by
  simp only [toNat_append_add]
  omega

/-- Opcode and condition code of a compare with an immediate. -/
theorem word_cmpi (o : BitVec 6) (k : BitVec 3) (g : BitVec 1) (c : BitVec 4) (p : BitVec 3) (a : BitVec 6) (i : BitVec 9) :
    let w := o ++ k ++ g ++ c ++ p ++ a ++ i
    w.toNat / 0x4000000 = o.toNat ∧ w.toNat / 0x40000 % 16 = c.toNat := by
  simp only [toNat_append_add]
  omega

/-- Opcode and fixed bit of a select. -/
theorem word_sel (o : BitVec 6) (k : BitVec 3) (g : BitVec 1) (d a b : BitVec 6) (q : BitVec 3) (z : BitVec 1) :
    let w := o ++ k ++ g ++ d ++ a ++ b ++ q ++ z
    w.toNat / 0x4000000 = o.toNat ∧ w.toNat % 2 = z.toNat := by
  simp only [toNat_append_add]
  omega

/-- Opcode, fixed bits, second source and function of a predicate operation. -/
theorem word_predicate (o : BitVec 6) (k : BitVec 3) (g : BitVec 1) (x p y q z r : BitVec 3) (f : BitVec 4) :
    let w := o ++ k ++ g ++ x ++ p ++ y ++ q ++ z ++ r ++ f
    w.toNat / 0x4000000 = o.toNat ∧ w.toNat / 0x80000 % 8 = x.toNat ∧ w.toNat / 0x2000 % 8 = y.toNat ∧
      w.toNat / 0x80 % 8 = z.toNat ∧ w.toNat / 0x10 % 8 = r.toNat ∧ w.toNat % 16 = f.toNat := by
  simp only [toNat_append_add]
  omega

/-- Settles O3: each operation runs through `pSem` or `sSem`, and every bit that its row fixes is looked at. -/
theorem compareAndPredicates : Obligations.CompareAndPredicates := by
  intro k g d a b p q r c i
  refine ⟨fun hc => writesP_of fun s => by dsimp only; rw [← cond_relS hc]; rfl,
    fun hc => writesP_of fun s => by dsimp only; rw [← cond_relS hc, ← sext64_toNat (by decide)]; rfl,
    writesS_of fun _ => rfl, writesP_of fun _ => rfl, writesP_of fun _ => rfl, writesP_of fun _ => rfl, writesP_of fun _ => rfl,
    writesP_of fun _ => rfl, fun z h => ?_, fun hc => ?_, ?_, fun x y z f h => ?_⟩
  · obtain ⟨hop, hz, hc⟩ := word_cmp 0x04#6 k g z p a b c
    refine rawS_cmp_illegal hop ?_
    rwa [hz, hc, toNat_ne_zero_iff]
  · obtain ⟨hop, hc'⟩ := word_cmpi 0x05#6 k g c p a i
    exact rawS_cmpi_illegal hop (hc' ▸ hc)
  · obtain ⟨hop, hlow⟩ := word_sel 0x06#6 k g d a b q 1#1
    exact decodeSlot_s_eq_none (rawS_sel_illegal hop hlow)
  · obtain ⟨hop, hx, hy, hz, hr, hf⟩ := word_predicate 0x07#6 k g x p y q z r f
    refine decodeSlot_s_eq_none (rawS_predicate_illegal hop ?_)
    rw [hf, hx, hy, hz, hr]
    simpa only [toNat_ne_zero_iff] using h

-- Floating compares (04 R106).

theorem lt_of_isNan {x y : Machine.Num} (h : (x.isNan || y.isNan) = true) : x.lt y = false := by
  cases x with
  | nan => rfl
  | inf s | fin s m e => cases y with
    | nan => rfl
    | inf | fin => simp [Num.isNan] at h

/-- With a NaN only `ne` and `un` are true. -/
theorem condF_of_nan {c : Nat} (hc : c < 7) {x y : Machine.Num} (h : (x.isNan || y.isNan) = true) :
    condF (relF c) x y = (c == 1 || c == 6) := by
  have hxy : x.lt y = false := lt_of_isNan h
  have hyx : y.lt x = false := lt_of_isNan (Bool.or_comm .. ▸ h)
  have heqv : x.eqv y = false := by rw [Num.eqv, ← Bool.not_or, h]; rfl
  match c, hc with
  | 0, _ => exact heqv
  | 1, _ => simp only [relF, condF, heqv]; rfl
  | 2, _ => exact hxy
  | 4, _ => exact hyx
  | 3, _ => simp only [relF, condF, hxy, heqv]; rfl
  | 5, _ => simp only [relF, condF, hyx, heqv]; rfl
  | 6, _ => exact h
  | _ + 7, hc => omega

theorem condF_of_number {c : Nat} (hc : c < 7) {x y : Machine.Num} (h : (x.isNan || y.isNan) = false) : condF (relF c) x y =
    [x.eqv y, !x.eqv y, x.lt y, x.lt y || x.eqv y, y.lt x, y.lt x || x.eqv y, false].getD c false := by
  match c, hc with
  | 6, _ => exact h
  | 0, _ | 1, _ | 2, _ | 3, _ | 4, _ | 5, _ => rfl
  | _ + 7, hc => omega

theorem condF_relF {c : Nat} (hc : c < 7) (x y : Machine.Num) : condF (relF c) x y =
    if x.isNan || y.isNan then c == 1 || c == 6 else
      [x.eqv y, !x.eqv y, x.lt y, x.lt y || x.eqv y, y.lt x, y.lt x || x.eqv y, false].getD c false := by
  split
  · next h => exact condF_of_nan hc h
  · next h => exact condF_of_number hc (Bool.not_eq_true _ ▸ h)

/-- Settles O4: every operation with a rounding runs through `sFp`, the exact conversions through `sSem`. -/
theorem scalarFloating : Obligations.ScalarFloating := by
  refine ⟨fun k g d a b => ?_, fun k g d a b p c => ?_⟩
  · exact ⟨roundsS_of fun _ => rfl, roundsS_of fun _ => rfl, roundsS_of fun _ => rfl, roundsS_of fun _ => rfl⟩
  · exact ⟨fun hc => writesP_of fun s => by dsimp only; rw [← condF_relF hc]; rfl,
      roundsS_of fun _ => rfl, roundsS_of fun _ => rfl, roundsS_of fun _ => rfl, roundsS_of fun _ => rfl,
      roundsS_of fun _ => rfl, roundsS_of fun _ => rfl, writesS_of fun _ => rfl, writesS_of fun _ => rfl⟩

-- Single elements of the URS (04 R108, R109).

section
variable {k : BitVec 3} {g : BitVec 1} {d n b : BitVec 6} {p w : BitVec 2} {s : State}

/-- The offset of the element that an operation names. -/
def elemAt (t : Strand) (b : BitVec 6) (w : BitVec 2) : Nat := (t.rs b.toNat).toNat * 2 ^ w.toNat

theorem semSGet_unmapped (h : resolve s.me n.toNat = none) :
    semSGet k g d n b p w s = { sSem s.me k g [b.toNat] d 1 0#64 with fault := some (s.me.unmapped n.toNat) } := by
  simp only [semSGet, h]

theorem semSGet_outside {r : Res} (h : resolve s.me n.toNat = some r) (hx : ¬ elemAt s.me b w + 2 ^ w.toNat ≤ min r.pitch 1024) :
    semSGet k g d n b p w s = { sSem s.me k g [b.toNat] d 1 0#64 with fault := some s.me.illegal } := by
  simp only [semSGet, h]; exact if_pos (Nat.lt_of_not_le hx)

theorem semSGet_inside {r : Res} (h : resolve s.me n.toNat = some r) (hx : elemAt s.me b w + 2 ^ w.toNat ≤ min r.pitch 1024) :
    semSGet k g d n b p w s = { sSem s.me k g [b.toNat] d 1
      (BitVec.ofNat 64 (leNat (s.me.ursRead (r.addr + elemAt s.me b w) (2 ^ w.toNat)))) with
      srcs := [.s b.toNat, .urs (r.addr + elemAt s.me b w) (2 ^ w.toNat)] } := by
  simp only [semSGet, h]; exact if_neg (Nat.not_lt_of_le hx)

/-- What every `s.put` starts from. -/
def putSem (t : Strand) (k : BitVec 3) (g : BitVec 1) (d b : BitVec 6) : SlotSem :=
  { guard := t.guard k g, guarded := isGuarded k g, srcs := srcS [d.toNat, b.toNat] }

theorem semSPut_unmapped (h : resolve s.me n.toNat = none) :
    semSPut k g d n b w s = { putSem s.me k g d b with fault := some (s.me.unmapped n.toNat) } := by
  simp only [semSPut, h, putSem]

theorem semSPut_outside {r : Res} (h : resolve s.me n.toNat = some r) (hx : ¬ elemAt s.me b w + 2 ^ w.toNat ≤ r.pitch) :
    semSPut k g d n b w s = { putSem s.me k g d b with fault := some s.me.illegal } := by
  simp only [semSPut, h]; exact if_pos (Nat.lt_of_not_le hx)

theorem semSPut_inside {r : Res} (h : resolve s.me n.toNat = some r) (hx : elemAt s.me b w + 2 ^ w.toNat ≤ r.pitch) :
    semSPut k g d n b w s = { putSem s.me k g d b with
      dsts := [.urs (r.addr + elemAt s.me b w) (2 ^ w.toNat)]
      lands := [(1, .urs (r.addr + elemAt s.me b w) (wholeBytes (leBytes (2 ^ w.toNat) (s.me.rs d.toNat).toNat)))] } := by
  simp only [semSPut, h]; exact if_neg (Nat.not_lt_of_le hx)

end

/-- Settles O5: by whether the name resolves, and whether the element lies inside the entry. -/
theorem elementMoves : Obligations.ElementMoves := by
  intro k g d n b p w s hg
  have hget : exec (.sGet k g d n b p w) s = .next (runSlot 1 (semSGet k g d n b p w s) s) := rfl
  have hput : exec (.sPut k g d n b w) s = .next (runSlot 1 (semSPut k g d n b w s) s) := rfl
  dsimp only
  split
  · next hres =>
    refine ⟨fun hr => ?_, fun hr => ?_⟩
    · rw [hget, semSGet_unmapped hres]
      exact congrArg _ (raises_of hr rfl rfl hg rfl rfl rfl rfl)
    · rw [hput, semSPut_unmapped hres]
      exact congrArg _ (raises_of hr rfl rfl hg rfl rfl rfl rfl)
  · next r hres =>
    refine ⟨?_, ?_⟩
    · split
      · next hx =>
        intro hr
        rw [hget, semSGet_inside hres hx]
        exact ⟨_, rfl, commits_with hr rfl rfl hg rfl rfl rfl rfl rfl (slotEnts_one _ 1 _ rfl rfl hg) .id rfl rfl⟩
      · next hx =>
        intro hr
        rw [hget, semSGet_outside hres hx]
        exact congrArg _ (raises_of hr rfl rfl hg rfl rfl rfl rfl)
    · split
      · next hx =>
        intro hr
        rw [hput, semSPut_inside hres hx]
        exact ⟨_, rfl, commits_with hr rfl rfl hg rfl rfl rfl rfl rfl (slotEnts_one _ 1 _ rfl rfl hg) .id rfl rfl⟩
      · next hx =>
        intro hr
        rw [hput, semSPut_outside hres hx]
        exact congrArg _ (raises_of hr rfl rfl hg rfl rfl rfl rfl)

-- The address units (04 R110, R111, R114).

theorem writesA_of {i : Instr} {srcs : List Dst} {dst : Dst} {e : Strand → Eff}
    (he : ∀ s, exec i s = .next (runSlot s.cur.slot { srcs := srcs, dsts := [dst], lands := [(1, e s.me)] } s)) :
    WritesA i srcs dst e := by
  rintro slot - s rfl hr
  exact ⟨_, he s, commits_with hr rfl rfl rfl rfl rfl rfl rfl rfl rfl .id rfl rfl⟩

theorem cond_relA {c : Nat} (hc : c < 6) (x y : W64) : cond (relA c) x y =
    [decide (x.toNat = y.toNat), decide (x.toNat ≠ y.toNat), decide (x.toNat < y.toNat), decide (x.toNat ≤ y.toNat),
     decide (x.toNat > y.toNat), decide (x.toNat ≥ y.toNat)].getD c false := by
  have heq : decide (x = y) = decide (x.toNat = y.toNat) := decide_eq_decide.2 BitVec.toNat_eq
  have hne : (x != y) = decide (x.toNat ≠ y.toNat) := by rw [decide_not, ← heq]; rfl
  match c, hc with
  | 0, _ => exact heq
  | 1, _ => exact hne
  | 2, _ | 3, _ | 4, _ | 5, _ => rfl
  | _ + 6, hc => omega

/-- A compare whose condition code is above 5 is not well formed. -/
theorem rawA_acmp_illegal {w : BitVec 32} (hop : w.toNat / 0x4000000 = 8) (hc : 6 ≤ w.toNat / 0x800000 % 8) :
    (rawA w).filter Instr.wf = none := by
  have hwf : ¬ (fld w 23 3).toNat ≤ 5 := by rw [fld, BitVec.toNat_ofNat]; omega
  simp only [rawA, hop]
  split
  · exact filter_wf_eq_none (decide_eq_false hwf)
  · rfl

/-- Opcode and condition code of a compare of two address registers. -/
theorem word_acmp (o : BitVec 6) (c p : BitVec 3) (a b : BitVec 5) (z : BitVec 10) :
    let w := o ++ c ++ p ++ a ++ b ++ z
    w.toNat / 0x4000000 = o.toNat ∧ w.toNat / 0x800000 % 8 = c.toNat := by
  simp only [toNat_append_add]
  omega

-- Modifier descriptors (01 R17) and their update (04 R112).

/-- STEP of a descriptor. -/
def stepOf (m : W128) : Int := (m.extractLsb' 96 32).toInt
/-- LEN of a descriptor. -/
def lenOf (m : W128) : Nat := (m.extractLsb' 72 24).toNat
/-- MODE of a descriptor. -/
def modeOf (m : W128) : Nat := (m.extractLsb' 64 2).toNat
/-- BASE of a descriptor. -/
def baseOf (m : W128) : Int := (m.extractLsb' 0 57).toNat

theorem bits_eq_extract {n : Nat} (m : BitVec n) (lo len : Nat) :
    m.toNat / 2 ^ lo % 2 ^ len = (m.extractLsb' lo len).toNat := by
  rw [BitVec.extractLsb'_toNat, Nat.shiftRight_eq_div_pow]

theorem sInt_toNat {w : Nat} (x : BitVec w) : sInt w x.toNat = x.toInt := by
  rw [sInt, BitVec.toInt_eq_msb_cond, BitVec.msb_eq_getLsbD_last, BitVec.getLsbD]
  rw [Int.natCast_pow]; rfl

theorem sInt_stepOf (m : W128) : sInt 32 (m.toNat / 2 ^ 96) = stepOf m := by
  have hm : m.toNat / 2 ^ 96 = (m.extractLsb' 96 32).toNat := by
    rw [← bits_eq_extract, Nat.mod_eq_of_lt]
    have := m.isLt; omega
  rw [hm, sInt_toNat]; rfl

theorem bits_lenOf (m : W128) : bits m.toNat 95 72 = lenOf m := bits_eq_extract m 72 24
theorem bits_modeOf (m : W128) : bits m.toNat 65 64 = modeOf m := bits_eq_extract m 64 2
theorem bits_baseOf (m : W128) : (bits m.toNat 56 0 : Int) = baseOf m := congrArg Nat.cast (bits_eq_extract m 0 57)

section
variable {a : W64} {m : W128}

theorem modUpdate_linear (h : modeOf m = 0 ∨ modeOf m = 1 ∧ lenOf m = 0) :
    modUpdate a m = some (BitVec.ofInt 64 (a.toNat + stepOf m)) := by
  rcases h with h | ⟨h, hlen⟩
  · simp only [modUpdate, bits_modeOf, h, sInt_stepOf]
  · simp only [modUpdate, bits_modeOf, h, bits_lenOf, hlen, sInt_stepOf, if_true]

theorem modUpdate_window (h : modeOf m = 1) (hlen : lenOf m ≠ 0) :
    modUpdate a m = some (BitVec.ofInt 64 (baseOf m + (a.toNat - baseOf m + stepOf m) % lenOf m)) := by
  simp only [modUpdate, bits_modeOf, h, bits_lenOf, hlen, bits_baseOf, sInt_stepOf, if_false]

theorem modUpdate_reserved (h : modeOf m = 3) : modUpdate a m = none := by
  simp only [modUpdate, bits_modeOf, h]

theorem log2?_two_pow (x : Nat) : log2? (2 ^ x) = some x := by
  simp [log2?]

theorem log2?_eq_none {n : Nat} (h : ∀ x : Nat, n ≠ 2 ^ x) : log2? n = none :=
  if_neg fun ⟨_, hn⟩ => h _ hn.symm

/-- The index of a place in a window of `2 ^ x` bytes by steps of `2 ^ y` bytes lies below their quotient. -/
theorem windowIndex_lt {z : Int} {x y : Nat} (hyx : y ≤ x) : (z % (2 ^ x : Nat) / 2 ^ y).toNat < 2 ^ (x - y) := by
  have hx : (0 : Int) < (2 ^ x : Nat) := Int.natCast_pos.2 (Nat.two_pow_pos x)
  have hlt := Int.emod_lt_of_pos z hx
  have hpow : ((2 ^ (x - y) : Nat) : Int) * 2 ^ y = (2 ^ x : Nat) := by
    rw [← Nat.pow_sub_mul_pow 2 hyx, Int.natCast_mul, Int.natCast_pow 2 y]; rfl
  rw [Int.toNat_lt' (Nat.two_pow_pos _), Int.ediv_lt_iff_lt_mul (Int.pow_pos (by decide)), hpow]
  exact hlt

theorem modUpdate_reversed {x y : Nat} (h : modeOf m = 2) (hlen : lenOf m = 2 ^ x) (hstep : stepOf m = 2 ^ y) (hyx : y ≤ x) :
    modUpdate a m = some (BitVec.ofInt 64 (baseOf m + stepOf m *
      revBits (x - y) ((revBits (x - y) ((a.toNat - baseOf m) % lenOf m / stepOf m).toNat + 1) % 2 ^ (x - y)))) := by
  have hpos : ¬ ((2 : Int) ^ y ≤ 0 ∨ ((2 ^ x : Nat) : Int) < 2 ^ y) := by
    have hle : (2 : Nat) ^ y ≤ 2 ^ x := Nat.pow_le_pow_right (by decide) hyx
    have hcast : (2 : Int) ^ y = (2 ^ y : Nat) := (Int.natCast_pow 2 y).symm
    have hpos : 0 < 2 ^ y := Nat.two_pow_pos y
    rw [hcast]
    omega
  have hy : ((2 : Int) ^ y).toNat = 2 ^ y := congrArg Int.toNat (Int.natCast_pow 2 y).symm
  simp only [modUpdate, bits_modeOf, h, bits_lenOf, bits_baseOf, sInt_stepOf, hlen, hstep, if_neg hpos, hy, log2?_two_pow,
    Nat.mod_eq_of_lt (windowIndex_lt hyx)]

theorem modUpdate_unusable (h : modeOf m = 2)
    (hbad : (∀ x : Nat, lenOf m ≠ 2 ^ x) ∨ (∀ y : Nat, stepOf m ≠ 2 ^ y) ∨ (lenOf m : Int) < stepOf m) :
    modUpdate a m = none := by
  simp only [modUpdate, bits_modeOf, h, bits_lenOf, sInt_stepOf]
  split
  · rfl
  · next hrange =>
    obtain ⟨hpos, hle⟩ := not_or.1 hrange
    rcases hbad with hlen | hstep | hlt
    · rw [log2?_eq_none hlen]
    · have hnat : ∀ y : Nat, (stepOf m).toNat ≠ 2 ^ y := fun y hy => hstep y (by
        rw [← Int.toNat_of_nonneg (Int.le_of_lt (Int.not_le.1 hpos)), hy]; exact Int.natCast_pow 2 y)
      rw [log2?_eq_none hnat]
      cases log2? (lenOf m) <;> rfl
    · exact absurd hlt hle

theorem astep_sets {d : BitVec 5} {n : BitVec 4} {slot : Nat} {s : State} {v : W64} (hs : s.cur.slot = slot)
    (hr : Ready s slot [.a d.toNat] [.a d.toNat] 0) (h : modUpdate (s.me.ra d.toNat) (s.me.rm n.toNat) = some v) :
    ∃ u, exec (.astep d n) s = .next u ∧
      Commits s u slot [.a d.toNat] [(1, .areg d.toNat v)] (fun c => c) (fun t => t) := by
  subst hs
  have hsem : semAstep d n s = aSem [.a d.toNat] d v := by simp only [semAstep, h]
  have hexec : exec (.astep d n) s = .next (runSlot s.cur.slot (semAstep d n s) s) := rfl
  rw [hexec, hsem]
  exact ⟨_, rfl, commits_with hr rfl rfl rfl rfl rfl rfl rfl rfl rfl .id rfl rfl⟩

theorem astep_stops {d : BitVec 5} {n : BitVec 4} {slot : Nat} {s : State} (hs : s.cur.slot = slot)
    (hr : Ready s slot [.a d.toNat] [.a d.toNat] 0) (h : modUpdate (s.me.ra d.toNat) (s.me.rm n.toNat) = none) :
    exec (.astep d n) s = .next (s.raise s.cur.g slot ⟨0x05, 0, s.me.ctx.pc⟩) := by
  subst hs
  have hsem : semAstep d n s = { aSem [.a d.toNat] d 0#64 with fault := some s.me.illegal } := by simp only [semAstep, h]
  have hexec : exec (.astep d n) s = .next (runSlot s.cur.slot (semAstep d n s) s) := rfl
  rw [hexec, hsem]
  exact congrArg _ (raises_of hr rfl rfl rfl rfl rfl rfl rfl)

end

/-- Settles O6: the register operations by `writesA_of`, `astep` by the mode of its descriptor. -/
theorem addressUnits : Obligations.AddressUnits := by
  refine ⟨fun d a b r i m f c p => ?_, fun d m slot s _ hs hr => ?_⟩
  · refine ⟨writesA_of fun _ => rfl, writesA_of fun _ => rfl, writesA_of fun _ => rfl, writesA_of fun _ => rfl,
      writesA_of fun s => by rw [← sext64_toNat (by decide)]; rfl, writesA_of fun _ => rfl,
      fun hc => writesA_of fun s => by dsimp only; rw [← cond_relA hc]; rfl, fun hc => ?_⟩
    obtain ⟨hop, hc'⟩ := word_acmp 0x08#6 c p a b 0#10
    exact rawA_acmp_illegal hop (hc' ▸ hc)
  · exact ⟨fun h => astep_sets hs hr (modUpdate_linear h), fun ⟨h, hlen⟩ => astep_sets hs hr (modUpdate_window h hlen),
      fun x y h hlen hstep hyx => astep_sets hs hr (modUpdate_reversed h hlen hstep hyx),
      fun ⟨h, hbad⟩ => astep_stops hs hr (modUpdate_unusable h hbad), fun h => astep_stops hs hr (modUpdate_reserved h)⟩

end Sys2Proof.ScalarAddress
end
